-- ==== Sys2Proof/Word.lean ====
section
/-! DEFINITION. The word types of the Sprineel Q96 and the shape of its sparse tables. -/

namespace Sys2Proof

/-- One byte. -/
abbrev Byte := BitVec 8
/-- A register or scalar of 32 bits (R11, R117). -/
abbrev Word := BitVec 32
/-- A memory or flume word of 64 bits (R49, R133). -/
abbrev DWord := BitVec 64
/-- A vector register of 256 bits (R117). -/
abbrev Vec := BitVec 256
/-- A sparse table by number: index and value, indices rising, no entry equal to the table's default. -/
abbrev Tab (α : Type) := List (Nat × α)
/-- A time in units of 2^-16 ns (R382: seconds, nanoseconds and fraction are read off this number). -/
abbrev TFrac := Nat

end Sys2Proof
end

