-- ==== Sys2Proof/Machine/StCrypt.lean ====
section
/-! DEFINITION. State of the Rime array and of the Firn engines (chapters 13, 14). -/

namespace Sys2Proof.Machine

/-- Key slot states (R412, R616). -/
inductive KeySt where
  | empty | loaded | spent | faulted
deriving DecidableEq, Repr

/-- Index and replay state of one key (R425, R427): HWM, REKEY_WARN posted, ROC, s_h, and the window whose bit i stands
for the highest accepted index less i. -/
structure Hot where
  hwm    : Option Nat
  warned : Bool
  roc    : Nat
  sh     : Option Nat
  win    : BitVec 128
deriving DecidableEq, Repr

/-- What a slot was under an earlier key that accepted requests still need (R417, R428). -/
structure KeyOld where
  st     : KeySt
  mode   : Nat
  dir    : Nat
  wrapped : Bool
  root   : Nat
  label  : List Byte
  value  : List Byte
  home   : Option Nat
  hot    : Hot
deriving DecidableEq, Repr

/-- A key slot: hot and cold part (R411, R412, R418, R425, R427). DIR 0 TX, 1 RX, 2 ANY. -/
structure KeySlot where
  st     : KeySt
  mode   : Nat
  dir    : Nat
  wrapped : Bool
  root   : Nat
  label  : List Byte
  pin    : Bool
  value  : List Byte
  kcv    : DWord
  /-- number of keys loaded so far: names the key a request was accepted under. -/
  gen    : Nat
  home   : Option Nat
  /-- the reach NX_RIME_KEY_SET named, for XTS and HMAC256 slots. -/
  named  : Nat
  hot    : Hot
  /-- the slot under earlier keys that accepted requests still need, by generation (R428). -/
  olds   : List (Nat × KeyOld)
deriving DecidableEq, Repr

/-- A Rime request (R420). -/
structure RimeReq where
  op     : Nat
  done   : Nat
  weir   : Bool
  leg    : Nat
  slot   : Nat
  len    : Nat
  hdr    : Nat
  index  : Nat
  inPtr  : Nat
  outPtr : Nat
  kind   : Nat
  atomic : Bool
  chamber : Nat
  target : Nat
  prio   : Nat
  group  : Nat
  tag    : BitVec 48
  /-- a reserved bit was set. -/
  rsvd   : Bool
  /-- who wrote the request: 0 Basin manager, 1 Weir unit, 2 Floe, 3 Icehouse. -/
  from_  : Nat
  /-- channel or stream the record returns to when DONE is 1, with the packet's sequence number. -/
  who    : Nat
  seq    : Nat
  /-- the packet a Basin manager or Weir unit holds itself: header and payload, with the tag where it has one. -/
  pkt    : List Byte
deriving DecidableEq, Repr

/-- Where a request stands once it has left the queue (R417, R422). -/
inductive RimeStep where
  | deriving_ | running | finished
deriving DecidableEq, Repr

/-- What a check of stored words finds when a request leaves the queue (R433). -/
inductive RimeUe where
  | none
  /-- the hot part, at a local slot entry. -/
  | hot (entry : Nat)
  /-- the cache entry. -/
  | cache (entry : Nat)
  /-- the cold record. -/
  | cold
deriving DecidableEq, Repr

/-- A request past the queue: key it was accepted under, estimated index, status and output once finished. -/
structure RimeJob where
  req    : RimeReq
  gen    : Nat
  step   : RimeStep
  idx    : Nat
  status : Nat
  out    : List Byte
deriving DecidableEq, Repr

/-- A media reservation in a reach (R424): channel it belongs to, slot, packet time in 48 kHz ticks, payload bytes. -/
structure RimeResv where
  owner  : Nat
  slot   : Nat
  ticks  : Nat
  bytes  : Nat
deriving DecidableEq, Repr

/-- One reach of the array (R411, R417, R419, R424). Requests are queued with the key generation they were accepted
under. -/
structure RimeReach where
  queue  : List (RimeReq × Nat)
  held   : List RimeReq
  jobs   : List RimeJob
  /-- cached slots with their key generation, most recently used first. -/
  cache  : List (Nat × Nat)
  resv   : List RimeResv
  reqs   : Nat
  reqHi  : Option Word
  authFail : Nat
  replay : Nat
  nonce  : Nat
  bad    : Nat
  miss   : Nat
  ue     : Nat
deriving DecidableEq, Repr

/-- The array; roots 0 to 3 are kept in the stored items, roots 4 to 7 are present once generated (R413). -/
structure Rime where
  strength : Nat
  slots    : Tab KeySlot
  reaches  : Tab RimeReach
  volatileRoots : Bool
  /-- device-level resets so far: names the keys of roots 4 to 7. -/
  rootGen  : Nat
deriving DecidableEq, Repr

/-- A Firn job (R441). -/
structure FirnJob where
  op     : Nat
  format : Nat
  level  : Nat
  done   : Nat
  inLen  : Nat
  outLen : Nat
  inPtr  : Nat
  outPtr : Nat
  cplPtr : Nat
  kind   : Nat
  atomic : Bool
  chamber : Nat
  target : Nat
  prio   : Nat
  group  : Nat
  tag    : BitVec 48
  rsvd   : Bool
deriving DecidableEq, Repr

/-- What an engine made of a job: status 0 OK, 1 OUT_FULL, 2 BAD_STREAM, 3 CHECK_FAIL or 4 TRUNCATED, the bytes it wrote
and the input bytes it consumed (R442, R443). -/
structure FirnRes where
  status : Nat
  out    : List Byte
  used   : Nat
deriving DecidableEq, Repr

/-- Poison an engine meets (R447): none, a window word, or the queue entry, with its CPL_PTR word intact or not. -/
inductive FirnUe where
  | none | window (word : Nat) | entry (cplOk : Bool)
deriving DecidableEq, Repr

/-- A Firn engine (R434, R440, R446). -/
structure FirnEng where
  run    : Bool
  queue  : List FirnJob
  held   : List FirnJob
  inCnt  : Nat
  outCnt : Nat
  inHi   : Option Word
  outHi  : Option Word
  jobs   : Nat
  fail   : Nat
  full   : Nat
  bad    : Nat
  ue     : Nat
deriving DecidableEq, Repr

def Hot.reset : Hot := { hwm := none, warned := false, roc := 0, sh := none, win := 0 }
def KeyOld.reset : KeyOld :=
  { st := .empty, mode := 0, dir := 0, wrapped := false, root := 0, label := [], value := [], home := none,
    hot := Hot.reset }
def KeySlot.reset : KeySlot :=
  { st := .empty, mode := 0, dir := 0, wrapped := false, root := 0, label := [], pin := false, value := [],
    kcv := 0, gen := 0, home := none, named := 0, hot := Hot.reset, olds := [] }
def RimeReach.reset : RimeReach :=
  { queue := [], held := [], jobs := [], cache := [], resv := [], reqs := 0, reqHi := none, authFail := 0,
    replay := 0, nonce := 0, bad := 0, miss := 0, ue := 0 }
/-- RIME_CTRL.STRENGTH resets to 2 (R409). -/
def Rime.reset : Rime :=
  { strength := 2, slots := [], reaches := [], volatileRoots := false, rootGen := 0 }
/-- FIRN_CTRL.RUN resets to 1 (R446). -/
def FirnEng.reset : FirnEng :=
  { run := true, queue := [], held := [], inCnt := 0, outCnt := 0, inHi := none, outHi := none, jobs := 0,
    fail := 0, full := 0, bad := 0, ue := 0 }

end Sys2Proof.Machine
end

