-- ==== Sys2Proof/Machine/StFloe.lean ====
section
/-! DEFINITION. State of the Floe engines, their modules, the flumes and the Canal memories
(chapters 01, 02, 04, 05). -/

namespace Sys2Proof.Machine

/-- A 32-byte work item descriptor as four 64-bit words, each with its poison bit (R173, R178). -/
structure Item where
  w0 : DWord
  w1 : DWord
  w2 : DWord
  w3 : DWord
  /-- bit i: word i arrived poisoned. -/
  px : BitVec 4
deriving DecidableEq, Repr

/-- An accumulator lane: 72-bit value and whether it is pinned (R155, R157). -/
structure Lane where
  val    : BitVec 72
  pinned : Bool
deriving DecidableEq, Repr

/-- One address pointer register group entry: pointer, base, length, step and link (R117). -/
structure AddrRegs where
  p : BitVec 18
  b : BitVec 18
  l : BitVec 18
  m : BitVec 18
deriving DecidableEq, Repr

/-- An active hardware loop (R126). -/
structure LoopEntry where
  start : Nat
  stop  : Nat
  left  : Nat
deriving DecidableEq, Repr

/-- An outstanding Canal transfer (R137-R139). -/
structure Xfer where
  isGet : Bool
  loc   : Nat
  size  : Nat
  addr  : Nat
  pc    : Nat
  data  : List Byte
  /-- words of the data that were poisoned in local memory. -/
  px    : List Nat
deriving DecidableEq, Repr

/-- A module fault: code, TRAP argument or KIND, bundle address and site (R145, R147). -/
structure FloeFault where
  code : Nat
  arg  : Nat
  pc   : Nat
  site : DWord
deriving DecidableEq, Repr

/-- What a channel's detectors find in one 5 ms step of a path, as measured: deviations in 0.1 %, levels in 0.1 dBm0 or 0.1 dBFS
(R101). -/
inductive ToneSeen where
  /-- a DTMF digit: deviation and level of its low and its high tone. -/
  | dtmf (digit : Nat) (dev1 dev2 lvl1 lvl2 : Int)
  /-- tone i of the plan, its deviations, and the cadence periods that have matched. -/
  | plan (i : Nat) (dev1 dev2 : Int) (periods : Nat)
  /-- the line-up tone: deviation in Hz, level. -/
  | lineup (hz lvl : Int)
  /-- the answer tone: deviation in Hz, level. -/
  | ans (hz lvl : Int)
  /-- a phase reversal of the answer tone: its angle in degrees, ms since the one before; the reversals so far. -/
  | reversal (angle ms seen : Nat)
  /-- user tone i, or entry i of the GPI map. -/
  | user (i : Nat) (dev1 dev2 : Int)
  | gpi (i : Nat) (dev1 dev2 : Int)
deriving DecidableEq, Repr

/-- What the receive functions contribute whose arithmetic the spec does not print (R93, R94, R105): the decoder's samples, the
concealment method's samples, the pitch period in samples, and whether an Opus decoder accepts the packet. -/
structure RxIn where
  raw   : List Int
  plc   : List Int
  pitch : Nat
  good  : Bool
deriving DecidableEq, Repr

/-- What the transmit functions measure in, or make of, one frame where the spec does not print their arithmetic (R84-R99): the input
of a HOST source; the filter after adaptation; the echo estimated under the present filter; whether a residual was judged with the
near end silent, and the factor in 2^-16 a suppressed one is left with; how far, in 0.1 dB, inserted noise lies from the measured
background; the background measured, its level first and then its bands; ERL, ERLE and residual in 0.1 dB; a double-talk interval
begun; the level judged for speech, in 0.1 dBm0; the encoder's bytes and the comfort-noise description. -/
structure TxIn where
  src    : List Int
  coefs  : List Int
  echo   : List Int
  resid  : Bool
  att    : Nat
  dev    : Int
  bg     : Option (List Int)
  erl    : Int
  erle   : Int
  residual : Int
  dt     : Bool
  speech : Int
  enc    : List Byte
  sid    : List Byte
deriving DecidableEq, Repr

/-- A standard function of chapter 03 that a module carries out while it runs its channel's work item: the receive functions on the
item's position, the transmit functions on the next processing frame, one 5 ms step of a path's tone detectors, a packet for a HOST
sink, or the finding of a poisoned state word (R73, R79). -/
inductive ChanAct where
  | rx (x : RxIn)
  | tx (x : TxIn)
  | tones (tx : Bool) (t : Nat) (seen : List ToneSeen)
  | host (tx : Bool) (packet : List Byte)
  | poisoned
deriving DecidableEq, Repr

/-- A word of a flume item: data and poison bit (R62-R64). -/
structure FWord where
  data   : DWord
  poison : Bool
deriving DecidableEq, Repr

/-- A flume item with the two-bit side field of R175. -/
structure FItem where
  words : List FWord
  side  : BitVec 2
deriving DecidableEq, Repr

/-- What keeps a Floe from issuing its next bundle. -/
inductive Stall where
  | none
  /-- a push into flume f is held; retires: its last record retires the item (R143, R142). -/
  | push (retires : Bool)
  /-- a transfer waits for room among the 16 (R138). -/
  | xfer
  /-- CWAIT: stall until at most n transfers are outstanding. -/
  | cwait (n : Nat)
  /-- YIELD, or a module fault, waits until no transfer is outstanding (R142, R145). -/
  | drain (fault : Option FloeFault)
  /-- a fetch waits for the rewrite of instruction words (R136). -/
  | imem (words : List Nat)
deriving DecidableEq, Repr

/-- The register files of a Floe (R117). -/
structure FloeRegs where
  s     : Tab Word
  v     : Tab Vec
  /-- accumulator lane k of accumulator a at index 8a + k. -/
  acc   : Tab Lane
  ar    : Tab AddrRegs
  /-- link of pointer i; unlisted = its own index. -/
  link  : Tab Nat
  loops : List LoopEntry
deriving DecidableEq, Repr

/-- A Floe (R117-R147, R614, R615). -/
structure Floe where
  regs     : FloeRegs
  pc       : Nat
  /-- current and next work slots. -/
  cur      : Option Item
  nxt      : Option Item
  started  : Bool
  stall    : Stall
  xfers    : List Xfer
  run      : Bool
  threadMode : Bool
  fenced   : Bool
  /-- the Icehouse withholds dispatch to the Floe before it stops it (R150, R614). -/
  withhold : Bool
  gov      : BitVec 64
  /-- FLOE_GOV_HI as latched by the last read of FLOE_GOV_LO (R14). -/
  govHi    : Option Word
  /-- GOV bits set from 0 during the item, and the first bundle that did (R161). -/
  govMask  : BitVec 64
  govPc    : Nat
  cbout    : Bool
  cbfold   : Bool
  faultCode : Nat
  faultArg : Nat
  faultPc  : Nat
  faultCnt : Nat
  imUe     : Nat
  dmUe     : Nat
  imCe     : Nat
  dmCe     : Nat
  retired  : Nat
  retiredHi : Option Word
  stalls   : Nat
deriving DecidableEq, Repr

/-- The memories of a Floe (R133-R136). -/
structure FloeMem where
  /-- data memory bytes by local address. -/
  dmem   : List (Nat × Byte)
  /-- 64-bit words whose poison bit is set (R133): word w of data memory as w, word n of instruction memory (2a or 2a + 1
  of bundle a) as 32,768 + n. -/
  poison : List Nat
  /-- bundles of instruction memory; unlisted = zero (NOP). -/
  imem   : Tab (BitVec 128)
  /-- instruction words (2a or 2a+1) found uncorrectable, with the time (R136). -/
  imFailed : List (Nat × Nat)
  /-- times at which uncorrectable data words were found (R146). -/
  ueTimes : List Nat
deriving DecidableEq, Repr

/-- A loaded module (R148-R150). -/
structure Module where
  modId   : Nat
  version : Nat
  govEvt  : Bool
  thread  : Bool
  service : Bool
  base    : Nat
  code    : Nat
  baseX   : Nat
  dataX   : Nat
  baseY   : Nat
  dataY   : Nat
  /-- kind and entry bundle, relocated. -/
  kinds   : List (Nat × Nat)
  requires : List Nat
  fuCost  : List Nat
deriving DecidableEq, Repr

/-- Whose signature verifies on an image (R149, R548). -/
inductive Signer where
  /-- the container does not parse or no signature verifies. -/
  | none
  | gufaber
  /-- integrator key k of the key store. -/
  | key (k : Nat)
  /-- a key that is valid and not enrolled. -/
  | other
deriving DecidableEq, Repr

/-- A flume between two timing domains (R48-R67). Slots are physical body addresses; the four pointers are held in Gray
code (R50). -/
structure Flume where
  body     : List (Nat × FItem)
  head     : List (Nat × FItem)
  /-- write and read pointers, each in Gray code in its own side's register (R50). -/
  wptr     : Nat
  rptr     : Nat
  /-- write pointer as synchronised to the reader, read pointer as synchronised to the writer, in Gray code. -/
  wSeen    : Nat
  rSeen    : Nat
  held     : List FItem
  popWaits : Bool
  ce       : Nat
  ueSeen   : Bool
  ue       : Nat
deriving DecidableEq, Repr

/-- Névé, LPDDR5X and the Canal (R33-R47, R496). -/
structure Fabric where
  neve      : List (Nat × Byte)
  nevePoison : List Nat
  neveCe    : Nat
  neveUe    : Nat
  ddr       : List (Nat × Byte)
  ddrPoison : List Nat
  canalAddrCnt : Nat
  /-- partition sizes in KiB, in the order of R44: Quay RX, Quay TX, Basin heads, chamber spill, staging,
  trace, free; in force, and those awaiting the next entry to SERVICE (R45). -/
  parts     : List Nat
  partsNext : Option (List Nat)
  /-- LPDDR5X: density per channel in GiB, live channels with their bin (0 8533, 1 7500, 2 6400). -/
  density   : Nat
  live      : List (Nat × Nat)
deriving DecidableEq, Repr

def Lane.reset : Lane := { val := 0, pinned := false }
def AddrRegs.reset : AddrRegs := { p := 0, b := 0, l := 0, m := 0 }
def FloeRegs.reset : FloeRegs := { s := [], v := [], acc := [], ar := [], link := [], loops := [] }
def Floe.reset : Floe :=
  { regs := FloeRegs.reset, pc := 0, cur := none, nxt := none, started := false, stall := .none, xfers := [],
    run := false, threadMode := true, fenced := false, withhold := false, gov := 0, govHi := none, govMask := 0, govPc := 0,
    cbout := false,
    cbfold := false, faultCode := 0, faultArg := 0, faultPc := 0, faultCnt := 0, imUe := 0, dmUe := 0,
    imCe := 0, dmCe := 0, retired := 0, retiredHi := none, stalls := 0 }
def FloeMem.reset : FloeMem := { dmem := [], poison := [], imem := [], imFailed := [], ueTimes := [] }
def Flume.reset : Flume :=
  { body := [], head := [], wptr := 0, rptr := 0, wSeen := 0, rSeen := 0, held := [], popWaits := false,
    ce := 0, ueSeen := false, ue := 0 }
/-- R44: the default partition sizes, in KiB. -/
def Fabric.defaultParts : List Nat := [8192, 4096, 8192, 2048, 4096, 2048, 4096]
def Fabric.reset : Fabric :=
  { neve := [], nevePoison := [], neveCe := 0, neveUe := 0, ddr := [], ddrPoison := [], canalAddrCnt := 0,
    parts := Fabric.defaultParts, partsNext := none, density := 0, live := [] }

end Sys2Proof.Machine
end

