-- ==== Sys2Proof/Machine/StMix.lean ====
section
/-! DEFINITION. State of the Junction and of the Sluice lanes (chapters 08, 09). Source rings and bus output rings lie
in LPDDR5X memory; State.fab holds their bytes. -/

namespace Sys2Proof.Machine

/-- A crosspoint (R249, R263-R266). -/
structure XPoint where
  bus    : Nat
  src    : Nat
  /-- gain reached, in Q3.13. -/
  gain   : Int
  target : Int
  rampMs : Nat
  /-- gain the ramp started from, samples done and total samples; total 0 = no ramp. -/
  g0     : Int
  done   : Nat
  total  : Nat
  /-- the change to begin at the next boundary: target and ramp. -/
  pend   : Option (Int × Nat)
  /-- the channel an entry crosspoint belongs to (R252). -/
  entry  : Option Nat
  deleting : Bool
  faulted : Bool
deriving DecidableEq, Repr

/-- Bus states (R616). -/
inductive BusSt where
  | free | defined | enabled
deriving DecidableEq, Repr

/-- A bus (R248, R262, R267). -/
structure Bus where
  st     : BusSt
  share  : Bool
  parent : Nat
  minus  : Option Nat
  /-- a MINUS written and not yet at its boundary. -/
  minusNext : Option (Option Nat)
  /-- crosspoint numbers of the list, in the order added. -/
  xps    : List Nat
  clip   : Nat
  faulted : Bool
deriving DecidableEq, Repr

/-- Counters of a slice (R260, R257, R272). -/
structure Slice where
  ovrSeen : Bool
  overrun : Nat
  late    : Nat
  ue      : Nat
deriving DecidableEq, Repr

/-- The Junction; block is the last block boundary passed in SERVICE. -/
structure Junction where
  xps    : Tab XPoint
  buses  : Tab Bus
  slices : Tab Slice
  block  : Option Nat
deriving DecidableEq, Repr

/-- Stage kinds (R275). -/
inductive StageKind where
  | dcb | dec | int | adapt
deriving DecidableEq, Repr

/-- A stage's parameters (R275). -/
structure Stage where
  kind  : StageKind
  k     : Nat
  ratio : Nat
  n     : Nat
  p     : Nat
  t     : Nat
  coef  : Nat
  shift : Nat
deriving DecidableEq, Repr

/-- A profile (R275, R276, R288, R291): input rate in Hz, stages, settle count, reserved MAC per second. -/
structure Profile where
  rate   : Nat
  stages : List Stage
  u      : Nat
  mac    : Nat
deriving DecidableEq, Repr

/-- The running state of one stage in a context (R274, R277-R281): history newest first, DC estimate, phase counter,
input position in 2^-32 of a sample. -/
structure StageSt where
  hist  : List Int
  dc    : Int
  phase : Nat
  frac  : Nat
deriving DecidableEq, Repr

/-- A channel context (R274, R286, R292-R296). -/
structure Ctx where
  prof   : Nat
  kind   : Nat
  chamber : Nat
  atomic : Bool
  target : Nat
  owner  : Option Nat
  st     : List StageSt
  frozen : Bool
  /-- a host FREEZE waiting for the next request (R294). -/
  frzPend : Option Bool
  left   : Nat
  sat    : Nat
  /-- a history word arrived poisoned: the next request begins with a step. -/
  stepPend : Bool
  /-- sync ticks registered and not yet applied by this context, in 48 kHz ticks, oldest first (R295, R296). -/
  sync   : List Nat
deriving DecidableEq, Repr

/-- A request (R282). -/
structure SluReq where
  ctx   : Nat
  step  : Bool
  frzSet : Bool
  frz   : Bool
  count : Nat
  tick  : Nat
  inPtr : Nat
  outPtr : Nat
  /-- a reserved bit was set. -/
  rsvd  : Bool
deriving DecidableEq, Repr

/-- A lane (R273, R284, R297). -/
structure SluLane where
  run    : Bool
  /-- the standard profiles and their words have been loaded (R290). -/
  std    : Bool
  coefs  : Tab Word
  profs  : Tab (Option Profile)
  faulted : List Nat
  ctxs   : Tab (Option Ctx)
  queue  : List SluReq
  /-- writes to the request port not yet acknowledged (R284). -/
  held   : List SluReq
  /-- the head request waits for a standard word to be rewritten (R302). -/
  rewrite : Bool
  sat    : Nat
  ue     : Nat
  slip   : Nat
  late   : Nat
  bad    : Nat
deriving DecidableEq, Repr

/-- The Sluice with its device-wide sync registers (R295, R296). -/
structure Sluice where
  lanes  : Tab SluLane
  pinEn  : Bool
  tick   : Nat
  pending : Bool
  ign    : Nat
  tickHi : Option Word
deriving DecidableEq, Repr

def XPoint.reset : XPoint :=
  { bus := 0, src := 0, gain := 0, target := 0, rampMs := 0, g0 := 0, done := 0, total := 0, pend := none,
    entry := none, deleting := false, faulted := false }
def Bus.reset : Bus :=
  { st := .free, share := false, parent := 0, minus := none, minusNext := none, xps := [], clip := 0,
    faulted := false }
def Slice.reset : Slice := { ovrSeen := false, overrun := 0, late := 0, ue := 0 }
def Junction.reset : Junction := { xps := [], buses := [], slices := [], block := none }
def StageSt.reset : StageSt := { hist := [], dc := 0, phase := 0, frac := 0 }
def SluLane.reset : SluLane :=
  { run := false, std := false, coefs := [], profs := [], faulted := [], ctxs := [], queue := [], held := [], rewrite := false,
    sat := 0, ue := 0, slip := 0, late := 0, bad := 0 }
def Sluice.reset : Sluice :=
  { lanes := [], pinEn := false, tick := 0, pending := false, ign := 0, tickHi := none }

end Sys2Proof.Machine
end

