-- ==== Sys2Proof/Machine/StHost.lean ====
section
/-! DEFINITION. State of the device as a whole and of the host interface: device state, straps, PCIe, MSI-X,
berths, doorbells, the completion ring, unsolicited records and the negotiation object (chapters 00, 15, 16). -/

namespace Sys2Proof.Machine

/-- The orderable parts of R1. -/
inductive Variant where
  | mx | nx | me
deriving DecidableEq, Repr

/-- DEV_STATE.STATE, in the order of its encoding (R471). -/
inductive DevState where
  | boot | selftest | ready | service | recovery | halted
deriving DecidableEq, Repr

/-- The DEV block and the straps (R6, R453, R483). -/
structure Dev where
  variant   : Variant
  devState  : DevState
  rcvDone   : Bool
  nxUp      : Bool
  heartbeat : Word
  unmapped  : Nat
  scratch   : Word
  compatQ48 : Bool
  tandemEn  : Bool
  bootSrc   : Nat
  /-- RESET_N is held low: nothing of the main die runs. -/
  inReset   : Bool
  /-- the Icehouse still runs; clear after ICE_LOCKSTEP (R517). -/
  iceRuns   : Bool
  /-- self-test has ended since the last reset, so DEV_UNITS.FLOES_LIVE counts (R490). -/
  tested    : Bool
  /-- ports cleared from DEV_UNITS.QUAY (R490). -/
  quayFenced : List Nat
  /-- the unit alarm whose end RECOVERY waits for; none outside RECOVERY (R519). -/
  recovering : Option Nat
  /-- the value the last register read returned on the bus (the model's own output latch). -/
  rdata     : BitVec 64
deriving DecidableEq, Repr

/-- PCIe link and function 0 (R448-R452, R485, R494). -/
structure Pcie where
  linkUp     : Bool
  gen        : Nat
  width      : Nat
  busMaster  : Bool
deriving DecidableEq, Repr

/-- The MSI-X table, pending bits and messages (R455). -/
structure Msix where
  /-- vectors whose mask bit is clear. -/
  unmasked : List Nat
  pendBits : List Nat
  /-- address and data words of the table entries, 3 words an entry at 4v, 4v+1, 4v+2. -/
  table    : Tab Word
  /-- messages sent, by vector. -/
  sent     : Tab Nat
  /-- messages held while host writes are held (R452), merged by vector. -/
  heldMsgs : List Nat
deriving DecidableEq, Repr

/-- A completion entry's fields (R465). -/
structure Cpl where
  berth     : Nat
  tag       : BitVec 16
  status    : Nat
  opcode    : Nat
  objState  : Nat
  devState  : DevState
  object    : Word
  detailObj : Word
  detail    : Word
  replyLen  : Nat
  /-- the reply sent by DMA: bus address and bytes (R461 step 2). -/
  dma       : Option (Nat × List Byte)
deriving DecidableEq, Repr

/-- A unit event (R466). -/
structure UnitEv where
  time   : Nat
  code   : Nat
  object : Word
  arg    : DWord
  /-- continuation slot records of TANDEM_TAKEOVER: slot and rollover counter. -/
  more   : List (Nat × Nat)
deriving DecidableEq, Repr

/-- A channel event record (R109). -/
structure ChanEv where
  chan : Nat
  code : Nat
  tx   : Bool
  concealed : Bool
  gap  : Bool
  lost : Nat
  arg  : BitVec 16
  time : Nat
  /-- selected time in ns when the record was made (R466). -/
  made : Nat
deriving DecidableEq, Repr

/-- Who accesses a register: host software through BAR0, or the Icehouse or another agent on the Canal (R11, R454). -/
inductive Agent where
  | host | canal
deriving DecidableEq, Repr

/-- What a code check finds in one stored word: clean, one bit corrected (bit 0 to 71 of the 72), or uncorrectable
(R62-R65). -/
inductive Ecc where
  | ok | corrected (bit : Nat) | bad
deriving DecidableEq, Repr

/-- A unit by number, and what the code checks find in the memory words it reads now, by word number of the Canal (R43). -/
structure UnitRead where
  no   : Nat
  errs : List (Nat × Ecc)
deriving DecidableEq, Repr

/-- The answer a Canal transfer meets: what a register the spec does not describe gives, the code checks of the memory words read,
and of the local word that a short transfer merges into (R43, R139; log 105). -/
structure XferAns where
  resp  : Option Nat
  errs  : List (Nat × Ecc)
  merge : Ecc
deriving DecidableEq, Repr

/-- What a command row carries beside its parameters: whether LEN suits the opcode and the payload's reserved fields are
zero (R481: 0x0102, 0x0106; the payload layouts are not in the source), and the failed host access, if one: bytes moved
before an input read or an output write failed (R481, 0x0510). -/
structure Fmt where
  lenOk   : Bool
  rsvdOk  : Bool
  inFail  : Option Nat
  outFail : Option Nat
deriving DecidableEq, Repr

/-- Registers written without a row of their own (R11): those R454 lets the host write, those only the Icehouse writes,
and any other, of which no field can be written. -/
inductive RegName where
  | scratch
  | cplBase (hi : Bool)
  | ringBase (q : Nat) (hi : Bool)
  | msix (v k : Nat)
  | lkpCeil
  | lkpWeight (g : Nat)
  | sluCoef (l n : Nat)
  | sluSync
  | quayCtrl (p : Nat)
  | quayMaxFrame (p : Nat)
  | quayCorr (p : Nat) (tx : Bool)
  | quayFilter (p : Nat)
  | quayTxcfg (p : Nat)
  | quayDefring (p : Nat)
  | quayUc (p u : Nat) (hi : Bool)
  | quayHash (p w : Nat)
  | tbCtrl
  | tbPps
  | tsqCfg (p : Nat)
  | rimeCtrl
  | readOnly
deriving DecidableEq, Repr

/-- A berth header with its DMA descriptor, as read at the execution instant (R456, R457). -/
structure NxHdr where
  opcode  : Nat
  tag     : BitVec 16
  len     : Nat
  object  : Word
  flags   : Byte
  rsvd    : Byte
  inAddr  : Nat
  inLen   : Nat
  outAddr : Nat
  outLen  : Nat
deriving DecidableEq, Repr

/-- What a long command has still to do (R460). -/
inductive LongWork where
  | selftest
  /-- at: where the module goes once its checks have passed again, and how many Floes hold it (R150). -/
  | modLoad (image : List Byte) (at_ : Option (Nat × Nat × Nat × Nat))
  | sluLoad (profs : List (Nat × Option Profile)) (coefs : List (Nat × BitVec 32))
  | ringRead (ring count addr : Nat)
  | rimeXts (slot : Nat) (dec : Bool) (sector : Nat)
  | logRead (kind first count : Nat)
  | fwUpdate (slot secVer : Nat)
  | nivoTap (gen : Nat)
deriving DecidableEq, Repr

/-- A long command in progress (R460, R473, R474 check 5). -/
structure LongCmd where
  berth  : Nat
  hdr    : NxHdr
  work   : LongWork
  /-- bytes or units done so far, reported by R473. -/
  done   : Nat
deriving DecidableEq, Repr

/-- Berths, doorbells and the completion ring (R456-R468). -/
structure Norux where
  /-- bytes of the berth area, by offset from 0x0001_0000. -/
  berthMem   : List (Nat × Byte)
  /-- rung berths in doorbell order, waiting for execution (R459). -/
  rung       : List Nat
  busy       : List Nat
  long       : List LongCmd
  /-- rewinds whose reply awaits their resolution: ring, berth, header (R240). -/
  later      : List (Nat × Nat × NxHdr)
  dbBusy     : Nat
  berthDrop  : Nat
  cplBase    : BitVec 64
  cplEn      : Bool
  cplVector  : Nat
  cplModUs   : Nat
  cplLog2    : Nat
  cplTail    : Nat
  cplHead    : Nat
  cplPhase   : Bool
  cplReason  : Nat
  /-- completions waiting to be delivered: no free entry, or host writes held. -/
  waiting    : List Cpl
  unitQ      : List UnitEv
  chanQ      : List ChanEv
  seqChan    : Nat
  seqUnit    : Nat
  seqAlarm   : Nat
  seqLog     : Nat
deriving DecidableEq, Repr

/-- The source of a moderated interrupt (R455). -/
inductive ModSrc where
  | cpl
  | dmaRing (q : Nat)
deriving DecidableEq, Repr

/-- Sources whose MOD_US interval runs, and those with a raise held back (R461, R334). -/
structure Moderation where
  running : List ModSrc
  held    : List ModSrc
deriving DecidableEq, Repr

/-- STATE of a negotiation entry (R491). -/
inductive NegState where
  | disabled | pending | full | degraded | failed
deriving DecidableEq, Repr

/-- One of the 26 negotiation entries (R491). -/
structure NegEntry where
  st       : NegState
  attempts : Nat
  result   : Nat
  mode     : Nat
deriving DecidableEq, Repr

/-- The negotiation status object (R491): entries 0 boot, 1 PCIe, 2-5 Quay, 6-13 LPDDR5X, 14 regulator,
15-16 PTP, 17 Tandem, 18-25 local ports. -/
structure Neg where
  gen     : Nat
  entries : Tab NegEntry
deriving DecidableEq, Repr

def Dev.reset : Dev :=
  { variant := .mx, devState := .boot, rcvDone := false, nxUp := false, heartbeat := 0, unmapped := 0,
    scratch := 0, compatQ48 := false, tandemEn := false, bootSrc := 0, inReset := true, iceRuns := true,
    tested := false, quayFenced := [], recovering := none, rdata := 0 }

def Pcie.reset : Pcie := { linkUp := false, gen := 0, width := 0, busMaster := false }

def Msix.reset : Msix := { unmasked := [], pendBits := [], table := [], sent := [], heldMsgs := [] }

def Norux.reset : Norux :=
  { berthMem := [], rung := [], busy := [], long := [], later := [], dbBusy := 0, berthDrop := 0, cplBase := 0,
    cplEn := false, cplVector := 0, cplModUs := 0, cplLog2 := 7, cplTail := 0, cplHead := 0,
    cplPhase := false, cplReason := 0, waiting := [], unitQ := [], chanQ := [], seqChan := 0, seqUnit := 0,
    seqAlarm := 0, seqLog := 0 }

def Moderation.reset : Moderation := { running := [], held := [] }

def NegEntry.reset : NegEntry := { st := .disabled, attempts := 0, result := 0, mode := 0 }

def Neg.reset : Neg := { gen := 0, entries := [] }

end Sys2Proof.Machine
end

