-- ==== Sys2Proof/Machine/StIce.lean ====
section
/-! DEFINITION. State of the Icehouse: alarms, logs and traces with their exits, flash and hold-up, firmware slots,
sensors, the background activities, Strata probes and the local TDM/I2S ports (chapters 16, 17). -/

namespace Sys2Proof.Machine

/-- A pending alarm record of one exit (R534, R535). -/
structure AlarmRec where
  code    : Nat
  /-- occurrences not yet sent. -/
  count   : Nat
  object  : Word
  arg     : DWord
  first   : Nat
  last    : Nat
  site    : DWord
  lastObj : Word
  /-- the record is to be sent as soon as the exit can take it. -/
  due     : Bool
deriving DecidableEq, Repr

/-- A log record (R536). -/
structure LogRec where
  code   : Nat
  sev    : Nat
  object : Word
  time   : Nat
  data   : List Byte
deriving DecidableEq, Repr

/-- Where an exit's records go once taken: the host ring writes entries, the other two keep what they took (R532). -/
inductive ExitId where
  | ring | syslog | flash
deriving DecidableEq, Repr

/-- An exit with its lanes (R532, R534, R538). -/
structure LaneExit where
  en      : Bool
  minSev  : Nat
  pend    : List AlarmRec
  logs    : List LogRec
  /-- log records skipped in the present second (R538): number, times of the first and last. -/
  skipped : Nat
  skFirst : Nat
  skLast  : Nat
  /-- records the exit has taken. -/
  taken   : Nat
deriving DecidableEq, Repr

/-- A trace record (R539): sequence, source, argument and the number dropped before it (GAP when above 0). -/
structure TraceRec where
  seq  : Nat
  src  : Nat
  arg  : DWord
  gap  : Nat
  time : Nat
deriving DecidableEq, Repr

/-- Exits, log bucket and traces (R532-R539). -/
structure Lanes where
  ring     : LaneExit
  syslog   : LaneExit
  flash    : LaneExit
  tokens   : Nat
  supp     : Nat
  suppFirst : Nat
  suppLast : Nat
  stage    : List TraceRec
  traceRing : List TraceRec
  traceSeq : Nat
  traceLost : Nat
  traceGap : Nat
deriving DecidableEq, Repr

/-- MGMT_ADDR (R549): an IPv6 or, in its low 32 bits, an IPv4 address, its network length and the gateway. -/
structure MgmtAddr where
  v6      : Bool
  addr    : BitVec 128
  prefix_ : Nat
  gateway : BitVec 128
deriving DecidableEq, Repr

/-- NX_ICE_LOG_SET parameters (R549) beside the exits' own. -/
structure LogParams where
  ringEn   : Bool
  syslogEn : Bool
  tlmEn    : Bool
  flashEn  : Bool
  /-- MIN_SEV of ring, syslog and flash. -/
  sevRing  : Nat
  sevSyslog : Nat
  sevFlash : Nat
  mgmtAddr : Option MgmtAddr
  syslogDest : Option (BitVec 128 × Nat)
  tlmDest  : Option (BitVec 128 × Nat)
  /-- in milliseconds. -/
  drift    : Nat
  traceMask : Nat
  traceFlash : Bool
  /-- in seconds. -/
  flush    : Nat
deriving DecidableEq, Repr

/-- Hold-up parameters (R544): C in µF, VMIN in 0.1 mV, HDIV and MARGIN in thousandths, P_HOLD in mW, times in µs. -/
structure HoldParams where
  c      : Nat
  vmin   : Nat
  hdiv   : Nat
  margin : Nat
  pHold  : Nat
  tPage  : Nat
  tErase4 : Nat
  tErase64 : Nat
deriving DecidableEq, Repr

/-- One of the four integrator keys (R548). -/
structure IntKey where
  lo      : Nat
  hi      : Nat
  types   : Nat
  revoked : Bool
deriving DecidableEq, Repr

/-- The boot record and what else the configuration partition and the OTP keep (R488, R498, R525, R548, R549, R618). -/
structure Stored where
  active   : Nat
  tries    : Nat
  /-- slots marked VERIFIED and not yet activated. -/
  verified : List Nat
  /-- security version of the image in slots A and B. -/
  secVer   : List Nat
  otpFloor : Nat
  ddrFence : List Nat
  vAbl     : Nat
  hold     : HoldParams
  log      : LogParams
  keys     : List IntKey
  /-- roots 0 to 3 programmed, with their 32 bytes (R413). -/
  roots    : List (Nat × List Byte)
  subsys   : Word
  /-- the activated firmware has not yet entered READY (R547). -/
  fresh    : Bool
  /-- the worst-corner handshake period of each island in ps, as the main die's OTP records it (R30). -/
  worst    : Tab Nat
deriving DecidableEq, Repr

/-- What a flash operation writes; done when the last operation of a write completes. -/
inductive FlashJob where
  /-- the first n records of a region's batch go to a sector: compressed, and encrypted through a slot (R541, R542). -/
  | sector (region sector n : Nat) (comp : Bool) (enc : Option Nat)
  | boot (active tries : Nat)
  | config (p : LogParams)
  | hold (h : HoldParams)
  | fence (l : List Nat)
  | vAbl (v : Nat)
  | fw (slot : Nat)
  /-- the first block of a slot is erased after a failed update (R546). -/
  | fwVoid (slot : Nat)
deriving DecidableEq, Repr

/-- One page program, 4 KiB erase or 64 KiB erase (R544). -/
inductive FlashKind where
  | page | erase4 | erase64
deriving DecidableEq, Repr

/-- Flash operations of one kind: the write they belong to, how many are left, whether the last of them ends the write,
and whether the next is a retry. -/
structure FlashOp where
  kind  : FlashKind
  job   : FlashJob
  left  : Nat
  final : Bool
  retry : Bool
deriving DecidableEq, Repr

/-- Records waiting in a flash region's batch: 0 alarms, 1 logs, 2 traces (R540-R542). -/
structure Batch where
  recs  : List (List Byte)
  /-- sequence of the first record waiting, and generation of the next sector. -/
  seq   : Nat
  gen   : Nat
deriving DecidableEq, Repr

/-- A sector of the log partition with a valid header (R541): what a reader gets from it, and the slot it is encrypted
through. -/
structure Sector where
  region : Nat
  gen   : Nat
  first : Nat
  recs  : List (List Byte)
  comp  : Bool
  enc   : Option Nat
deriving DecidableEq, Repr

/-- The Icehouse SPI NOR (R527, R540-R545). -/
structure Flash where
  /-- the head is in progress while busy. -/
  queue    : List FlashOp
  busy     : Bool
  /-- PWRFAIL_N is low, or not yet high for 100 ms. -/
  pwrLow   : Bool
  batches  : Tab Batch
  /-- sectors of the log partition by number: their contents, erase counts, and retired sectors with their spares. -/
  sectors  : Tab (Option Sector)
  erases   : Tab Nat
  retired  : List (Nat × Nat)
  spare    : Nat
  fails    : Nat
  wear     : Bool
  /-- image bytes written, and security version, of an update in progress (R546). -/
  fwDone   : Nat
deriving DecidableEq, Repr

/-- Sensors, the regulator and the background activities (R515, R516, R493, R522-R528). -/
structure Sense where
  /-- T0-T23 in 0.01 °C, V0-V15 in 0.1 mV, delay monitors in ps. -/
  temps    : Tab Int
  volts    : Tab Nat
  periods  : Tab Nat
  /-- elapsed time since which an island has measured more than 3 % slower than its recorded period (R30). -/
  slowSince : Tab (Option Nat)
  holdup   : Nat
  /-- sensors that raised TEMP_HIGH and have not yet fallen below 97 °C. -/
  hot      : List Nat
  /-- voltage monitors outside their limits that raised VOLT_RANGE. -/
  out      : List Nat
  vrMode   : Nat
  /-- STEP in units of 0.1 mV; V_BASE and V_ABL in 0.1 mV. -/
  step     : Nat
  vBase    : Nat
  vAbl     : Nat
  /-- selected time of the last rise of V_ABL; the island a step that still waits was asked for (R526). -/
  ablAt    : Option Nat
  ablWant  : Option Nat
  ablLimit : Bool
  /-- PLG_CE and PLG_UE by memory number. -/
  plgCe    : Tab Nat
  plgUe    : Tab Nat
  /-- consecutive retraining failures by LPDDR5X channel. -/
  sndFail  : Tab Nat
  sndTemp  : Tab Int
  /-- elapsed times of the uncorrectable words of each channel found within the last second. -/
  ddrUe    : Tab (List Nat)
  sndCal   : Nat
deriving DecidableEq, Repr

/-- A Drift snapshot (R528). -/
structure Snapshot where
  seq    : Nat
  time   : Nat
  temps  : List Int
  volts  : List Nat
  vAbl   : Nat
  quay   : List Nat
  lkp    : List Nat
  probes : List (Nat × Int × Int × Nat)
  neg    : List Byte
deriving DecidableEq, Repr

/-- A Strata probe (R529-R531). -/
structure Probe where
  en     : Bool
  log    : Bool
  qty    : Nat
  obj    : Nat
  origin : Int
  width  : Nat
  period : Nat
  min    : Int
  max    : Int
  cnt    : Nat
  cntHi  : Option Word
  skip   : Nat
  bins   : Tab Nat
deriving DecidableEq, Repr

/-- A local TDM/I2S port (R505-R507, R61). -/
structure Lport where
  en     : Bool
  master : Bool
  format : Nat
  delay  : Nat
  slots  : Nat
  width  : Nat
  rate   : Nat
  /-- detected framing, slots and rate; none before detection. -/
  found  : Option (Nat × Nat × Nat)
  /-- consecutive agreeing frames and the measure they agree on: bit clocks, sync width, rate in mHz. -/
  agree  : Nat
  meas   : Option (Nat × Nat × Nat)
  rx     : Nat
  tx     : Nat
  ovr    : Nat
  restarts : Nat
  /-- number of the next frame; frames in the receive flume: number and slots; words read of the foremost (poison beside
  each); frames read of the present position: number and slot words. -/
  num    : Nat
  inflight : List (Nat × Nat)
  asm    : List (BitVec 64 × Bool)
  pos    : List (Nat × List (Word × Bool))
  /-- samples to send: slot, sample number at the port's rate since the epoch, sample (R254); the words of the frame last sent. -/
  out    : List (Nat × Nat × Word)
  sent   : List Word
deriving DecidableEq, Repr

/-- The Icehouse as a whole. -/
structure Ice where
  lanes  : Lanes
  params : LogParams
  archive : Option Nat
  hold   : HoldParams
  stored : Stored
  flash  : Flash
  sense  : Sense
  snaps  : List Snapshot
  snapSeq : Nat
  /-- telemetry packets sent, and the packets of the last snapshot (R528). -/
  tlmSent : Nat
  tlm    : List (List Byte)
  probes : Tab Probe
  lports : Tab Lport
  /-- the slot the running firmware came from. -/
  slot   : Nat
  /-- management Ethernet frames dropped at the RGMII receiver, as the Icehouse counts them (R61). -/
  rgmiiDrop : Nat
deriving DecidableEq, Repr

/-- A memory Plough reads (R521): LPDDR5X, Névé, a Floe's instruction or data memory, a Sluice lane's coefficients or
contexts, Junction crosspoints or bus tables, a Lockkeeper bank's macro mac of R172 (word q of the entry), the flow table, Rime
hot memory, replay ring contexts. -/
inductive PlMem where
  | ddr | neve | imem (f : Nat) | dmem (f : Nat) | coef (l : Nat) | ctx (l : Nat) | xp | bus | lkp (k mac q : Nat) | flow | rime
  | ring
deriving DecidableEq, Repr

/-- One parameter of NX_ICE_LOG_SET (R549). -/
inductive LogSet where
  | ringEn (b : Bool) | syslogEn (b : Bool) | tlmEn (b : Bool) | flashEn (b : Bool)
  | sevRing (n : Nat) | sevSyslog (n : Nat) | sevFlash (n : Nat) | mgmtAddr (a : Option MgmtAddr)
  | syslogDest (d : Option (BitVec 128 × Option Nat)) | tlmDest (d : Option (BitVec 128 × Option Nat)) | drift (ms : Nat)
  | traceMask (n : Nat) | traceFlash (b : Bool) | flush (sec : Nat) | archive (k : Option Nat)
deriving DecidableEq, Repr

/-- A probe's setting (R531). -/
structure ProbeSet where
  qty    : Nat
  obj    : Nat
  log    : Bool
  origin : Int
  width  : Nat
  period : Nat
deriving DecidableEq, Repr

/-- One parameter of NX_LPORT_SET (R505): CLOCKING true for MASTER; FORMAT 0 AUTO, 1 I2S, 2 LJ, 3 PULSE; SLOTS, WIDTH and RATE
0 AUTO, RATE in kHz. -/
inductive LpSet where
  | en (b : Bool) | master (b : Bool) | format (n : Nat) | delay (n : Nat) | slots (n : Nat) | width (n : Nat) | rate (n : Nat)
deriving DecidableEq, Repr

/-- What NX_KEY_ENROLL's certificate says (R548): a key for a MOD_ID range and image types, or the revocation of key k. -/
inductive KeyCert where
  | enroll (lo hi types : Nat)
  | revoke (k : Nat)
deriving DecidableEq, Repr

/-- What the voltage regulator answers on the PMBus (R493): nothing, a linear or VID VOUT_MODE, or another. -/
inductive VrKind where
  | silent | linear | vid | other
deriving DecidableEq, Repr

/-- What a start-up meets outside the model (R486-R496): HOLDUP_SENSE in 0.1 mV; whether the images in slots A and B
verify; the regulator with its resolution, the monitor reading of VDD_CORE and the OTP's V_BASE in 0.1 mV; for each
LPDDR5X channel log2 of its density in GiB and the first bin it trains at (3: none); the modules of the booted image. -/
structure BootIn where
  holdup : Nat
  okA    : Bool
  okB    : Bool
  vr     : VrKind
  vrRes  : Nat
  core   : Nat
  vBase  : Nat
  ddr    : List (Nat × Nat)
  mods   : List (List Byte)
deriving DecidableEq, Repr

def LaneExit.reset : LaneExit :=
  { en := false, minSev := 6, pend := [], logs := [], skipped := 0, skFirst := 0, skLast := 0, taken := 0 }
/-- The log bucket starts full (R537: it holds 20,000 tokens; DESIGN CHOICE, log 12). -/
def Lanes.reset : Lanes :=
  { ring := { LaneExit.reset with en := true }, syslog := LaneExit.reset,
    flash := { LaneExit.reset with en := true }, tokens := 20000, supp := 0, suppFirst := 0, suppLast := 0,
    stage := [], traceRing := [], traceSeq := 0, traceLost := 0, traceGap := 0 }
/-- The defaults of R549. -/
def LogParams.reset : LogParams :=
  { ringEn := true, syslogEn := false, tlmEn := false, flashEn := true, sevRing := 6, sevSyslog := 6,
    sevFlash := 6, mgmtAddr := none, syslogDest := none, tlmDest := none, drift := 1000, traceMask := 0,
    traceFlash := false, flush := 10 }
/-- The defaults of R544. -/
def HoldParams.reset : HoldParams :=
  { c := 470000, vmin := 30000, hdiv := 5000, margin := 2000, pHold := 500, tPage := 3000, tErase4 := 400000,
    tErase64 := 2000000 }
def Stored.reset : Stored :=
  { active := 0, tries := 0, verified := [], secVer := [0, 0], otpFloor := 0, ddrFence := [], vAbl := 0,
    hold := HoldParams.reset, log := LogParams.reset, keys := [], roots := [], subsys := 0x00001E6D,
    fresh := false, worst := [] }
def Batch.reset : Batch := { recs := [], seq := 0, gen := 0 }
def Flash.reset : Flash :=
  { queue := [], busy := false, pwrLow := false, batches := [], sectors := [], erases := [], retired := [],
    spare := 0, fails := 0, wear := false, fwDone := 0 }
def Sense.reset : Sense :=
  { temps := [], volts := [], periods := [], slowSince := [], holdup := 0, hot := [], out := [], vrMode := 0, step := 0,
    vBase := 0, vAbl := 0,
    ablAt := none, ablWant := none, ablLimit := false, plgCe := [], plgUe := [], sndFail := [], sndTemp := [],
    ddrUe := [], sndCal := 0 }
/-- R531: STR_MIN and STR_MAX reset to the greatest and least signed words. -/
def Probe.reset : Probe :=
  { en := false, log := false, qty := 0, obj := 0, origin := 0, width := 0, period := 0, min := 0x7FFFFFFF,
    max := -0x80000000, cnt := 0, cntHi := none, skip := 0, bins := [] }
/-- The defaults of R505; FORMAT 0 AUTO, 1 I2S, 2 LJ, 3 PULSE; SLOTS, WIDTH and RATE 0 AUTO. -/
def Lport.reset : Lport :=
  { en := false, master := false, format := 0, delay := 1, slots := 0, width := 0, rate := 0, found := none,
    agree := 0, meas := none, rx := 0, tx := 0, ovr := 0, restarts := 0, num := 0, inflight := [], asm := [], pos := [], out := [], sent := [] }
def Ice.reset : Ice :=
  { lanes := Lanes.reset, params := LogParams.reset, archive := none, hold := HoldParams.reset,
    stored := Stored.reset, flash := Flash.reset, sense := Sense.reset, snaps := [], snapSeq := 0, tlmSent := 0, tlm := [],
    probes := [], lports := [], slot := 0, rgmiiDrop := 0 }

end Sys2Proof.Machine
end

