-- ==== Sys2Proof/Machine/StLkp.lean ====
section
/-! DEFINITION. State of the Lockkeeper: banks, pounds, group queues, chambers, the Towpath and host
injection (chapter 06). -/

namespace Sys2Proof.Machine

/-- Who produced a work item (R197, R198): a Floe, the host, or another unit by its timing domain. -/
inductive Producer where
  | floe (f : Nat)
  | inject
  | unit (dom : Nat)
deriving DecidableEq, Repr

/-- An item as the Lockkeeper holds it: the descriptor and its producer. -/
structure Held where
  it   : Item
  from_ : Producer
deriving DecidableEq, Repr

/-- An item in a Towpath delay list: due boundary, insertion stamp, and the selected time at which its boundary fell (R190, R191,
R194). -/
structure Delayed where
  due   : Nat
  stamp : Nat
  h     : Held
  fell  : Option Nat
deriving DecidableEq, Repr

/-- Where bank k takes a work item from: flume f of a Floe, its Canal flume 572 + 60 + k from the other units, reach r's
injection buffer (R68, R196, R199). -/
inductive AdmitSrc where
  | floe (f : Nat)
  | unit (k : Nat)
  | inject (r : Nat)
deriving DecidableEq, Repr

/-- What a bank records of the item it placed in a work slot: its chamber, its ATOMIC bit, and the bank that admitted it, which
keeps its chamber (R176, R181). -/
structure SlotRec where
  chamber : Nat
  atomic  : Bool
  bank    : Nat
deriving DecidableEq, Repr

/-- A GOV event record handed to the Icehouse; rtype: byte 0 as handed over, zero from a poisoned word (R175, R177). -/
structure GovRec where
  rtype   : Nat
  chamber : Nat
  floe    : Nat
  pc      : Nat
  mask    : BitVec 64
  merges  : Nat
deriving DecidableEq, Repr

/-- Structures of one reach (R170). -/
structure LkpReach where
  pounds  : Tab (List Held)
  groups  : Tab (List Held)
  poundPeak : Tab Nat
  groupPeak : Tab Nat
  /-- the reach's four delay lists, by list 0 to 3, in due order. -/
  tow     : Tab (List Delayed)
  stamp   : Nat
  inject  : List Item
  /-- the injection buffer's entry that holds the foremost item. -/
  injAt   : Nat
  injData : Tab Word
  injDrop : Nat
  hold    : Nat
  towLate : Nat
  badDesc : Nat
  poison  : Nat
  govMerged : Nat
  disp    : Nat
  gdisp   : Nat
  dispHi  : Option Word
  gdispHi : Option Word
deriving DecidableEq, Repr

/-- Structures of one bank (R170, R176, R177, R187). -/
structure LkpBank where
  /-- chambers held (R180). -/
  heldCh  : List Nat
  /-- items waiting in chamber queues, in arrival order (R179, R182). -/
  chq     : List Held
  /-- per Floe, the items in its work slots, oldest first (R176). -/
  slots   : Tab (List SlotRec)
  /-- round pointer and deficits (R187). -/
  rr      : Nat
  deficit : Tab Nat
  /-- the last 100 dispatches, newest first: true = group (R185). -/
  window  : List Bool
  govQ    : List GovRec
  govPend : List (Nat × GovRec)
deriving DecidableEq, Repr

/-- The device-wide settings and the Towpath's boundary count (R188, R189, R204). -/
structure Lkp where
  thread  : Bool
  ceil    : Nat
  tick    : Nat
  weights : Tab Nat
  /-- number of the latest Towpath boundary reached. -/
  boundary : Nat
  /-- sources whose foremost item is held under R196. -/
  holding : List AdmitSrc
  reaches : Tab LkpReach
  banks   : Tab LkpBank
deriving DecidableEq, Repr

def LkpReach.reset : LkpReach :=
  { pounds := [], groups := [], poundPeak := [], groupPeak := [], tow := [], stamp := 0, inject := [],
    injAt := 0, injData := [], injDrop := 0, hold := 0, towLate := 0, badDesc := 0, poison := 0, govMerged := 0, disp := 0,
    gdisp := 0, dispHi := none, gdispHi := none }
def LkpBank.reset : LkpBank :=
  { heldCh := [], chq := [], slots := [], rr := 0, deficit := [], window := [], govQ := [], govPend := [] }
def Lkp.reset : Lkp :=
  { thread := true, ceil := 50, tick := 4, weights := [], boundary := 0, holding := [], reaches := [], banks := [] }

end Sys2Proof.Machine
end

