-- ==== Sys2Proof/Machine/StMedia.lean ====
section
/-! DEFINITION. State of channels, Basins and replay rings (chapters 03, 07). Packet times are in 48 kHz ticks, depths
in 125 µs steps, times in 2^-16 ns. -/

namespace Sys2Proof.Machine

/-- A path end (R69). -/
inductive PathEnd where
  | none
  | stream (n : Nat)
  | tdm (port slot : Nat)
  | bus (b : Nat)
  | host (quay ring : Nat)
deriving DecidableEq, Repr

/-- Codecs in the order of R93. -/
inductive Codec where
  | g711u | g711a | g726 | g729 | g722 | opus | l16 | l24 | aes3
deriving DecidableEq, Repr

/-- Channel states in the order of R74 and R616. -/
inductive ChanSt where
  | free | defined | armed | running | draining | faulted
deriving DecidableEq, Repr

/-- NLP of the cancellers (R84, R89). -/
inductive Nlp where
  | off | suppress | comfort
deriving DecidableEq, Repr

/-- DRIFT (R215). -/
inductive Drift where
  | off | sluice | slip
deriving DecidableEq, Repr

/-- A tone definition: up to two frequencies in Hz, tolerance in 0.1 %, duration in ms (R101). -/
structure ToneDef where
  f1  : Nat
  f2  : Nat
  tol : Nat
  dur : Nat
deriving DecidableEq, Repr

/-- A call-progress tone: up to two frequencies in Hz, tolerance in 0.1 %, and on and off intervals in ms (R102). -/
structure PlanTone where
  f1  : Nat
  f2  : Nat
  tol : Nat
  cadence : List (Nat × Nat)
deriving DecidableEq, Repr

/-- The CORE block's structural parameters with the codec's options (R83, R93). RATE in kHz. -/
structure CorePar where
  programme : Bool
  prio   : Nat
  group  : Nat
  codec  : Codec
  /-- kbit/s of G.726. -/
  g726   : Nat
  complexity : Nat
  opus20 : Bool
  dtx    : Bool
  rate   : Nat
  ptime  : Nat
  pt     : Nat
  rxSrc  : PathEnd
  rxSink : PathEnd
  txSrc  : PathEnd
  txSink : PathEnd
  keyRx  : Option Nat
  keyTx  : Option Nat
  keyRxB : Option Nat
  keyTxB : Option Nat
deriving DecidableEq, Repr

/-- The structural parameters of the EC, AEC, VAD, TONE and BSN blocks (R84, R89, R98, R100, R215). -/
structure BlkPar where
  ecOn   : Bool
  tail   : Nat
  aecOn  : Bool
  vadOn  : Bool
  /-- DIR: 0 NONE, 1 RX, 2 TX, 3 BOTH. -/
  toneDir : Nat
  adaptive : Bool
  epoch  : Bool
  depth  : Nat
  depthMin : Nat
  depthMax : Nat
  rxPtime : Nat
  w      : Nat
  drift  : Drift
deriving DecidableEq, Repr

/-- The live parameters (R83, R84, R89, R93, R98, R100, R215). Gains in 0.1 dB, levels in dBm0, times in ms. -/
structure LivePar where
  rxGain : Int
  txGain : Int
  opusRate : Nat
  opusFec : Bool
  erlMin : Nat
  nlp    : Nlp
  freeze : Bool
  toneDis : Bool
  resSupp : Nat
  aecNlp : Nlp
  aecFreeze : Bool
  thresh : Int
  hangover : Nat
  sidInt : Nat
  dtmf   : Bool
  cpPlan : Option Nat
  lineup : Bool
  ans    : Bool
  users  : Tab ToneDef
  gpi    : Bool
  /-- ADAPT_Q in 0.1 %, ADAPT_WIN in s, GUARD in 125 µs steps, ADAPT_WAIT in 0.5 s. -/
  adaptQ : Nat
  adaptWin : Nat
  guard_ : Nat
  adaptWait : Nat
deriving DecidableEq, Repr

/-- One parameter setting carried by NX_CHAN_DEFINE or NX_CHAN_SET (R81, R83). -/
inductive ParSet where
  | programme (b : Bool) | prio (n : Nat) | group (n : Nat) | codec (c : Codec) | g726 (n : Nat)
  | complexity (n : Nat) | opus20 (b : Bool) | dtx (b : Bool) | rate (n : Nat) | ptime (n : Nat) | pt (n : Nat)
  | rxSrc (e : PathEnd) | rxSink (e : PathEnd) | txSrc (e : PathEnd) | txSink (e : PathEnd)
  | keyRx (k : Option Nat) | keyTx (k : Option Nat) | keyRxB (k : Option Nat) | keyTxB (k : Option Nat)
  | ecOn (b : Bool) | tail (n : Nat) | aecOn (b : Bool) | vadOn (b : Bool) | toneDir (n : Nat)
  | adaptive (b : Bool) | epoch (b : Bool) | depth (n : Nat) | depthMin (n : Nat) | depthMax (n : Nat)
  | rxPtime (n : Nat) | w (n : Nat) | drift (d : Drift)
  | rxGain (n : Int) | txGain (n : Int) | opusRate (n : Nat) | opusFec (b : Bool) | erlMin (n : Nat)
  | nlp (n : Nlp) | freeze (b : Bool) | toneDis (b : Bool) | resSupp (n : Nat) | aecNlp (n : Nlp)
  | aecFreeze (b : Bool) | thresh (n : Int) | hangover (n : Nat) | sidInt (n : Nat) | dtmf (b : Bool)
  | cpPlan (p : Option Nat) | lineup (b : Bool) | ans (b : Bool) | user (i : Nat) (t : Option ToneDef)
  | gpi (b : Bool) | adaptQ (n : Nat) | adaptWin (n : Nat) | guardTime (n : Nat) | adaptWait (n : Nat)
deriving DecidableEq, Repr

/-- A channel (R69-R81, R87, R111, R114). -/
structure Chan where
  st      : ChanSt
  core    : CorePar
  blk     : BlkPar
  live    : LivePar
  /-- live writes waiting for the next processing-frame boundary (R81). -/
  pendLive : List ParSet
  /-- a start executed and not yet at its boundary (R77). -/
  starting : Bool
  ecReset : Bool
  floe    : Option Nat
  cost    : Nat
  ecDisabled : Bool
  /-- EC_CONVERGED not yet posted since the last enable, start or reset (R88). -/
  ecArmed : Bool
  /-- length of the concealed run in progress in 48 kHz ticks, and whether PLC_LONG was posted for it (R108). -/
  plcRun  : Nat
  plcPosted : Bool

  /-- the processing frame's end at which transmit audio stops (R78). -/
  drainAt : Nat
  /-- counters of R111 by position in its table; smoothed values likewise. -/
  ctr     : Tab Nat
  smooth  : Tab Int
  /-- events not delivered since the last one queued (R110). -/
  evtLost : Nat
deriving DecidableEq, Repr

/-- A tone a detector follows: onset code and argument, path, 48 kHz tick of the first 5 ms step in which it was present, steps it has
lasted, and whether its onset has been reported (R101, R104). -/
structure Det where
  code  : Nat
  arg   : Nat
  tx    : Bool
  onset : Nat
  steps : Nat
  told  : Bool
deriving DecidableEq, Repr

/-- One measurement that a smoothed value is made of: value number as in R111, tick, measured value, weight (R88, R111). -/
structure Meas where
  k : Nat
  t : Nat
  v : Int
  n : Nat
deriving DecidableEq, Repr

/-- The audio state of a channel: what its standard functions keep between frames (R73-R108, R254). Samples are Q1.31. -/
structure Dsp where
  /-- the last 10 ms of receive audio before the gain, which concealment repeats (R105). -/
  rxPast : List Int
  /-- the far-end reference of the echo canceller, newest last (R73). -/
  farRef : List Int
  /-- the canceller's filter coefficients; none stands for all zero (R85). -/
  coefs  : List Int
  /-- the background the canceller has measured, level in 0.1 dB and then bands, and the tick of that; the level and bands of the noise
  inserted last (R92). -/
  bg     : Option (List Int × Nat)
  cn     : List Int
  /-- the non-linear processor replaced the last frame (R92). -/
  nlpOn  : Bool
  /-- the answer tone's disabling waits for the next frame; ticks both signals have stayed below −36 dBm0 (R87). -/
  offNext : Bool
  low    : Nat
  /-- the comfort-noise description last received (R99). -/
  sid    : List Byte
  /-- gains reached, in 0.1 dB (R83). -/
  rxGain : Int
  txGain : Int
  /-- speech is judged present; tick at which its level last stood above the threshold; tick of the last SID of this silence
  (R98, R99). -/
  speech : Bool
  spokeAt : Nat
  sidAt  : Option Nat
  dets   : List Det
  meas   : List Meas
  /-- samples captured from a TDM transmit source, by number of their TDM frame; the frame the next one taken is of. -/
  cap    : List (Nat × Int)
  capAt  : Option Nat
  /-- sample number at RATE since the epoch of the next receive sample to present (R254). -/
  rxNext : Nat
  /-- tick at which the next transmit frame begins; the frame end at which capture stops (R77, R78). -/
  txTick : Nat
  txEnd  : Option Nat
  /-- the packet being filled: its first tick, its payload, whether it holds speech (R96, R99). -/
  pkt    : Option (Nat × List Byte × Bool)
  /-- samples of an unfinished block of the source ring, by 48 kHz tick (R257). -/
  bus    : List (Nat × Int)
  /-- those of an unfinished block of the tap rings, and whether one of the receive path's was concealed (R562). -/
  tapRx  : List (Nat × Int)
  tapTx  : List (Nat × Int)
  tapConc : Bool
deriving DecidableEq, Repr

/-- State of a Basin slot (R216, R232, R233). -/
inductive SlotSt where
  | ready | provisional | failed
deriving DecidableEq, Repr

/-- A packet handed to a Basin (R216): its RTP header, and its payload with pad bytes of padding at the end; receive
time-stamp in ns, 0 if none; leg of a protected stream it came on; the
frame it lies in, by port and number, and whether the frame reads poisoned (R310). -/
structure Pkt where
  seq    : Nat
  ts     : Nat
  ssrc   : Word
  marker : Bool
  pt     : Nat
  rxTime : Nat
  legB   : Bool
  frame  : Option (Nat × Nat)
  poison : Bool
  head   : List Byte
  payload : List Byte
  pad    : Nat
deriving DecidableEq, Repr

/-- A Basin entry (R209, R234); its payload lies in the body. -/
structure Slot where
  st     : SlotSt
  seq    : Nat
  ts     : Nat
  ssrc   : Word
  marker : Bool
  sid    : Bool
  pt     : Nat
  rxTime : Nat
  len    : Nat
deriving DecidableEq, Repr

/-- A Basin (R208-R230). -/
structure Basin where
  slotsN : Nat
  slotZ  : Nat
  body   : Nat
  /-- bytes of the head, and its offset in the Basin heads partition (R208, R209). -/
  head   : Nat
  headAt : Nat
  on_     : Bool
  next   : Nat
  anchored : Bool
  /-- the next playout instant, in 48 kHz ticks times 2^16. -/
  instant : Nat
  depth  : Nat
  target : Nat
  margin : Int
  slots  : Tab Slot
  hist   : BitVec 64
  /-- timestamp expected at the next position. -/
  x      : Nat
  xKnown : Bool
  /-- the last position was handed over silent; the last packet handed over was comfort noise. -/
  silence : Bool
  lastSid : Bool
  early  : Nat
  disc   : Bool
  pos    : Nat
  /-- margins measured in the window: receive time and margin, newest first. -/
  margins : List (Nat × Int)
  lowSince : Option Nat
  upSince : Option Nat
  /-- positions still to be inserted, and whether the stretch is one of R230. -/
  stretch : Nat
  /-- part of a gradual change of depth made so far, in units of instant. -/
  adj    : Int
  silentFor : Nat
  /-- ε in 0.01 ppm; seconds it has stood at its limit; the last mean depth error. -/
  eps    : Int
  epsSecs : Nat
  epsErr : Int
  epsPosted : Bool
  /-- whole second of the last steering or slip. -/
  lastSec : Nat
  depthSum : Int
  depthN : Nat
  ctr    : Tab Nat
deriving DecidableEq, Repr

/-- Ring states (R616). -/
inductive RingSt where
  | free | defined | enabled | rewinding
deriving DecidableEq, Repr

/-- A replay ring (R235-R241). -/
structure Ring where
  st      : RingSt
  chan    : Nat
  span    : Nat
  mgr     : Nat
  nb      : Nat
  z       : Nat
  body    : Nat
  /-- blocks written since the ring was enabled; last written index + 1. -/
  written : Nat
  mark    : Option Nat
  markLost : Bool
  lostCnt : Nat
  readPos : Nat
  readSkip : Nat
  drop    : Nat
  dropping : Bool
  bodyUe  : Bool
  /-- its channel has been enabled on another reach since the ring's enable (R236). -/
  detached : Bool
  /-- a rewind in progress: target, last written + 1 at execution, mark dragged since. -/
  rew     : Option (Nat × Nat × Bool)
deriving DecidableEq, Repr

/-- An allocated region of the media pool: owner kind (0 Basin body, 1 ring body, 2 bus output ring,
3 channel source ring), number, base, size. -/
structure Alloc where
  kind : Nat
  num  : Nat
  base : Nat
  size : Nat
deriving DecidableEq, Repr

/-- Channels, Basins, rings and the device-wide tone tables (R102, R103, R212). -/
structure Media where
  /-- work items on their way to the Basin managers, oldest first: the manager, and the packet as each member channel of its reach
  takes it (R306, R321). -/
  arr    : List (Nat × List (Nat × Pkt))
  chans  : Tab Chan
  dsp    : Tab Dsp
  basins : Tab Basin
  rings  : Tab Ring
  pool   : Option (Nat × Nat)
  allocs : List Alloc
  plans  : Tab (Option (List PlanTone))
  gpiMap : Tab (Option (ToneDef × Nat))
deriving DecidableEq, Repr

/-- The defaults of R83; RATE and PT of the default codec; the codecs' options, for which R93 gives no default (log 193). -/
def CorePar.reset : CorePar :=
  { programme := false, prio := 8, group := 0, codec := .g711u, g726 := 32, complexity := 5, opus20 := true,
    dtx := false, rate := 8, ptime := 960, pt := 0, rxSrc := .none, rxSink := .none, txSrc := .none,
    txSink := .none, keyRx := none, keyTx := none, keyRxB := none, keyTxB := none }
/-- The defaults of R84, R89, R98, R100 and R215 for the default codec. -/
def BlkPar.reset : BlkPar :=
  { ecOn := true, tail := 64, aecOn := false, vadOn := false, toneDir := 0, adaptive := true, epoch := false,
    depth := 320, depthMin := 160, depthMax := 1600, rxPtime := 960, w := 16, drift := .off }
def LivePar.reset : LivePar :=
  { rxGain := 0, txGain := 0, opusRate := 64, opusFec := false, erlMin := 6, nlp := .comfort, freeze := false,
    toneDis := true, resSupp := 2, aecNlp := .comfort, aecFreeze := false, thresh := -45, hangover := 200,
    sidInt := 200, dtmf := true, cpPlan := none, lineup := false, ans := true, users := [], gpi := false,
    adaptQ := 995, adaptWin := 10, guard_ := 16, adaptWait := 4 }
def Chan.reset : Chan :=
  { st := .free, core := CorePar.reset, blk := BlkPar.reset, live := LivePar.reset, pendLive := [],
    starting := false, ecReset := false, floe := none, cost := 0, ecDisabled := false, ecArmed := false,
    plcRun := 0, plcPosted := false, drainAt := 0, ctr := [], smooth := [], evtLost := 0 }
def Dsp.reset : Dsp :=
  { rxPast := [], farRef := [], coefs := [], bg := none, cn := [], nlpOn := false, offNext := false, low := 0, sid := [], rxGain := 0,
    txGain := 0, speech := false, spokeAt := 0, sidAt := none, dets := [], meas := [], cap := [], capAt := none, rxNext := 0, txTick := 0,
    txEnd := none, pkt := none, bus := [], tapRx := [], tapTx := [], tapConc := false }
def Basin.reset : Basin :=
  { slotsN := 0, slotZ := 0, body := 0, head := 0, headAt := 0, on_ := false, next := 0, anchored := false, instant := 0,
    depth := 0, target := 0, margin := 0, slots := [], hist := 0, x := 0, xKnown := false, silence := false, lastSid := false, adj := 0,
    early := 0, disc := false, pos := 0, margins := [], lowSince := none, upSince := none, stretch := 0,
    silentFor := 0, eps := 0, epsSecs := 0, epsErr := 0, epsPosted := false, lastSec := 0, depthSum := 0, depthN := 0,
    ctr := [] }
def Ring.reset : Ring :=
  { st := .free, chan := 0, span := 0, mgr := 0, nb := 0, z := 0, body := 0, written := 0, mark := none, markLost := false, lostCnt := 0, readPos := 0, readSkip := 0, drop := 0, dropping := false,
    bodyUe := false, detached := false, rew := none }
def Media.reset : Media :=
  { arr := [], chans := [], dsp := [], basins := [], rings := [], pool := none, allocs := [], plans := [], gpiMap := [] }

end Sys2Proof.Machine
end

