-- ==== Sys2Proof/Machine/StNet.lean ====
section
/-! DEFINITION. State of the Quay ports, the flow table, streams, host rings, the Weir and Tandem (chapters 10, 11). -/

namespace Sys2Proof.Machine

/-- A received frame with its FCS, its corrected time-stamp and the stamp's domain (R305, R306, R388). -/
structure RxFrame where
  bytes  : List Byte
  stamp  : Nat
  dom    : Nat
deriving DecidableEq, Repr

/-- A frame in the receive store (R308, R310, R318): who has still to take it (0 to 3 the manager of a reach, 4 the DMA
engine, 5 the Weir unit, 6 the Timebase), and what classification found. -/
structure Stored_ where
  id     : Nat
  frame  : RxFrame
  cells  : Nat
  /-- numbers of its cells in the port's share of the receive store. -/
  cellAt : List Nat
  takers : List Nat
  tag    : Nat
  hit    : Bool
  ptp    : Bool
  poison : Bool
deriving DecidableEq, Repr

/-- What waits for a receive DMA engine: a stored frame, or a channel's packet for a CHANNEL-mode ring (R306, R339). -/
structure DmaReq where
  ring   : Nat
  frame  : Option Nat
  data   : List Byte
deriving DecidableEq, Repr

/-- A protected arrival waiting at a Weir unit (R346). -/
structure WeirIn where
  stream : Nat
  pkt    : Pkt
deriving DecidableEq, Repr

/-- A protected packet to be duplicated (R351): its stream and channel, RTP header and payload. -/
structure WeirOut where
  stream : Nat
  chan   : Nat
  rtp    : List Byte
  payload : List Byte
deriving DecidableEq, Repr

/-- A frame to be sent, without FCS (R323, R337); cells counts its place in the transmit store. -/
structure TxFrame where
  cls    : Nat
  bytes  : List Byte
  tsReq  : Bool
  oneStep : Bool
  tsId   : Nat
  csum   : Bool
  /-- the PTP instance whose Delay_Req this is. -/
  inst   : Option Nat
  cells  : Nat
  /-- already counted in TX_GATE_HOLD. -/
  heldOnce : Bool
  /-- the protected stream it belongs to. -/
  prot   : Option Nat
  /-- timing domain of the producer that waits while the frame is held; none for the DMA engine, which fetches no descriptor then. -/
  prod   : Option Nat
deriving DecidableEq, Repr

/-- A transmit descriptor as fetched, with the bytes of its buffer (R337). -/
structure TxDesc where
  own    : Bool
  len    : Nat
  tsId   : Nat
  flags  : Byte
  data   : List Byte
deriving DecidableEq, Repr

/-- How an attempt to bring up a link ended without one (R500). -/
inductive EthEnd where
  | timeout | noCommon | module_
deriving DecidableEq, Repr

/-- A gate list (R326): entries of GATES and INTERVAL in ns, CYCLE in ns, BASE in 2^-16 ns. -/
structure Gate where
  entries : List (BitVec 8 × Nat)
  cycle   : Nat
  base    : Nat
deriving DecidableEq, Repr

/-- Negotiation parameters of a port (R499): MEDIA 0 AUTO, 1 AN, 2 MODULE, 3 FORCED; SPEEDS as 1 10G .. 4 100G;
FEC_PREF 0 AUTO, 1 RS, 2 BASER, 3 NONE. -/
structure NegPar where
  media  : Nat
  speeds : List Nat
  fec    : Nat
deriving DecidableEq, Repr

/-- Settings and status of a port (R303-R305, R311, R324, R385, R386). -/
structure PortCfg where
  rxEn   : Bool
  txEn   : Bool
  gateEn : Bool
  link   : Bool
  speed  : Nat
  fec    : Nat
  maxFrame : Nat
  corrRx : BitVec 24
  corrTx : BitVec 24
  pauseRx : Bool
  promisc : Bool
  mcAll  : Bool
  bcast  : Bool
  ptpClass : Nat
  txRes  : Nat
  defRing : Nat
  /-- unicast entries by number: the address, and VALID as bit 48. -/
  uc     : Tab Nat
  /-- hash bins set. -/
  bins   : List Nat
  neg    : NegPar
  /-- speeds given up in this negotiation cycle. -/
  given  : List Nat
  /-- corrections set by NX_QUAY_SET, by mode 4·speed + FEC: receive and transmit. -/
  corrs  : Tab (Option (Nat × Nat))
  module_ : Bool
deriving DecidableEq, Repr

/-- Frames and timing of a port. -/
structure Port where
  cfg    : PortCfg
  /-- frames held in flume 384 + n. -/
  rxq    : List RxFrame
  store  : List Stored_
  nextId : Nat
  dma    : List DmaReq
  /-- frames handed to the Timebase through flume 392 + n, by number. -/
  ptpq   : List Nat
  /-- frames whose producer waits for room in the transmit store (R324). -/
  txHeld : List TxFrame
  /-- transmit store queues and lanes by class. -/
  txq    : Tab (List TxFrame)
  lanes  : Tab (List TxFrame)
  sending : Option TxFrame
  paused : Option Nat
  gate   : Option Gate
  gatePend : Option (Gate × Nat)
  entry  : Nat
  open_  : BitVec 8
  ctr    : Tab Nat
  ctrHi  : Tab (Option Word)
deriving DecidableEq, Repr

/-- A DMA ring (R332-R342). -/
structure DmaRing where
  base   : BitVec 64
  en     : Bool
  channel : Bool
  cls    : Nat
  vector : Nat
  modUs  : Nat
  bufsz  : Nat
  log2   : Nat
  tail   : Nat
  head   : Nat
  race   : Bool
  nobuf  : Bool
  reason : Nat
  frames : Nat
  dropNobuf : Nat
  dropDesc : Nat
  hi     : Tab (Option Word)
deriving DecidableEq, Repr

/-- Flow actions (R318). -/
inductive FlowAct where
  | stream (s : Nat)
  | weir (s : Nat)
  | host (k : Nat)
  | drop
deriving DecidableEq, Repr

/-- A flow entry, kept under its object number; its place is bank and index (R315, R316, R318). -/
structure FlowEntry where
  key    : List Byte
  act    : FlowAct
  tag    : Nat
  bank   : Nat
  idx    : Nat
  poison : Bool
deriving DecidableEq, Repr

/-- Stream states (R616). -/
inductive StrSt where
  | free | defined | enabled
deriving DecidableEq, Repr

/-- Receive stream parameters (R320, R347, R401). -/
structure RxPar where
  port   : Nat
  weir   : Bool
  ktype  : Nat
  vid    : Nat
  ipv    : Nat
  dstIp  : Nat
  dstUdp : Nat
  srcIp  : Nat
  ssrc   : Word
  pt     : Nat
  clock  : Nat
  nch    : Nat
  map    : List Nat
  tsOffset : Word
  skew   : Nat
  wptime : Nat
deriving DecidableEq, Repr

/-- The headers a leg of a transmit stream carries (R320, R351). -/
structure Hdr where
  dstMac : Nat
  vid    : Option Nat
  pcp    : Nat
  srcIp  : Nat
  dstIp  : Nat
  srcUdp : Nat
  dstUdp : Nat
deriving DecidableEq, Repr

/-- Leg B's header parameters where set; each defaults to its leg A value (R351). -/
structure HdrB where
  dstMac : Option Nat
  vid    : Option (Option Nat)
  pcp    : Option Nat
  srcIp  : Option Nat
  dstIp  : Option Nat
  srcUdp : Option Nat
  dstUdp : Option Nat
deriving DecidableEq, Repr

/-- Transmit stream parameters (R320, R351). -/
structure TxPar where
  port   : Nat
  weir   : Bool
  ipv    : Nat
  a      : Hdr
  b      : HdrB
  dscp   : Nat
  ttl    : Nat
  ssrc   : Word
  pt     : Nat
  clock  : Nat
  nch    : Nat
  map    : List Nat
  cls    : Nat
  tsOffset : Word
deriving DecidableEq, Repr

/-- One receive stream parameter as NX_RXS_DEFINE or NX_RXS_SET carries it (R320, R347, R401). -/
inductive RxSet where
  | port (n : Nat) | weir (b : Bool) | ktype (n : Nat) | vid (n : Nat) | ipv (n : Nat) | dstIp (n : Nat)
  | dstUdp (n : Nat) | srcIp (n : Nat) | ssrc (w : Word) | pt (n : Nat) | clock (n : Nat) | nch (n : Nat)
  | map (l : List Nat) | tsOffset (w : Word) | skew (n : Nat) | wptime (n : Nat)
deriving DecidableEq, Repr

/-- One transmit stream parameter; legB selects leg B's copy (R320, R351). -/
inductive TxSet where
  | port (n : Nat) | weir (b : Bool) | ipv (n : Nat) | dstMac (legB : Bool) (n : Nat)
  | vid (legB : Bool) (v : Option Nat) | pcp (legB : Bool) (n : Nat) | srcIp (legB : Bool) (n : Nat)
  | dstIp (legB : Bool) (n : Nat) | srcUdp (legB : Bool) (n : Nat) | dstUdp (legB : Bool) (n : Nat)
  | dscp (n : Nat) | ttl (n : Nat) | ssrc (w : Word) | pt (n : Nat) | clock (n : Nat) | nch (n : Nat)
  | map (l : List Nat) | cls (n : Nat) | tsOffset (w : Word)
deriving DecidableEq, Repr

/-- One parameter of NX_QUAY_SET (R341, R386, R389, R499); a correction names speed, FEC, receive and transmit value. -/
inductive QuaySet where
  | maxFrame (n : Nat) | pauseRx (b : Bool) | txRes (n : Nat) | defRing (n : Nat) | oneStep (b : Bool)
  | media (n : Nat) | speeds (l : List Nat) | fecPref (n : Nat) | corr (speed fec rx tx : Nat)
deriving DecidableEq, Repr

/-- One parameter of NX_QUAY_FILTER (R311, R312): a unicast entry and its address or none, the bins set, flags. -/
inductive FilterSet where
  | uc (i : Nat) (mac : Option Nat) | bins (l : List Nat) | promisc (b : Bool) | mcAll (b : Bool) | bcast (b : Bool)
deriving DecidableEq, Repr

/-- A Weir stream context (R347-R350): bit i of the bitmaps stands for sequence H − i. -/
structure WeirCtx where
  valid  : Bool
  h      : Nat
  seenA  : Nat
  seenB  : Nat
  passed : Nat
  outRun : Nat
  lastA  : Nat
  lastB  : Nat
  silentA : Bool
  silentB : Bool
  faulted : Bool
deriving DecidableEq, Repr

/-- A receive stream; its context number in the home Weir unit; counters in the order of R366. -/
structure RxStream where
  st     : StrSt
  p      : RxPar
  flows  : List Nat
  ctxNo  : Option Nat
  ctx    : WeirCtx
  ctr    : Tab Nat
deriving DecidableEq, Repr

/-- A transmit stream (R322, R357, R366). -/
structure TxStream where
  st     : StrSt
  p      : TxPar
  ctxNo  : Option Nat
  /-- sequence number of the next packet. -/
  seq    : Nat
  seqBase : Nat
  epoch  : Nat
  sent   : Nat
  /-- assembly areas: packet time as the tick of its first sample, and what each member wrote (R322). -/
  asm    : List (Nat × List (Nat × List Byte))
  /-- packet time to be sent next; none before the first sample is written. -/
  asmNext : Option Nat
  /-- MEMBER_LATE. -/
  late   : Nat
  /-- packets not sent, by the status of their Rime request (R423). -/
  fails  : Tab Nat
  ctr    : Tab Nat
deriving DecidableEq, Repr

/-- Ports, rings, flow table and streams. -/
structure Net where
  ports  : Tab Port
  rings  : Tab DmaRing
  flow   : Tab (Option FlowEntry)
  rxs    : Tab RxStream
  txs    : Tab TxStream
  /-- arrivals, packets to duplicate and failure reports waiting at the four Weir units: stream, sequence, leg B. -/
  weirIn  : Tab (List WeirIn)
  weirOut : Tab (List WeirOut)
  weirBad : Tab (List (Nat × Nat × Bool))
  /-- protected packets at Rime: slot, sequence, leg B, packet (R351). -/
  weirEnc : List (Nat × Nat × Bool × WeirOut)
deriving DecidableEq, Repr

/-- Tandem states in the order of WEIR_TDM_STATUS (R355). -/
inductive TdmSt where
  | off | solo | lifting | standby | primary
deriving DecidableEq, Repr

/-- A hello record of the peer (R502). -/
structure Hello where
  version : Nat
  compat : Bool
  mods   : List (Nat × Nat)
  devState : Nat
  tdm    : Nat
  pref   : Nat
  ident  : Nat
  /-- the sender had received this device's new preference. -/
  heard  : Nat
deriving DecidableEq, Repr

/-- A drill in progress (R365). -/
inductive Drill where
  | swap (at_ : Nat)
  | mute (until_ : Nat)
deriving DecidableEq, Repr

/-- The Tandem object (R353-R365, R502-R504). PREF: 0 PRIMARY, 1 NONE, 2 STANDBY. -/
structure Tandem where
  st     : TdmSt
  pref   : Nat
  /-- preference that has entered the role computation. -/
  prefIn : Nat
  ident  : Nat
  /-- the hello record last received, and when; hello records sent. -/
  peer   : Option Hello
  helloAt : Option Nat
  /-- the hello record last sent, and how many. -/
  out    : Option Hello
  hellos : Nat
  lane0  : Bool
  lane1  : Bool
  /-- a toggle has been seen on ALIVE_IN within 1 ms. -/
  aliveIn : Bool
  /-- level of ALIVE_OUT. -/
  aliveOut : Bool
  /-- the Icehouse has refreshed the alive timer within 500 µs. -/
  aliveFresh : Bool
  crc0   : Nat
  crc1   : Nat
  takeovers : Nat
  /-- index high-water marks by slot: received by a standby or joiner, sent by a primary or survivor. -/
  report : Tab (Option Nat)
  /-- channels lifted so far (sent by a survivor, installed by a joiner). -/
  lifted : List Nat
  drill  : Option Drill
  /-- SEQ_BASE and epoch boundary of protected streams as the primary sent them (R357). -/
  epochs : Tab (Option (Nat × Nat))
deriving DecidableEq, Repr

/-- A channel's state as a lift sends it (R359): its record, audio state, Basin, Sluice contexts by number, Floe data by Canal
address. -/
structure Snap where
  chan  : Chan
  dsp   : Dsp
  basin : Basin
  ctxs  : List (Nat × Option Ctx)
  mem   : List (Nat × List Byte)
deriving DecidableEq, Repr

def NegPar.reset : NegPar := { media := 0, speeds := [1, 2, 3, 4], fec := 0 }
/-- Reset column of chapter 10's registers and R311. -/
def PortCfg.reset : PortCfg :=
  { rxEn := false, txEn := false, gateEn := false, link := false, speed := 0, fec := 0, maxFrame := 1522,
    corrRx := 0, corrTx := 0, pauseRx := true, promisc := false, mcAll := false, bcast := true, ptpClass := 7,
    txRes := 512, defRing := 0, uc := [], bins := [], neg := NegPar.reset, given := [], corrs := [],
    module_ := false }
def Port.reset : Port :=
  { cfg := PortCfg.reset, rxq := [], store := [], nextId := 0, dma := [], ptpq := [], txHeld := [], txq := [], lanes := [],
    sending := none, paused := none, gate := none, gatePend := none, entry := 0, open_ := 0xFF, ctr := [],
    ctrHi := [] }
def DmaRing.reset : DmaRing :=
  { base := 0, en := false, channel := false, cls := 0, vector := 0, modUs := 0, bufsz := 0, log2 := 6, tail := 0,
    head := 0, race := false, nobuf := false, reason := 0, frames := 0, dropNobuf := 0,
    dropDesc := 0, hi := [] }
def RxPar.reset : RxPar :=
  { port := 0, weir := false, ktype := 0, vid := 0x1000, ipv := 4, dstIp := 0, dstUdp := 0, srcIp := 0, ssrc := 0,
    pt := 96, clock := 48000, nch := 1, map := [], tsOffset := 0, skew := 20, wptime := 48 }
def Hdr.reset : Hdr :=
  { dstMac := 0, vid := none, pcp := 0, srcIp := 0, dstIp := 0, srcUdp := 0, dstUdp := 0 }
def HdrB.reset : HdrB :=
  { dstMac := none, vid := none, pcp := none, srcIp := none, dstIp := none, srcUdp := none, dstUdp := none }
def TxPar.reset : TxPar :=
  { port := 0, weir := false, ipv := 4, a := Hdr.reset, b := HdrB.reset, dscp := 34, ttl := 64, ssrc := 0, pt := 96,
    clock := 48000, nch := 1, map := [], cls := 6, tsOffset := 0 }
def WeirCtx.reset : WeirCtx :=
  { valid := false, h := 0, seenA := 0, seenB := 0, passed := 0, outRun := 0, lastA := 0, lastB := 0,
    silentA := false, silentB := false, faulted := false }
def RxStream.reset : RxStream :=
  { st := .free, p := RxPar.reset, flows := [], ctxNo := none, ctx := WeirCtx.reset, ctr := [] }
def TxStream.reset : TxStream :=
  { st := .free, p := TxPar.reset, seq := 0, ctxNo := none, seqBase := 0, epoch := 0, sent := 0, asm := [], asmNext := none, late := 0,
    fails := [], ctr := [] }
def Net.reset : Net :=
  { ports := [], rings := [], flow := [], rxs := [], txs := [], weirIn := [], weirOut := [],
    weirBad := [], weirEnc := [] }
def Tandem.reset : Tandem :=
  { st := .off, pref := 1, prefIn := 1, ident := 0, peer := none, helloAt := none, out := none, hellos := 0, lane0 := false,
    lane1 := false, aliveIn := false, aliveOut := false, aliveFresh := false, crc0 := 0, crc1 := 0, takeovers := 0,
    report := [], lifted := [], drill := none, epochs := [] }

end Sys2Proof.Machine
end

