-- ==== Sys2Proof/Machine/StNivo.lean ====
section
/-! DEFINITION. State of the Nivo die and of the tap path on the main die (chapter 18). -/

namespace Sys2Proof.Machine

/-- A tap entry (R558): ROLE 0 L, 1 R, 2 C, 3 LFE, 4 LS, 5 RS, 6 OTHER. -/
structure TapEntry where
  slot : Nat
  chan : Nat
  tx   : Bool
  prog : Nat
  role : Nat
deriving DecidableEq, Repr

/-- A selection table (R558). -/
structure TapTable where
  entries  : List TapEntry
  interval : Nat
  group    : Nat
deriving DecidableEq, Repr

/-- A tap slot of a frame (R563). -/
structure TapSlot where
  active : Bool
  valid  : Bool
  conc   : Bool
  samples : List (BitVec 24)
deriving DecidableEq, Repr

/-- A tap frame (R563). -/
structure TapFrame where
  block : Nat
  time  : Nat
  servo : Nat
  dom   : Nat
  gen   : Nat
  slots : Tab TapSlot
deriving DecidableEq, Repr

/-- A signed record (R569) before its signature. -/
structure NRec where
  seq   : Nat
  type  : Nat
  tsrc  : Nat
  flags : Nat
  audit : Nat
  tStart : Nat
  tEnd  : Nat
  obj   : Nat
  gen   : Nat
  body  : List Byte
deriving DecidableEq, Repr

/-- What a programme's meter has gathered (R564): blocks of the present 100 ms and their weighted energy; the energies of the 100 ms
steps of the integration, newest first; steps since the last MEASURE record; the greatest true peak since then and of all. -/
structure Meter where
  blocks : Nat
  energy : Nat
  steps  : List Nat
  since  : Nat
  peak   : Option Int
  peakAll : Option Int
deriving DecidableEq, Repr

/-- A programme in measurement (R564-R566). -/
structure Prog where
  begun : Bool
  start : Nat
  /-- Nivo's clock at the last MEASURE record, or when the programme came into force. -/
  mark  : Nat
  invalid : Nat
  conc  : Nat
  /-- invalid and concealed blocks seen since the last MEASURE record. -/
  flagInv : Bool
  flagConc : Bool
  meter : Meter
deriving DecidableEq, Repr

/-- An open usage (R567): channel, path, time of opening, blocks above −70 LUFS. -/
structure Usage where
  chan  : Nat
  tx    : Bool
  start : Nat
  loud  : Nat
deriving DecidableEq, Repr

/-- What Nivo's loudness meter gives for a programme (R564): momentary, short-term and integrated loudness in 0.01 LUFS and
true peak in 0.01 dBTP, the first three −32,768 with no value above the gate; loudness range in 0.01 LU; gated blocks. -/
structure LoudVals where
  mom   : Int
  short : Int
  integ : Int
  peak  : Int
  range : Nat
  gated : Nat
deriving DecidableEq, Repr

/-- What a NIVO_I2C write in update mode carries (R572): image data; the end of the image with what its verification found
(type and signature good, security version); a legally relevant parameter. -/
inductive NivoWr where
  | image (data : List Byte)
  | verify (good : Bool) (secVer : Nat)
  | param (num val : Nat)
deriving DecidableEq, Repr

/-- The main die's side of the tap and selection paths (R560, R562, R563, R574). -/
structure TapSide where
  /-- GEN placed in frame headers and the table it stands for. -/
  gen    : Nat
  table  : Option TapTable
  /-- the selection sent and not yet acknowledged: GEN, table, tries made. -/
  sent   : Option (Nat × TapTable × Nat)
  /-- the last block gathered. -/
  block  : Option Nat
  /-- the frame being gathered, and frames on the link. -/
  frame  : Option TapFrame
  link   : List TapFrame
  /-- tables on the selection path, and acknowledgements on their way back: GEN and audit counter. -/
  selPath : List (Nat × TapTable)
  acks   : List (Nat × Nat)
  /-- SEALED as last polled; polls in a row with TSRC 2 or 3; alarm conditions present at the last poll. -/
  sealed : Option Bool
  tsrcPolls : Nat
  raised : List Nat
deriving DecidableEq, Repr

/-- The Nivo die (R551-R576). -/
structure Nivo where
  powered  : Bool
  sealLow  : Bool
  updLow   : Bool
  update   : Bool
  /-- first block not measured in update mode. -/
  updBlock : Nat
  clock    : Nat
  tsrc     : Nat
  synced   : Bool
  audit    : Nat
  gen      : Nat
  /-- generation last received, and its table while not yet applied. -/
  genSeen  : Nat
  pend     : Option (Nat × TapTable)
  table    : Option TapTable
  lastBlock : Option Nat
  linkUp   : Bool
  selUp    : Bool
  fault    : Bool
  recs     : List NRec
  seq      : Nat
  progs    : Tab Prog
  usage    : Tab (Option Usage)
  holdLow  : Bool
  /-- sites of Nivo's own faults (R576). -/
  faults   : List DWord
  /-- SEQ an I2C reader placed at the window's start. -/
  winSeq   : Option Nat
deriving DecidableEq, Repr

/-- Nivo's firmware slots, OTP floor and parameters (R555, R556, R572). -/
structure NivoFw where
  slot   : Nat
  /-- security versions of the images in slots A and B, and whether the other slot holds a verified image. -/
  secVer : List Nat
  /-- the image written to the other slot so far. -/
  image  : List Byte
  verified : Bool
  /-- SHA-256 of the images in the running and the other slot, once written by Nivo. -/
  hash   : Option (List Byte)
  other  : Option (List Byte)
  floor_ : Nat
  params : Tab Nat
  audits : List NRec
deriving DecidableEq, Repr

def TapSlot.none : TapSlot := { active := false, valid := false, conc := false, samples := [] }
def Meter.reset : Meter := { blocks := 0, energy := 0, steps := [], since := 0, peak := none, peakAll := none }
def Prog.reset : Prog :=
  { begun := false, start := 0, mark := 0, invalid := 0, conc := 0, flagInv := false, flagConc := false, meter := Meter.reset }
def TapSide.reset : TapSide :=
  { gen := 0, table := none, sent := none, block := none, frame := none, link := [], selPath := [], acks := [], sealed := none,
    tsrcPolls := 0, raised := [] }
/-- Nivo before VDD_NIVO first rises; NIVO_STATE.TSRC resets to 3 (R573); the pins read as open inputs do, seal broken and no
update asked (R572). -/
def Nivo.reset : Nivo :=
  { powered := false, sealLow := false, updLow := false, update := false, updBlock := 0, clock := 0, tsrc := 3,
    synced := false, audit := 0, gen := 0, genSeen := 0, pend := none, table := none, lastBlock := none,
    linkUp := false, selUp := false, fault := false, recs := [], seq := 0, progs := [], usage := [],
    holdLow := false, faults := [], winSeq := none }
def NivoFw.reset : NivoFw :=
  { slot := 0, secVer := [0, 0], image := [], verified := false, hash := none, other := none, floor_ := 0,
    params := [], audits := [] }

end Sys2Proof.Machine
end

