-- ==== Sys2Proof/Machine/StTime.lean ====
section
/-! DEFINITION. State of the Timebase: the two PTP clocks, the selected time, the two-step queues and the
pulse-per-second outputs and inputs (chapter 12). Times are numbers of 2^-16 ns since the PTP epoch (R382). -/

namespace Sys2Proof.Machine

/-- Servo states in the order of TB_STATUS (R375). -/
inductive Servo where
  | freerun | locking | locked | holdover
deriving DecidableEq, Repr

/-- Parameters of a PTP instance (R374): PROFILE 0 DEFAULT, 1 ST2059, 2 AES67; ACCEPT and DNUM none where they follow
PROFILE; TRANSPORT 0 L2, 1 UDP4, 2 UDP6; SOURCE 0 PTP, 1 PPS, 2 FREE; BW in 0.01 Hz; ASYM in 2^-16 ns. -/
structure InstParams where
  profile   : Nat
  accept    : Option (List Nat)
  dnum      : Option Nat
  transport : Nat
  ports     : List Nat
  vid       : Option Nat
  gmAllow   : List Nat
  asym      : Int
  bw        : Nat
  source    : Nat
deriving DecidableEq, Repr

/-- One parameter of NX_TB_DOMAIN_SET (R374). -/
inductive TbSet where
  | profile (n : Nat) | accept (l : List Nat) | dnum (n : Nat) | transport (n : Nat) | ports (l : List Nat)
  | vid (v : Option Nat) | gmAllow (l : List Nat) | asym (d : Int) | bw (n : Nat) | source (n : Nat)
deriving DecidableEq, Repr

/-- The master the best master clock algorithm has chosen: port it is heard on, its port identity, grandmaster identity
and log2 of its Announce interval (R372, R373). -/
structure PtpSrc where
  port   : Nat
  src    : Nat
  gm     : Nat
  annLog : Int
deriving DecidableEq, Repr

/-- A sender heard on a port (R372): its last Announce's interval and grandmaster, what the comparison of IEEE 1588 ranks that
grandmaster by, and stepsRemoved; the elapsed times of its Announces in the last four intervals, newest first. -/
structure Foreign where
  src    : PtpSrc
  rank   : List Nat
  steps  : Nat
  times  : List Nat
deriving DecidableEq, Repr

/-- A domain's clock, servo and PPS signals (R370-R376, R397, R398). -/
structure Clk where
  en       : Bool
  p        : InstParams
  /-- the domain's time. -/
  time     : Nat
  servo    : Servo
  /-- frequency offset from nominal, in 2^-16 ns per second, and the part of a unit not yet advanced. -/
  freq     : Int
  rem      : Int
  cand     : Option PtpSrc
  /-- the senders heard, on each port. -/
  foreign  : List Foreign
  /-- the grandmaster accepted. -/
  gm       : Option Nat
  /-- profile in use. -/
  profUse  : Nat
  offset   : Int
  delay    : Int
  syncLog  : Int
  /-- elapsed times at which an Announce of its domain was last heard, the chosen master's last Announce came, and a
  Sync was last used; the elapsed time since which the offset has stayed within ±100 ns. -/
  heard    : Nat
  lastAnn  : Nat
  lastUse  : Nat
  inBand   : Option Nat
  /-- since when the clock has been in FREERUN or HOLDOVER. -/
  idle     : Nat
  /-- a two-step Sync waiting for its Follow_Up: sequence, correction and receive stamp. -/
  syncRx   : Option (Nat × Int × Nat)
  /-- master-to-slave interval of the Sync last used. -/
  t12      : Int
  /-- one frequency sample a second: of the present LOCKED span, and of steered operation, newest first. -/
  lockHist : List Int
  steerHist : List Int
  dreqSeq  : Nat
  dreqLog  : Int
  dreqAt   : Option Nat
  /-- transmit stamp of the last Delay_Req sent (R389). -/
  dreqSent : Option Nat
  outEn    : Bool
  inEn     : Bool
  /-- WIDTH in µs; PPS_COMP in 0.25 ns. -/
  width    : Nat
  comp     : Int
  outHigh  : Bool
  /-- elapsed time of the last rising edge; the second last served or passed over. -/
  outRise  : Nat
  outSec   : Int
  inSec    : Nat
  inNs     : Nat
  inCnt    : Nat
  /-- the second NX_TB_SET_TOD gives the next edge. -/
  todPend  : Option Nat
deriving DecidableEq, Repr

/-- A two-step queue entry (R390). -/
structure TsqEntry where
  gap    : Bool
  lost   : Nat
  domain : Nat
  ue     : Bool
  seq    : Nat
  tsId   : Nat
  time   : Nat
deriving DecidableEq, Repr

/-- A port's two-step queue and stamp counters (R389-R395). -/
structure Tsq where
  entries : List TsqEntry
  nextSeq : Nat
  lost    : Nat
  oneStep : Bool
  vector  : Nat
  ovf     : Nat
  ue      : Nat
  flagIgn : Nat
  skip    : Nat
deriving DecidableEq, Repr

/-- The selected time and what controls it (R371, R378-R380, R383). -/
structure Timebase where
  clkA     : Clk
  clkB     : Clk
  sel      : Nat
  selDom   : Nat
  auto     : Bool
  /-- AUTO_WAIT in 0.1 s; SWITCH_MAX in ns. -/
  autoWait : Nat
  switchMax : Nat
  /-- an automatic switch has taken place since the last NX_TB_SELECT. -/
  autoUsed : Bool
  /-- pending switch: domain and instant S. -/
  pend     : Option (Nat × Nat)
  slewing  : Bool
  /-- relative frequency of the selected time, times 10^15 and 2^16; the part of a unit not yet advanced. -/
  slewRate : Int
  slewRem  : Int
  /-- a switch began or joined the slew. -/
  slewSwitch : Bool
  /-- latched words: SEC_HI, SEC_LO and FRAC of time x at 3x, 3x+1, 3x+2; PPS seconds at 16, 17. -/
  latches  : Tab Word
  offHi    : Option Word
  /-- tick counts given out by rate: at index f / 8000, the last k emitted. -/
  ticks    : Tab Nat
  tsq      : Tab Tsq
  /-- time elapsed since reset as the ticks give it, no step counted. -/
  elapsed  : Nat
deriving DecidableEq, Repr

/-- R374: the default parameters of instance A (port 0) and B (port 1). -/
def InstParams.reset (x : Nat) : InstParams :=
  { profile := 1, accept := none, dnum := none, transport := 1, ports := [x], vid := none, gmAllow := [], asym := 0,
    bw := 10, source := 0 }
def Clk.reset (x : Nat) : Clk :=
  { en := false, p := InstParams.reset x, time := 0, servo := .freerun, freq := 0, rem := 0, cand := none, foreign := [], gm := none,
    profUse := 0, offset := 0, delay := 0, syncLog := 0, heard := 0, lastAnn := 0, lastUse := 0, inBand := none,
    idle := 0, syncRx := none, t12 := 0, lockHist := [], steerHist := [], dreqSeq := 0, dreqLog := 0,
    dreqAt := none, dreqSent := none, outEn := false, inEn := false, width := 100000, comp := 0, outHigh := false,
    outRise := 0, outSec := 0, inSec := 0, inNs := 0, inCnt := 0, todPend := none }
def Tsq.reset : Tsq :=
  { entries := [], nextSeq := 0, lost := 0, oneStep := false, vector := 0, ovf := 0, ue := 0, flagIgn := 0,
    skip := 0 }
/-- R371: all three times start at 0 s; R378, R380: the defaults of SWITCH_MAX and AUTO_WAIT. -/
def Timebase.reset : Timebase :=
  { clkA := Clk.reset 0, clkB := Clk.reset 1, sel := 0, selDom := 0, auto := false, autoWait := 20,
    switchMax := 10000, autoUsed := false, pend := none, slewing := false, slewRate := 0, slewRem := 0,
    slewSwitch := false, latches := [], offHi := none, ticks := [], tsq := [], elapsed := 0 }

end Sys2Proof.Machine
end

