-- ==== Sys2Proof/Syntax.lean ====
section
/-! DEFINITION. The commands and events of the Sprineel Q96 as a syntax: what each carries from outside. -/

namespace Sys2Proof

open Sys2Proof.Machine

/-- The commands and events of the block: one constructor per row of the table of operations and events. -/
inductive Instr where
  /-- RESET_N_RISE (R486): The rising edge of RESET_N samples the straps and starts the boot sequence from the boot ROM. -/
  | resetNRise (compat tandem : Bool) (src : Nat) (x : BootIn)
  /-- RESET_N_FALL (R590): RESET_N held low for at least 10 µs resets the main die; a low shorter than 1 µs is ignored. -/
  | resetNFall (ns : Nat)
  /-- SELFTEST_DONE (R490): The Floe self-test ends, failing parts are fenced or the device halts, and READY is entered. -/
  | selftestDone (floes quay ddr : List Nat) (bad : Bool)
  /-- PCIE_LINK_CHANGE (R494): The PCIe link trains, retrains or goes down, and the negotiation entry is updated. -/
  | pcieLinkChange (up : Bool) (gen width hostGen hostWidth : Nat)
  /-- BUS_MASTER_ENABLE_CHANGE (R452): Clearing Bus Master Enable holds every device access to host memory; setting it releases them. -/
  | busMasterEnableChange (on : Bool)
  /-- FUNCTION_LEVEL_RESET_0 (R450): A Function Level Reset of function 0 performs a device-level reset, keeping the link and configuration space. -/
  | functionLevelReset0 (x : BootIn)
  /-- BAR0_UNMAPPED_ACCESS (R454): A BAR0 access to an unmapped offset or of a forbidden size completes, reads zero or discards, and counts in DEV_UNMAPPED. -/
  | bar0UnmappedAccess (write : Bool) (o n : Nat)
  /-- REGISTER_WRITE (R11): A write to a register field with no row of its own is applied by its access code, RWS writes being discarded while the unit runs. -/
  | registerWrite (a : Agent) (r : RegName) (w : Word)
  /-- BERTH_WRITE (R458): A host write to a berth is stored, or discarded and counted in NX_BERTH_DROP when the berth is busy. -/
  | berthWrite (o : Nat) (l : List Byte)
  /-- NX_DOORBELL (R459): A write to NX_DOORBELL_LO or HI rings each berth whose bit is 1, queuing it for execution in doorbell order. -/
  | nxDoorbell (hi : Bool) (w : Word)
  /-- NX_CPL_CFG_EN_WRITE (R468): Setting NX_CPL_CFG.EN checks the ring settings, resets TAIL and HEAD and starts PHASE at 1; clearing it stops the ring. -/
  | nxCplCfgEnWrite (w : Word)
  /-- NX_CPL_HEAD_WRITE (R464): A host write of NX_CPL_HEAD frees completion-ring entries, and waiting completions and unsolicited records are written into the room. -/
  | nxCplHeadWrite (w : Word)
  /-- MSIX_UNMASK (R455): Unmasking a vector with its pending bit set sends the merged message. -/
  | msixUnmask (v : Nat)
  /-- LONG_COMMAND_COMPLETE (R460): The work of a long command ends and its completion takes its place in the ring. -/
  | longCommandComplete (b : Nat) (input : List Byte) (c : Nat) (fail : Option Nat)
  /-- NX_DEV_INFO (R482): Returns the device information. -/
  | nxDevInfo (b : Nat) (f : Fmt)
  /-- NX_DEV_STATUS (R482): Returns the device status. -/
  | nxDevStatus (b : Nat) (f : Fmt)
  /-- NX_DEV_SERVICE (R509): Checks the service rules and the Tandem outcome and takes the device from READY to SERVICE. -/
  | nxDevService (b : Nat) (f : Fmt)
  /-- NX_DEV_READY (R512): Takes the device from SERVICE, or from RECOVERY once RCV_DONE is set, to READY, applying R80. -/
  | nxDevReady (b : Nat) (f : Fmt)
  /-- NX_DEV_SELFTEST (R510): Switches the Lockkeeper to thread mode and runs the self-test from READY, as a long command. -/
  | nxDevSelftest (b : Nat) (f : Fmt)
  /-- NX_DEV_RESET (R473): Writes its own completion and performs a device-level reset 1 ms later, abandoning all berths. -/
  | nxDevReset (b : Nat) (f : Fmt) (x : BootIn)
  /-- NX_DEV_HALT (R471): Sends the device to HALTED. -/
  | nxDevHalt (b : Nat) (f : Fmt)
  /-- NX_NEG_STATUS (R491): Returns the 216-byte negotiation status object. -/
  | nxNegStatus (b : Nat) (f : Fmt)
  /-- NX_DDR_FENCE (R498): Adds an LPDDR5X channel to the fence list, or removes one, for the next device-level reset. -/
  | nxDdrFence (b : Nat) (f : Fmt) (add : Bool) (c : Nat)
  /-- NX_NEVE_PARTITION (R45): Checks and sets new Névé partition sizes, which take effect at the next entry to SERVICE. -/
  | nxNevePartition (b : Nat) (f : Fmt) (p : List Nat)
  /-- NX_CHAN_DEFINE (R75): Defines a FREE channel with its parameter blocks, making it DEFINED. -/
  | nxChanDefine (b : Nat) (f : Fmt) (l : List ParSet)
  /-- NX_CHAN_SET (R81): Sets structural parameters in DEFINED, or live parameters that apply at the next processing-frame boundary. -/
  | nxChanSet (b : Nat) (f : Fmt) (l : List ParSet)
  /-- NX_CHAN_ENABLE (R76): Runs the consistency check, places the channel on a Floe, allocates its Basin, contexts and crosspoints, and makes it ARMED. -/
  | nxChanEnable (b : Nat) (f : Fmt)
  /-- NX_CHAN_START (R77): Makes an ARMED channel RUNNING from the next processing-frame boundary. -/
  | nxChanStart (b : Nat) (f : Fmt)
  /-- NX_CHAN_STOP (R78): Puts a RUNNING channel into DRAINING, flushing its Basin and finishing the current frame's transmit audio. -/
  | nxChanStop (b : Nat) (f : Fmt)
  /-- NX_CHAN_DISABLE (R75): Returns an ARMED channel to DEFINED, releasing its Floe units and resources. -/
  | nxChanDisable (b : Nat) (f : Fmt)
  /-- NX_CHAN_FREE (R75): Returns a DEFINED channel to FREE. -/
  | nxChanFree (b : Nat) (f : Fmt)
  /-- NX_CHAN_CLEAR (R75): Returns a FAULTED channel to DEFINED. -/
  | nxChanClear (b : Nat) (f : Fmt)
  /-- NX_CHAN_GET (R75): Returns a channel's parameters and state. -/
  | nxChanGet (b : Nat) (f : Fmt)
  /-- NX_CHAN_STATS (R111): Returns a channel's counters and smoothed values, clearing the counters with CLEAR. -/
  | nxChanStats (b : Nat) (f : Fmt)
  /-- NX_EC_RESET (R85): Clears the echo canceller coefficients at the next processing-frame boundary. -/
  | nxEcReset (b : Nat) (f : Fmt)
  /-- NX_TONE_PLAN (R102): Loads device-wide call-progress plans. -/
  | nxTonePlan (b : Nat) (f : Fmt) (l : List PlanTone)
  /-- NX_GPI_MAP (R103): Loads device-wide GPI tone map entries. -/
  | nxGpiMap (b : Nat) (f : Fmt) (l : List (ToneDef × Nat))
  /-- PROCESSING_FRAME_BOUNDARY (R81): At a channel's processing-frame boundary, pending live parameters, starts and canceller resets take effect. -/
  | processingFrameBoundary (c : Nat)
  /-- DRAIN_END (R78): At the end of the stopped frame's last packet time, a DRAINING channel enters ARMED and posts CHAN_STATE. -/
  | drainEnd (c : Nat)
  /-- NX_MOD_LOAD (R150): Verifies and checks a module image, then loads it into each affected Floe in turn, as a long command. -/
  | nxModLoad (b : Nat) (f : Fmt) (sig : Signer) (image : List Byte)
  /-- NX_MOD_UNLOAD (R150): Frees a loaded module's space and kinds. -/
  | nxModUnload (b : Nat) (f : Fmt)
  /-- NX_MOD_LIST (R482): Returns the loaded modules. -/
  | nxModList (b : Nat) (f : Fmt)
  /-- NX_FLOE_STATS (R482): Returns a Floe's registers and counters. -/
  | nxFloeStats (b : Nat) (f : Fmt)
  /-- BUNDLE_ISSUE (R120): A Floe issues one bundle: all four slots read their sources, then write their results. -/
  | bundleIssue (f : Nat) (ic iu dc du : List Nat) (acts : List ChanAct)
  /-- WORK_ITEM_START (R141): A descriptor entering the current slot starts execution at its kind's entry bundle, or raises NOKIND. -/
  | workItemStart (f : Nat) (ecc : List Ecc)
  /-- CANAL_TRANSFER_COMPLETE (R617): A Floe Canal transfer completes, writing CGET data or faulting CAE on an address error. -/
  | canalTransferComplete (f k : Nat) (a : XferAns)
  /-- IMEM_REWRITE_DONE (R136): The Icehouse finishes rewriting an uncorrectable instruction word and the waiting fetch proceeds. -/
  | imemRewriteDone (f : Nat)
  /-- FLOE_CTRL_WRITE (R614): Clearing RUN stops the Floe at the next bundle boundary; setting it resumes the item. -/
  | floeCtrlWrite (f : Nat) (ice : Bool) (w : Word)
  /-- FLOE_STATUS_WRITE (R615): A W1C write clears CBOUT or CBFOLD, a coincident set winning. -/
  | floeStatusWrite (f : Nat) (ice : Bool) (w : Word)
  /-- FLOE_GOV_WRITE (R159): A W1C write to FLOE_GOV_LO or HI clears GOV bits, a coincident set winning. -/
  | floeGovWrite (f : Nat) (hi ice : Bool) (w : Word)
  /-- FLUME_PUSH (R55): A writer pushes an item, acknowledged when FULL_W is clear and held otherwise; a no-wait writer drops a whole unit that does not fit. -/
  | flumePush (i : Nat) (xs : List FItem)
  /-- FLUME_POP (R55): A reader pops the output-stage item when EMPTY_R is clear, checking each word's code. -/
  | flumePop (i : Nat) (ecc : List Ecc)
  /-- FLUME_EMPTY_CLEAR (R56): A pushed item reaches the head's output stage, EMPTY_R clears and a waiting pop is granted. -/
  | flumeEmptyClear (i : Nat) (ecc : List Ecc)
  /-- FLUME_FULL_CLEAR (R56): The writer sees a freed body entry, FULL_W clears and a held push proceeds. -/
  | flumeFullClear (i : Nat)
  /-- FLM_UE_WRITE (R64): A W1C write clears UE_SEEN. -/
  | flmUeWrite (a : Agent) (i : Nat) (w : Word)
  /-- CANAL_STALL (R517): A Canal stop withholding acknowledge for 100 µs raises CANAL_STALL and halts the device. -/
  | canalStall (stop : Option Nat)
  /-- WORK_ITEM_ADMIT (R179): A bank takes a work item from an input flume when it can be admitted, into the Towpath, a chamber queue, a group queue or a pound. -/
  | workItemAdmit (src : AdmitSrc) (ecc : List Ecc)
  /-- RETIRE_RECORD (R176): A bank takes a retire record, frees the chamber from its own record and releases the next queued chamber item. -/
  | retireRecord (f : Nat) (ecc : List Ecc)
  /-- GOV_EVENT_RECORD (R177): A bank takes a GOV event record into its queue of 16, merging it into the Floe's pending record when full. -/
  | govEventRecord (f : Nat) (ecc : List Ecc)
  /-- GOV_QUEUE_TAKE (R177): The Icehouse takes a GOV record from a bank's queue and logs it as a GOV record. -/
  | govQueueTake (k : Nat)
  /-- LKP_INJ_DATA_WRITE (R199): A host write sets one word of the injection descriptor. -/
  | lkpInjDataWrite (r n : Nat) (w : Word)
  /-- LKP_INJ_PUSH (R199): A PUSH places the held descriptor in the injection buffer, or discards and counts it when the buffer is full. -/
  | lkpInjPush (r : Nat) (w : Word)
  /-- NX_LKP_MODE (R204): Switches the Lockkeeper between thread and service mode when the conditions hold. -/
  | nxLkpMode (b : Nat) (f : Fmt) (mode : Nat)
  /-- NX_LKP_GROUP (R188): Sets group weights and CEIL from the next dispatch decision. -/
  | nxLkpGroup (b : Nat) (f : Fmt) (ws : List (Nat × Nat)) (ceil : Option Nat)
  /-- NX_LKP_TICK (R195): Sets the Towpath tick period while all delay lists are empty. -/
  | nxLkpTick (b : Nat) (f : Fmt) (t : Nat)
  /-- NX_LKP_PURGE (R205): Removes every item, frees every chamber and resets round-robin state. -/
  | nxLkpPurge (b : Nat) (f : Fmt)
  /-- NX_LKP_STATS (R206): Returns the Lockkeeper counters and depths. -/
  | nxLkpStats (b : Nat) (f : Fmt)
  /-- PACKET_ARRIVAL (R216): A Basin manager classifies an arriving packet by its distance from NEXT and accepts or discards it. -/
  | packetArrival (r : UnitRead)
  /-- PLAYOUT_DECISION (R221): At a playout instant the manager hands the position over present, silent or missing as a work item. -/
  | playoutDecision (c : Nat)
  /-- STRETCH_INSERT (R228): After ADAPT_WAIT without silence, missing positions marked STRETCH are inserted to raise the depth. -/
  | stretchInsert (c : Nat)
  /-- BSN_DRIFT_LIMIT (R229): ε held at its limit for 10 s while the error grows posts BSN_DRIFT_LIMIT once. -/
  | bsnDriftLimit (c : Nat)
  /-- SLIP (R230): Each second, a mean depth off by more than a packet time discards an entry or inserts a STRETCH position. -/
  | slip (c : Nat)
  /-- NX_BSN_POOL (R212): Sets the media pool region of LPDDR5X. -/
  | nxBsnPool (b : Nat) (f : Fmt) (base size : Nat)
  /-- NX_BSN_STATS (R244): Returns a channel's Basin counters and values. -/
  | nxBsnStats (b : Nat) (f : Fmt)
  /-- NX_RING_DEFINE (R242): Defines a replay ring. -/
  | nxRingDefine (b : Nat) (f : Fmt) (chan span : Nat)
  /-- NX_RING_ENABLE (R235): Checks and enables a ring, allocating its body. -/
  | nxRingEnable (b : Nat) (f : Fmt)
  /-- NX_RING_MARK (R237): Pins the rewind mark or sets it FLOATING. -/
  | nxRingMark (b : Nat) (f : Fmt) (m : Option Nat)
  /-- NX_RING_REWIND (R240): Fixes a rewind target and puts the ring in REWINDING. -/
  | nxRingRewind (b : Nat) (f : Fmt) (span : Nat)
  /-- NX_RING_READ (R241): Copies blocks by DMA from the read position, as a long command. -/
  | nxRingRead (b : Nat) (f : Fmt) (count addr : Nat)
  /-- NX_RING_DISABLE (R242): Disables a ring and releases its body. -/
  | nxRingDisable (b : Nat) (f : Fmt)
  /-- NX_RING_FREE (R242): Frees a DEFINED ring. -/
  | nxRingFree (b : Nat) (f : Fmt)
  /-- NX_RING_STATS (R244): Returns the ring counters and status. -/
  | nxRingStats (b : Nat) (f : Fmt)
  /-- BLOCK_BOUNDARY (R258): At each 125 µs boundary each slice reads block j of its sources and computes output block j + 1 with ramps. -/
  | blockBoundary (late xpUe busUe : List Nat)
  /-- JCT_SLICE_STATUS_WRITE (R260): A W1C write clears OVR_SEEN. -/
  | jctSliceStatusWrite (n : Nat) (w : Word)
  /-- NX_JCT_BUS_DEFINE (R269): Defines a bus of type OWN or SHARE. -/
  | nxJctBusDefine (b : Nat) (f : Fmt) (share : Bool) (parent : Nat) (minus : Option Nat)
  /-- NX_JCT_BUS_SET (R267): Sets a bus's type, parent or MINUS, MINUS taking effect at the next boundary. -/
  | nxJctBusSet (b : Nat) (f : Fmt) (share : Option Bool) (parent : Option Nat) (minus : Option (Option Nat))
  /-- NX_JCT_BUS_ENABLE (R259): Checks and enables a bus, allocating its output ring. -/
  | nxJctBusEnable (b : Nat) (f : Fmt)
  /-- NX_JCT_BUS_DISABLE (R269): Disables a bus and releases its output ring. -/
  | nxJctBusDisable (b : Nat) (f : Fmt)
  /-- NX_JCT_BUS_FREE (R269): Frees a DEFINED bus and its crosspoints. -/
  | nxJctBusFree (b : Nat) (f : Fmt)
  /-- NX_JCT_XP_ADD (R249): Adds a crosspoint at the lowest free number of the slice. -/
  | nxJctXpAdd (b : Nat) (f : Fmt) (src : Nat) (gain : Int) (ramp : Nat)
  /-- NX_JCT_XP_SET (R265): Sets up to 30 crosspoint gains and ramps, all starting at the same boundary. -/
  | nxJctXpSet (b : Nat) (f : Fmt) (es : List (Nat × Int × Nat))
  /-- NX_JCT_XP_DELETE (R266): Ramps a crosspoint to zero for deletion. -/
  | nxJctXpDelete (b : Nat) (f : Fmt)
  /-- NX_JCT_STATS (R271): Returns bus, crosspoint and slice records. -/
  | nxJctStats (b : Nat) (f : Fmt)
  /-- SLUICE_REQUEST (R284): A 32-byte request written to a lane's request port is queued, the write held while the queue is full. -/
  | sluiceRequest (l dom : Nat) (data : List Byte)
  /-- SLUICE_REQUEST_DONE (R285): A lane processes the head request through its profile, writes the outputs and posts the completion. -/
  | sluiceRequestDone (l : UnitRead) (coef : Option Nat) (hist : Bool)
  /-- SLU_SYNC_EDGE (R295): A rising edge on SLU_SYNC with PIN_EN registers a sync tick, or is ignored while one is pending. -/
  | sluSyncEdge (skip : Bool)
  /-- COEF_REWRITE_DONE (R302): The Icehouse rewrites a poisoned standard coefficient and waiting requests proceed. -/
  | coefRewriteDone (l : Nat)
  /-- SLU_LANE_CTRL_WRITE (R297): Clearing RUN stops the lane under R32; setting it runs it. -/
  | sluLaneCtrlWrite (l : Nat) (a : Agent) (w : Word)
  /-- NX_SLU_STOP (R298): Stops a lane that holds no channel-owned context. -/
  | nxSluStop (b : Nat) (f : Fmt)
  /-- NX_SLU_START (R298): Starts a stopped lane. -/
  | nxSluStart (b : Nat) (f : Fmt)
  /-- NX_SLU_LOAD (R299): Loads profiles 6 to 15 and their coefficients into a stopped lane, as a long command. -/
  | nxSluLoad (b : Nat) (f : Fmt) (profs : List (Nat × Nat × List Stage)) (coefs : List (Nat × BitVec 32))
  /-- NX_SLU_CTX_BIND (R289): Binds a context in a reach to a profile by the placement rule. -/
  | nxSluCtxBind (b : Nat) (f : Fmt) (reach prof kind chamber : Nat) (atomic : Bool) (target : Nat)
  /-- NX_SLU_CTX_SET (R294): Freezes, restarts or changes the profile of a bound context. -/
  | nxSluCtxSet (b : Nat) (f : Fmt) (freeze : Option Bool) (restart : Bool) (prof : Option Nat)
  /-- NX_SLU_CTX_FREE (R300): Frees a bound context. -/
  | nxSluCtxFree (b : Nat) (f : Fmt)
  /-- NX_SLU_SYNC (R295): Registers a sync event. -/
  | nxSluSync (b : Nat) (f : Fmt)
  /-- NX_SLU_STATS (R300): Returns lane, profile and context statistics. -/
  | nxSluStats (b : Nat) (f : Fmt)
  /-- FRAME_RECEIVE (R306): A received frame's last byte arrives, is checked and filtered, and is pushed whole into flume 384 + n or dropped. -/
  | frameReceive (n : Nat) (l : List Byte) (raw : Nat) (dom : Bool) (dt corr uncorr : Nat)
  /-- PAUSE_EXPIRE (R330): The pause time runs out and waiting frames are tested again. -/
  | pauseExpire (n dt : Nat)
  /-- FRAME_CLASSIFY (R313): The receive classifier pops a frame when its cells are free, stores it and sends it to the Timebase, a flow action or the default ring. -/
  | frameClassify (n : Nat) (ecc : List (List Ecc)) (ue : Option (Nat × Nat))
  /-- FLOW_ENTRY_REWRITE (R319): The Icehouse rewrites a damaged flow entry from its copy. -/
  | flowEntryRewrite (e : Nat)
  /-- FRAME_RELEASE (R310): A consumer takes the frame and the cells are released when the reference count reaches zero. -/
  | frameRelease (n id t : Nat)
  /-- RX_DMA_PLACE (R335): A DMA engine reserves descriptors, writes a frame into host buffers and writes back, or drops it. -/
  | rxDmaPlace (n : UnitRead) (descs : List (Bool × Nat))
  /-- TX_DESCRIPTOR_FETCH (R337): A transmit engine fetches a whole frame's descriptors, copies the frame into the store and writes back. -/
  | txDescriptorFetch (g : Nat) (ds : List TxDesc)
  /-- TX_LANE_MOVE (R323): The head frame of a class moves whole into its lane when the lane has room, releasing its cells. -/
  | txLaneMove (n c : Nat) (ecc : List (List Ecc))
  /-- TX_ASSEMBLY_DEADLINE (R322): At the end of packet time j + 1 a multichannel packet is queued with late members as zeros. -/
  | txAssemblyDeadline (n dt : Nat)
  /-- FRAME_START (R327): At a start opportunity the highest class with a whole frame passing the gate test starts, and its time-stamp is taken. -/
  | frameStart (n dt raw : Nat) (dom ue : Bool)
  /-- FRAME_SENT (R323): A frame's last byte is sent and counted. -/
  | frameSent (n : Nat)
  /-- GATE_INTERVAL_END (R326): A gate-list interval ends and the next entry's gates apply. -/
  | gateIntervalEnd (n dt : Nat)
  /-- GATE_LIST_SWITCH (R328): A pending gate list takes effect at its cycle start. -/
  | gateListSwitch (n dt : Nat)
  /-- LINK_UP (R303): A port's link comes up, corrections load and RX_EN and TX_EN are set. -/
  | linkUp (n speed fec : Nat) (train : Bool)
  /-- LINK_DOWN (R303): A port's link goes down, RX_EN and TX_EN clear and negotiation restarts. -/
  | linkDown (n : Nat)
  /-- ETH_LINK_TIMEOUT (R500): A speed whose link is not up within 500 ms is abandoned for the next lower one. -/
  | ethLinkTimeout (n : Nat) (e : EthEnd)
  /-- ETH_NEG_RETRY (R500): A failed port retries the whole negotiation every 2 s. -/
  | ethNegRetry (n : Nat)
  /-- RING_TAIL_WRITE (R332): A host write of RING_TAIL makes descriptors available, or is discarded at or above the ring size. -/
  | ringTailWrite (q : Nat) (w : Word)
  /-- RING_CFG_EN_WRITE (R342): Setting RING_CFG.EN checks the ring settings and reports a failure in REASON. -/
  | ringCfgEnWrite (q : Nat) (w : Word)
  /-- RING_STATUS_WRITE (R336): A W1C write clears RACE or NOBUF. -/
  | ringStatusWrite (q : Nat) (w : Word)
  /-- NX_QUAY_SET (R341): Sets port parameters, time-stamp corrections and negotiation settings. -/
  | nxQuaySet (b : Nat) (f : Fmt) (l : List QuaySet)
  /-- NX_QUAY_FILTER (R311): Sets a port's address filters. -/
  | nxQuayFilter (b : Nat) (f : Fmt) (l : List FilterSet)
  /-- NX_QUAY_GATE (R328): Checks and schedules a new gate list. -/
  | nxQuayGate (b : Nat) (f : Fmt) (entries : List (BitVec 8 × Nat)) (cycle base : Nat)
  /-- NX_FLOW_ADD (R316): Inserts a HOST or DROP flow entry, moving entries if needed. -/
  | nxFlowAdd (b : Nat) (f : Fmt) (t port vid ipv dst udp src : Nat) (ssrc : Word) (act : FlowAct) (tag : Nat)
  /-- NX_FLOW_DEL (R318): Deletes a HOST flow entry. -/
  | nxFlowDel (b : Nat) (f : Fmt)
  /-- NX_QUAY_STATS (R340): Returns port counters. -/
  | nxQuayStats (b : Nat) (f : Fmt)
  /-- NX_RXS_DEFINE (R341): Defines a receive stream. -/
  | nxRxsDefine (b : Nat) (f : Fmt) (l : List RxSet)
  /-- NX_RXS_SET (R320): Sets a DEFINED receive stream's parameters. -/
  | nxRxsSet (b : Nat) (f : Fmt) (l : List RxSet)
  /-- NX_RXS_ENABLE (R321): Enables a receive stream and inserts its flow entries. -/
  | nxRxsEnable (b : Nat) (f : Fmt)
  /-- NX_RXS_DISABLE (R341): Disables a receive stream and deletes its flow entries. -/
  | nxRxsDisable (b : Nat) (f : Fmt)
  /-- NX_RXS_FREE (R341): Frees a DEFINED receive stream. -/
  | nxRxsFree (b : Nat) (f : Fmt)
  /-- NX_RXS_STATS (R366): Returns receive stream counters. -/
  | nxRxsStats (b : Nat) (f : Fmt)
  /-- NX_TXS_DEFINE (R341): Defines a transmit stream. -/
  | nxTxsDefine (b : Nat) (f : Fmt) (l : List TxSet)
  /-- NX_TXS_SET (R320): Sets a DEFINED transmit stream's parameters. -/
  | nxTxsSet (b : Nat) (f : Fmt) (l : List TxSet)
  /-- NX_TXS_ENABLE (R341): Enables a transmit stream. -/
  | nxTxsEnable (b : Nat) (f : Fmt)
  /-- NX_TXS_DISABLE (R341): Disables a transmit stream. -/
  | nxTxsDisable (b : Nat) (f : Fmt)
  /-- NX_TXS_FREE (R341): Frees a DEFINED transmit stream. -/
  | nxTxsFree (b : Nat) (f : Fmt)
  /-- NX_TXS_STATS (R366): Returns transmit stream counters. -/
  | nxTxsStats (b : Nat) (f : Fmt)
  /-- WEIR_ARRIVAL (R348): A Weir unit judges a protected arrival, passing the first copy and discarding duplicates and out-of-window copies. -/
  | weirArrival (u : UnitRead) (ue : Bool)
  /-- WEIR_LEG_SILENT (R349): One leg silent for 100 ms while the other delivers raises WEIR_LEG_SILENT. -/
  | weirLegSilent (n : Nat) (legB : Bool) (dt : Nat)
  /-- WEIR_AUTH_FAIL_REPORT (R350): A Rime failure report clears the PASSED bit of the sequence. -/
  | weirAuthFailReport (u : Nat)
  /-- WEIR_TX_DUPLICATE (R351): A Weir unit writes a protected packet's leg A and leg B frames, discarding the copy for a down link. -/
  | weirTxDuplicate (u : Nat)
  /-- WEIR_CONTEXT_REBUILD (R368): The Icehouse rebuilds a poisoned Weir context. -/
  | weirContextRebuild (n : Nat)
  /-- ALIVE_TOGGLE (R354): Every 100 µs in SERVICE with a fresh alive timer, ALIVE_OUT toggles. -/
  | aliveToggle (fresh peer : Bool)
  /-- TANDEM_HELLO_RECEIVE (R502): A received hello updates peer presence and the role computation, resolving dual SOLO. -/
  | tandemHelloReceive (h : Hello) (lane0 lane1 : Bool) (c0 c1 : Nat)
  /-- MIRRORED_COMMAND (R356): The primary mirrors an accepted protected command over the link. -/
  | mirroredCommand (t : Nat) (h : NxHdr) (i : Instr)
  /-- STREAM_EPOCH_RECORD (R357): The primary sends SEQ_BASE and the epoch boundary of a protected stream. -/
  | streamEpochRecord (n base epoch : Nat)
  /-- INDEX_REPORT (R360): Every 1 ms the primary or survivor reports transmit slot high-water marks. -/
  | indexReport (marks : List (Nat × Nat))
  /-- LIFT_CHANNEL (R359): The primary snapshots a protected channel at boundary F and the joiner installs it. -/
  | liftChannel (c : Nat) (x : Snap)
  /-- LIFT_COMPLETE (R359): When every channel is lifted, the joiner enters STANDBY and takes leg B at the next packet boundary. -/
  | liftComplete (marks : List (Nat × Nat))
  /-- DRILL_SWAP (R365): Roles are exchanged at the scheduled packet boundary. -/
  | drillSwap (marks : List (Nat × Nat))
  /-- NX_TDM_SET (R502): Sets the Tandem role preference. -/
  | nxTdmSet (b : Nat) (f : Fmt) (pref : Nat)
  /-- NX_TDM_DRILL (R365): Schedules a SWAP or MUTE drill. -/
  | nxTdmDrill (b : Nat) (f : Fmt) (swap : Bool) (period : Nat)
  /-- NX_TDM_STATS (R366): Returns Tandem statistics. -/
  | nxTdmStats (b : Nat) (f : Fmt)
  /-- PTP_MESSAGE (R372): The PTP message engine takes a received PTP message for an instance or passes it to DEF_RING. -/
  | ptpMessage (n : Nat) (ecc : List (List Ecc)) (freq : Int)
  /-- DELAY_REQ_SEND (R373): An instance sends Delay_Req at its interval. -/
  | delayReqSend (x : Nat)
  /-- SERVO_STATE_TIMEOUT (R375): A servo enters LOCKED after 10 s within ±100 ns, or HOLDOVER after missing Syncs or the grandmaster. -/
  | servoStateTimeout (x : Nat)
  /-- PTP_NO_GM (R501): Three announceReceiptTimeout intervals of silence set the entry FAILED with 0x0840. -/
  | ptpNoGm (x : Nat)
  /-- MEDIA_TICK (R399): The media-clock generator emits a tick of a rate to its users. -/
  | mediaTick (i : Nat)
  /-- TB_TSQ_POP (R391): A POP whose SEQ matches the head removes it. -/
  | tbTsqPop (a : Agent) (n : Nat) (w : Word)
  /-- PPS_OUT_EDGE (R397): PPS_OUT of a domain rises at each whole second less PPS_COMP and falls after WIDTH. -/
  | ppsOutEdge (x : Nat)
  /-- PPS_IN_EDGE (R398): A rising PPS_IN edge is stamped, latched, counted, steers a PPS-sourced servo and applies a pending time of day. -/
  | ppsInEdge (x dt : Nat) (freq : Int)
  /-- NX_TB_DOMAIN_SET (R374): Sets a disabled instance's parameters. -/
  | nxTbDomainSet (b : Nat) (f : Fmt) (l : List TbSet)
  /-- NX_TB_DOMAIN_ENABLE (R501): Enables an instance and begins its negotiation. -/
  | nxTbDomainEnable (b : Nat) (f : Fmt)
  /-- NX_TB_DOMAIN_DISABLE (R403): Disables an instance. -/
  | nxTbDomainDisable (b : Nat) (f : Fmt)
  /-- NX_TB_SELECT (R378): Schedules a switch of the selected domain and sets SELECT_MODE, AUTO_WAIT and SWITCH_MAX. -/
  | nxTbSelect (b : Nat) (f : Fmt) (mode wait max_ : Option Nat)
  /-- NX_TB_PPS (R397): Sets PPS outputs and inputs. -/
  | nxTbPps (b : Nat) (f : Fmt) (outEn inEn : Option Bool) (width : Option Nat) (comp : Option Int)
  /-- NX_TB_SET_TOD (R398): Sets the time of a PPS or FREE sourced clock. -/
  | nxTbSetTod (b : Nat) (f : Fmt) (sec ns frac : Nat)
  /-- NX_TB_STATS (R403): Returns instance states, offsets and Timebase counters. -/
  | nxTbStats (b : Nat) (f : Fmt)
  /-- RIME_REQUEST (R419): A 64-byte request written to a reach's port is queued, the write held while the queue is full. -/
  | rimeRequest (r dom : Nat) (data : List Byte)
  /-- RIME_DISPATCH (R422): A request leaves the queue, is checked against the slot's hot part and goes to an engine. -/
  | rimeDispatch (r : Nat) (ue : RimeUe)
  /-- DERIVATION_DONE (R415): A cache-miss derivation of a slot's working material completes and the waiting request proceeds. -/
  | derivationDone (r k g : Nat)
  /-- RIME_REQUEST_DONE (R423): An engine finishes a request, writes output or zeros and posts the completion in slot order. -/
  | rimeRequestDone (r : UnitRead) (j : Nat)
  /-- NX_RIME_ROOT_PROG (R413): Programs a root key 0 to 3 into OTP once. -/
  | nxRimeRootProg (b : Nat) (f : Fmt) (root : Nat) (key : List Byte)
  /-- NX_RIME_KEY_SET (R416): Loads a slot's key, checking the check value and wrapping imported keys. -/
  | nxRimeKeySet (b : Nat) (f : Fmt) (mode dir kind root : Nat) (label : List Byte) (pin : Bool) (value : List Byte) (reach : Nat)
  /-- NX_RIME_KEY_CLEAR (R417): Empties a slot. -/
  | nxRimeKeyClear (b : Nat) (f : Fmt)
  /-- NX_RIME_KEY_GET (R431): Returns a slot's description, never its key. -/
  | nxRimeKeyGet (b : Nat) (f : Fmt)
  /-- NX_RIME_SET (R409): Sets the countermeasure STRENGTH. -/
  | nxRimeSet (b : Nat) (f : Fmt) (strength : Nat)
  /-- NX_RIME_XTS (R430): Runs an XTS sector operation on behalf of the host, as a long command. -/
  | nxRimeXts (b : Nat) (f : Fmt) (dec : Bool) (sector : Nat)
  /-- NX_RIME_STATS (R431): Returns Rime counters and reservations. -/
  | nxRimeStats (b : Nat) (f : Fmt)
  /-- FIRN_JOB (R440): A 64-byte job written to an engine's port is queued, the write held while the queue is full. -/
  | firnJob (e dom : Nat) (data : List Byte)
  /-- FIRN_JOB_DONE (R442): An engine finishes its head job, writes the completion record and posts the work item. -/
  | firnJobDone (e : UnitRead) (r : FirnRes) (ue : FirnUe)
  /-- FIRN_CTRL_WRITE (R32): Clearing RUN stops the engine; setting it runs it. -/
  | firnCtrlWrite (e : Nat) (w : Word)
  /-- NX_FIRN_STATS (R446): Returns Firn counters. -/
  | nxFirnStats (b : Nat) (f : Fmt)
  /-- SENSOR_READ (R516): Each millisecond the Icehouse reads the sensors and applies the temperature and voltage thresholds. -/
  | sensorRead (temps : List Int) (volts periods : List Nat) (holdup : Nat)
  /-- TEMP_TRIP (R516): A sensor at or above 110 °C for 1 ms raises TEMP_TRIP and halts the device. -/
  | tempTrip (i : Nat) (t : Int)
  /-- VOLT_RANGE (R516): A voltage outside its limits for 100 µs raises VOLT_RANGE, or RECOVERY for VDD_CORE low for 1 ms. -/
  | voltRange (i v : Nat) (ms : Bool)
  /-- RECOVERY_DONE (R519): The condition has ended for 1 s and RCV_DONE is set. -/
  | recoveryDone (bad : Bool)
  /-- ISLAND_SLOW (R30): An island more than 3 % slower than its recorded period for 1 s raises ISLAND_SLOW and requests a voltage step. -/
  | islandSlow (d : Nat)
  /-- ABLATION_CHECK (R526): Every 10 min Ablation scales island periods to 105 °C and raises V_ABL by one STEP if needed. -/
  | ablationCheck (slow : Option Nat) (proj : Nat)
  /-- PLOUGH_READ (R522): Plough reads a word, writes a corrected word back if unchanged, or counts an uncorrectable one. -/
  | ploughRead (m : PlMem) (w : Nat) (e : Ecc) (changed : Bool)
  /-- SOUNDING_RETRAIN (R523): Every 10 min, or on 5 °C change, Sounding retrains a channel and applies new settings between bursts. -/
  | soundingRetrain (c : Nat) (ok : Bool)
  /-- DRIFT_SNAPSHOT (R528): Every DRIFT_PERIOD a snapshot is stored and sent as a telemetry packet. -/
  | driftSnapshot (margin : Nat)
  /-- STRATA_SAMPLE (R530): A probe takes a sample, updating MIN, MAX, COUNT and its bin, or counts SKIP. -/
  | strataSample (p : Nat) (x : Int) (skip : Bool)
  /-- NX_STR_PROBE (R531): Sets or disables a probe and clears its results. -/
  | nxStrProbe (b : Nat) (f : Fmt) (x : Option ProbeSet)
  /-- NX_STR_READ (R531): Returns one probe's results as a snapshot, clearing them with CLEAR. -/
  | nxStrRead (b : Nat) (f : Fmt)
  /-- LOG_FLUSH (R542): A sector batch is written when full or FLUSH after its first record, compressed and optionally encrypted. -/
  | logFlush (r k : Nat)
  /-- HOLDUP_RECHECK (R544): A deferred flash operation is checked again every 10 ms. -/
  | holdupRecheck (v : Nat)
  /-- FLASH_OP_DONE (R545): A flash operation completes and is verified, retried once or retired to a spare. -/
  | flashOpDone (ok : Bool)
  /-- NX_ICE_SENSORS (R515): Returns the sensors, Ablation and hold-up states or a snapshot. -/
  | nxIceSensors (b : Nat) (f : Fmt) (snap : Option Nat)
  /-- NX_ICE_LOG_READ (R549): Copies log or trace records by DMA, decrypted and decompressed, as a long command. -/
  | nxIceLogRead (b : Nat) (f : Fmt) (kind first count : Nat)
  /-- NX_ICE_LOG_SET (R549): Sets and stores exit, logging and archive parameters. -/
  | nxIceLogSet (b : Nat) (f : Fmt) (l : List LogSet)
  /-- NX_ICE_HOLDUP (R544): Sets and stores the hold-up parameters. -/
  | nxIceHoldup (b : Nat) (f : Fmt) (p : HoldParams)
  /-- NX_FW_UPDATE (R546): Writes and verifies a firmware image into the other slot, as a long command. -/
  | nxFwUpdate (b : Nat) (f : Fmt) (ice : Bool) (size v : Nat)
  /-- NX_FW_ACTIVATE (R547): Writes the boot record naming the verified slot. -/
  | nxFwActivate (b : Nat) (f : Fmt)
  /-- NX_KEY_ENROLL (R548): Enrols or revokes an integrator key with a Gufaber certificate. -/
  | nxKeyEnroll (b : Nat) (f : Fmt) (good : Bool) (c : KeyCert)
  /-- NX_LPORT_SET (R505): Sets a local TDM/I2S port's parameters. -/
  | nxLportSet (b : Nat) (f : Fmt) (l : List LpSet)
  /-- NX_LPORT_STATS (R507): Returns a local port's entry and counters. -/
  | nxLportStats (b : Nat) (f : Fmt)
  /-- TDM_FRAME (R61): A TDM port frame is received whole into its flume or dropped and counted, and slave format detection advances. -/
  | tdmFrame (n : Nat) (ws : List Word) (b w m : Nat)
  /-- LPORT_NO_CLOCK (R506): Eight frame periods without a sync edge set the port FAILED and restart detection. -/
  | lportNoClock (n : Nat)
  /-- LPORT_UNLOCKED (R506): A frame rate off the media clock by more than 1 ppm over 10 s sets the port DEGRADED. -/
  | lportUnlocked (n : Nat)
  /-- TAP_FRAME_RECEIVE (R563): Nivo takes a tap frame, discards it on bad CRC or block, measures its slots and opens or closes usage. -/
  | tapFrameReceive (good : Bool) (now : Nat) (loud : List Nat) (eng : List (Nat × Nat × Int))
  /-- USAGE_LINK_CLOSE (R567): No frame for 100 ms closes open usage with cause LINK. -/
  | usageLinkClose (now : Nat)
  /-- SELECTION_RECEIVE (R560): Nivo receives a selection table, counts it, writes an AUDIT record and acknowledges. -/
  | selectionReceive (now : Nat)
  /-- MEASURE_INTERVAL (R566): At each INTERVAL boundary Nivo writes one MEASURE record per programme. -/
  | measureInterval (now : Nat) (order : List Nat)
  /-- NIVO_SEAL_N_CHANGE (R571): A change of NIVO_SEAL_N is audited and may end update mode. -/
  | nivoSealNChange (low : Bool) (now cause : Nat)
  /-- NIVO_UPD_N_CHANGE (R572): NIVO_UPD_N low with the seal broken enters update mode; high leaves it with a GAP record. -/
  | nivoUpdNChange (low : Bool) (now cause : Nat)
  /-- NIVO_FIRMWARE_ACTIVATE (R572): In update mode a verified image is activated, audited, the floor raised and Nivo restarted. -/
  | nivoFirmwareActivate (starts : Bool) (now : Nat)
  /-- NIVO_HOLDUP_LOW (R557): NIVO_HOLDUP_SENSE below the closing threshold writes closing USAGE records and stops flash operations. -/
  | nivoHoldupLow (now : Nat)
  /-- NIVO_POWER_ON (R568): VDD_NIVO rising resets Nivo with its clock free and TSRC 3. -/
  | nivoPowerOn (now : Nat)
  /-- NIVO_DIE_FAULT (R576): A fault in Nivo's processor, OTP or key store sets FAULT and stops signed records. -/
  | nivoDieFault (tap core : Bool) (level mac stage cell : Nat)
  /-- NIVO_I2C_SEQ_SELECT (R573): An I2C write of offset 0xFFFE with a SEQ selects the records shown in the window. -/
  | nivoI2cSeqSelect (q : Nat)
  /-- NIVO_STATE_POLL (R574): Every 100 ms the Icehouse reads NIVO_STATE and raises Nivo alarms. -/
  | nivoStatePoll (lock soon : Bool)
  /-- NX_NIVO_TAP (R560): Checks a tap selection table and sends it to Nivo, as a long command. -/
  | nxNivoTap (b : Nat) (f : Fmt) (t : TapTable)
  /-- NX_NIVO_INFO (R573): Returns Nivo's inspection registers, identifier, hash and certificate. -/
  | nxNivoInfo (b : Nat) (f : Fmt)
  /-- ICE_SRAM_UE (R517): An uncorrectable word found in Icehouse SRAM raises ICE_SRAM_UE and sends the device to HALTED. -/
  | iceSramUe (w : Nat)
  /-- MOD_US_INTERVAL_END (R461): When the MOD_US least interval since a vector's last raise runs out, a raise held back for a completion ring or DMA ring is made. -/
  | modUsIntervalEnd (src : ModSrc)
  /-- NIVO_I2C_UPDATE_WRITE (R572): In update mode a NIVO_I2C write carries Nivo image data or changes a legally relevant parameter, which is audited under event 0x0005. -/
  | nivoI2cUpdateWrite (w : NivoWr) (now : Nat)
  /-- FUNCTION_1_WRITE (R451): A write to function 1 is discarded with no other effect. -/
  | function1Write (off : Nat) (w : Word)
  /-- NX_COUNT_READ (R458): A read of NX_DB_BUSY or NX_BERTH_DROP returns the count and clears it. -/
  | nxCountRead (drop : Bool)
  /-- FLOE_FAULT_CNT_READ (R145): A read of FLOE_FAULT_CNT returns and clears the module fault count. -/
  | floeFaultCntRead (f : Nat)
  /-- FLOE_ECC_READ (R136): A read of FLOE_ECC returns and clears the memory error counts. -/
  | floeEccRead (f : Nat)
  /-- FLOE_RETIRED_READ (R14): A read of FLOE_RETIRED_LO returns the count, latches the high half and clears the pair. -/
  | floeRetiredRead (f : Nat)
  /-- FLOE_STALLS_READ (R129): A read of FLOE_STALLS returns and clears the bank-conflict count. -/
  | floeStallsRead (f : Nat)
  /-- FLM_CE_READ (R63): A read of FLM_CE returns and clears the corrected-error count. -/
  | flmCeRead (a : Agent) (i : Nat)
  /-- FLM_UE_READ (R64): A read of FLM_UE returns UE_SEEN and clears the uncorrectable count. -/
  | flmUeRead (a : Agent) (i : Nat)
  /-- LKP_INJ_DROP_READ (R199): A read of LKP_INJ_DROP returns and clears the count. -/
  | lkpInjDropRead (r : Nat)
  /-- LKP_PEAK_READ (R206): A Canal read of LKP_POUND or LKP_GQ returns the depth and clears PEAK. -/
  | lkpPeakRead (r : Nat) (group : Bool) (n : Nat)
  /-- LKP_COUNT_READ (R206): A Canal read of LKP_HOLD, TOW_LATE, BADDESC, POISON or GOV_MERGED returns and clears the count. -/
  | lkpCountRead (r n : Nat)
  /-- LKP_DISP_READ (R14): A Canal read of the LKP_DISP or LKP_GDISP low half latches the high half and clears the pair. -/
  | lkpDispRead (r : Nat) (group : Bool)
  /-- JCT_SLICE_COUNT_READ (R260): A read of JCT_SLICE_OVERRUN, SRC_LATE or UE returns and clears the count. -/
  | jctSliceCountRead (n k : Nat)
  /-- SLU_COUNT_READ (R302): A read of SLU_SAT, UE, SYNC_SLIP, SYNC_LATE or BADREQ returns and clears the count. -/
  | sluCountRead (l k : Nat)
  /-- SLU_SYNC_TICK_READ (R14): A read of SLU_SYNC_TICK_LO latches the high half. -/
  | sluSyncTickRead (hi : Bool)
  /-- RING_COUNT_READ (R14): A read of a ring counter pair's low half returns, latches and clears it. -/
  | ringCountRead (q k : Nat) (hi : Bool)
  /-- QUAY_COUNTER_READ (R340): A host read of a port counter pair's low half latches and clears the pair. -/
  | quayCounterRead (a : Agent) (n k : Nat) (hi mir : Bool)
  /-- WEIR_TDM_COUNT_READ (R366): A read of WEIR_TDM_CRC0, CRC1 or TAKEOVER returns and clears the count. -/
  | weirTdmCountRead (k : Nat)
  /-- TB_TSQ_COUNT_READ (R392): A read of TB_TSQ_OVF, UE, FLAG_IGN or ONESTEP_SKIP returns and clears the count. -/
  | tbTsqCountRead (a : Agent) (n k : Nat)
  /-- TB_TOD_NS_READ (R383): A read of a time's NS register latches its seconds and fraction. -/
  | tbTodNsRead (a : Agent) (x : Nat)
  /-- TB_OFFSET_AB_READ (R14): A read of TB_OFFSET_AB_LO latches the high half. -/
  | tbOffsetAbRead (a : Agent) (hi : Bool)
  /-- TB_PPS_IN_NS_READ (R398): A read of TB_PPS_IN_x_NS latches the seconds. -/
  | tbPpsInNsRead (a : Agent) (x : Nat)
  /-- TB_PPS_IN_CNT_READ (R398): A read of TB_PPS_IN_x_CNT returns and clears the edge count. -/
  | tbPpsInCntRead (a : Agent) (x : Nat)
  /-- RIME_COUNT_READ (R14): A read of RIME_REQ or a Rime failure counter returns and clears it. -/
  | rimeCountRead (r k : Nat) (hi : Bool)
  /-- FIRN_COUNT_READ (R14): A read of a Firn counter returns and clears it. -/
  | firnCountRead (e k : Nat) (hi : Bool)
  /-- STR_CNT_READ (R14): A read of STR_CNT_LO latches the high half. -/
  | strCntRead (a : Agent) (p : Nat) (hi : Bool)
  /-- PCIE_PERST_N (R485): PCIE_PERST_N alone repeats PCIe link training and holds device writes to the host until the link returns. -/
  | pciePerstN
  /-- FUNCTION_LEVEL_RESET_1 (R450): A Function Level Reset of function 1 has no effect on Nivo or function 0. -/
  | functionLevelReset1
  /-- DEV_UNMAPPED_READ (R454): A read of DEV_UNMAPPED returns the count and clears it. -/
  | devUnmappedRead
  /-- TOWPATH_TICK (R193): At each tick boundary the due items become due and are transferred to admission in order. -/
  | towpathTick
  /-- SLU_SYNC_IGN_READ (R296): A read of SLU_SYNC_IGN returns and clears the count. -/
  | sluSyncIgnRead
  /-- PEER_LOST (R360): No toggle on ALIVE_IN for 1 ms: the standby enters SOLO, raises leg A marks and takes over leg A. -/
  | peerLost
  /-- TANDEM_LINK_LOSS (R354): Loss of the TANDEM link while ALIVE_IN toggles raises TANDEM_LINK and holds roles. -/
  | tandemLinkLoss
  /-- TANDEM_HELLO_SEND (R502): Every 10 ms a device sends a hello record. -/
  | tandemHelloSend
  /-- MIRROR_APPLY (R356): Both devices apply a mirrored command at the first frame boundary at least 1 ms after execution. -/
  | mirrorApply
  /-- LIFT_ABORT (R363): The TANDEM link fails during LIFTING and the joiner discards the lift and leaves SERVICE. -/
  | liftAbort
  /-- MUTE_END (R365): Leg A resumes at the first packet boundary after the MUTE period. -/
  | muteEnd
  /-- SWITCH_INSTANT (R378): At S the selected domain changes and a slew begins. -/
  | switchInstant
  /-- SLEW_END (R379): The slew brings Δ within 1 ns, the selected time is set equal to the target and TB_SWITCH_DONE posted. -/
  | slewEnd
  /-- AUTO_SWITCH (R380): After AUTO_WAIT with the selected domain unlocked and the other LOCKED, the Timebase switches and posts TB_AUTO_SWITCH. -/
  | autoSwitch
  /-- TB_REFCLK_LOST (R402): TB_REFCLK absent for 10 µs raises TB_REFCLK_LOST and sends the device to RECOVERY. -/
  | tbRefclkLost
  /-- ICE_LOCKSTEP (R517): A lockstep mismatch halts the device and stops the Icehouse. -/
  | iceLockstep
  /-- DEV_HEARTBEAT (R453): Every 1 ms the Icehouse increases DEV_HEARTBEAT. -/
  | devHeartbeat
  /-- SOUNDING_CALIBRATE (R524): Every 60 s Sounding calibrates the sensors and monitors against their trims. -/
  | soundingCalibrate
  /-- ALARM_SECOND (R534): At each whole second every pending alarm record with a count is sent. -/
  | alarmSecond
  /-- LOG_SECOND (R537): At each whole second with suppressions, a SUPPRESSED record is queued. -/
  | logSecond
  /-- PWRFAIL_N_FALL (R545): PWRFAIL_N falling stops new flash operations and sends PWRFAIL at once. -/
  | pwrfailNFall
  /-- PWRFAIL_N_RISE (R545): PWRFAIL_N high for 100 ms lets flash operations resume. -/
  | pwrfailNRise
  /-- TAP_GATHER (R562): At each block boundary a gather item per reach copies the tapped slots into the tap frame. -/
  | tapGather
  /-- TAP_FRAME_SEND (R563): The tap frame of block j leaves the main die before the next boundary. -/
  | tapFrameSend
  /-- SELECTION_ACK (R560): The acknowledgement arrives and later tap frames carry the new GEN. -/
  | selectionAck
  /-- SELECTION_RETRY (R560): Without acknowledgement for 100 ms the Icehouse resends the GEN, failing after three tries. -/
  | selectionRetry
deriving DecidableEq, Repr

end Sys2Proof
end

