-- ==== Sys2Proof/Decode.lean ====
section
/-! DEFINITION. Commands spelled by a word: none, since no row of the command table has bits. -/

namespace Sys2Proof

/-- The command a word of nbits bits spells by the table's bits. No row gives bits: commands come as berths, register
accesses, frames and events (log 1), so no word spells one. -/
def decodeTableWord (_nbits _w : Nat) : Option Instr := none

end Sys2Proof
end

