-- ==== Sys2Proof/Config.lean ====
section
/-! DEFINITION. Values the spec leaves open: opaque constants, of which nothing can be proved but their types. -/

namespace Sys2Proof.Config

/-- KIND of the work items a unit of the main die posts by itself, by unit: 0 Basin manager, 1 Sluice, 2 Rime, 3 Firn,
4 Junction, 5 tap gather (no rule states it). -/
opaque kind : Nat → BitVec 6

/-- Value n drawn where a rule leaves a value open. -/
opaque draw : Nat → Nat

/-- PRIO of the work items a unit posts for contexts the host bound (no rule states it), by unit as in kind. -/
opaque prio : Nat → BitVec 4

/-- CHECK of a Firn job that does not end OK, the n-th value drawn (R442 gives it for data that was compressed or expanded). -/
opaque failCheck : Nat → BitVec 32

/-- Root key n (4 to 7) generated from the entropy source at device-level reset g (R413). -/
opaque rootKey : Nat → Nat → BitVec 256

/-- Check value of an XTS slot with the given working material: R418 does not say which of its keys it is taken under. -/
opaque xtsCheck : List (BitVec 8) → BitVec 64

/-- Word n (0 to 1,775) of the Sluice's standard coefficients, which the spec does not list. -/
opaque stdCoef : Nat → BitVec 32

/-- SHIFT of standard profile k, which the spec does not list. -/
opaque stdShift : Nat → BitVec 5

/-- Source address of the frames port n sends by itself (no rule states it). -/
opaque srcMac : Nat → BitVec 48

/-- Port identity of PTP instance x (no rule states it). -/
opaque ptpIdent : Nat → BitVec 80

/-- Source address of the Delay_Req messages port n sends over IP version v (no rule states it). -/
opaque ptpIp : Nat → Nat → BitVec 128

/-- Identification, flags and fragment offset of the IPv4 headers port n sends (no rule states them). -/
opaque ipIdent : Nat → BitVec 32

/-- Media frames over IPv4 carry a UDP checksum (no rule states it). -/
opaque udpSum : Bool

/-- MOD_ID of the Floe module that serves a function (R112 names none): 1 line canceller, 2 acoustic canceller, 3 non-linear
processing, 4 tone detection, 5 voice activity, 6 and up the codecs in the order of R93. -/
opaque fnModule : Nat → BitVec 16

/-- Channel c uses the loaded module with MOD_ID m beside its standard functions (no channel parameter names a module). -/
opaque chanUses : Nat → Nat → Bool

/-- MTU of the management port in bytes of UDP payload (no rule states it). -/
opaque mgmtMtu : Nat

/-- Nivo's legally relevant software identifier, 32 bytes (no rule states it). -/
opaque nivoIdent : List (BitVec 8)

/-- SHA-256 of the Nivo image the factory put into a slot. -/
opaque nivoHash : Nat → List (BitVec 8)

/-- Nivo's device certificate, 1,024 bytes (R556: made at the factory). -/
opaque nivoCert : List (BitVec 8)

/-- The bytes of a selection table as the Icehouse sends it: entries, INTERVAL, TAP_GROUP, GEN (no rule states the layout). -/
opaque tapBytes : List (List Nat) → Nat → Nat → Nat → List (BitVec 8)

/-- The signature r, s of a record's first 64 bytes under the Nivo signing key, which never leaves the die (R556, R569). -/
opaque nivoSign : List (BitVec 8) → BitVec 512

/-- What NIVO_SEQ_LAST and NIVO_SEQ_OLDEST read while no record is stored (no rule states it). -/
opaque nivoNoSeq : Nat

/-- Loudness, in 0.01 LUFS, of a weighted K-filtered energy summed over n blocks (R564 names the Recommendation). -/
opaque lufs : Nat → Nat → Int

/-- Such an energy lies above the absolute gate of −70 LUFS (R564). -/
opaque aboveGate : Nat → Nat → Bool

/-- The factor of a gain of n tenths of a dB, in 2^-16, but for 0.0 dB, which is exactly 1 (R83 gives the gains in dB alone). -/
opaque gain : Int → Nat

/-- The level, in 0.1 dB, of a mean square of samples (R83 and R111 give no arithmetic). -/
opaque level : Nat → Int

/-- The weight in 2^-16 of the new signal at sample i of a cross-fade or blend of n samples (R92 and R106 give no shape). -/
opaque fade : Nat → Nat → BitVec 16

/-- A sample that does not fit n bits exactly is rounded up, else down (no rule states it). -/
opaque roundUp : Nat → Int → Bool

/-- The DEFLATE stream an engine makes, by COMPAT_Q48, FORMAT, LEVEL and input: its choice of matches and codes (R436). -/
opaque deflate : Bool → Nat → Nat → List (BitVec 8) → List (BitVec 8)

/-- Sample n of comfort noise of a level and bands, draw k (R92 fixes level and bands alone). -/
opaque comfort : List Int → Nat → Nat → Int

/-- Sample n of the comfort noise that a SID payload describes, draw k (R99). -/
opaque sidNoise : List (BitVec 8) → Nat → Nat → Int

/-- A DTMF pair between what R101 accepts and what it rejects, by its deviations and levels, is taken. -/
opaque dtmfEdge : Int → Int → Int → Int → Bool

/-- An AES3 word of a zero sample with the validity bit set to invalid (R105 gives no layout). -/
opaque aesInvalid : BitVec 64

end Sys2Proof.Config
end

