-- ==== Sys2Proof/Machine/State.lean ====
section
/-! DEFINITION. The state of the Sprineel Q96, its queue of waiting commands, and the reasons a step can stop. -/

namespace Sys2Proof.Machine

/-- The whole device. -/
structure State where
  /-- commands and events waiting, first in, first out. -/
  pending : List Instr
  dev     : Dev
  pcie    : Pcie
  msix    : Msix
  nx      : Norux
  modu    : Moderation
  neg     : Neg
  /-- bytes the device has written to host memory, by bus address. -/
  hostMem : List (Nat × Byte)
  floes   : Tab Floe
  fmem    : Tab FloeMem
  /-- loaded modules. -/
  mods    : List Module
  flumes  : Tab Flume
  fab     : Fabric
  lkp     : Lkp
  media   : Media
  jct     : Junction
  slu     : Sluice
  net     : Net
  tdm     : Tandem
  /-- mirrored commands waiting for their boundary: its 48 kHz tick, the header, the command (R356). -/
  mirror  : List (Nat × NxHdr × Instr)
  /-- accepted commands the primary has still to send over the link. -/
  mirrorOut : List (Nat × NxHdr × Instr)
  tb      : Timebase
  rime    : Rime
  firn    : Tab FirnEng
  ice     : Ice
  tap     : TapSide
  nivo    : Nivo
  nivoFw  : NivoFw
  /-- the model's own counter of free values drawn so far. -/
  free    : Nat
deriving DecidableEq, Repr

/-- Why a command stops the run. -/
inductive Fault where
  /-- raised by no meaning of this model: every command and event has the effect the spec gives it (safe). -/
  | none
deriving DecidableEq, Repr

/-- Why a command has no meaning here. -/
inductive Refusal where
  /-- raised by the dispatcher for a command not yet given its meaning (safe). -/
  | notModelled (mnemonic : String)
deriving DecidableEq, Repr

/-- The device before the first rising edge of RESET_N: every register at its Reset column value (R15); every table
empty, which stands for its reset values. -/
def State.reset : State :=
  { pending := [], dev := Dev.reset, pcie := Pcie.reset, msix := Msix.reset, nx := Norux.reset,
    modu := Moderation.reset, neg := Neg.reset, hostMem := [], floes := [], fmem := [], mods := [], flumes := [],
    fab := Fabric.reset, lkp := Lkp.reset, media := Media.reset, jct := Junction.reset, slu := Sluice.reset,
    net := Net.reset, tdm := Tandem.reset, mirror := [], mirrorOut := [], tb := Timebase.reset,
    rime := Rime.reset, firn := [], ice := Ice.reset, tap := TapSide.reset, nivo := Nivo.reset,
    nivoFw := NivoFw.reset, free := 0 }

end Sys2Proof.Machine
end

