-- ==== Sys2Proof/Machine/Tab.lean ====
section
/-! DEFINITION. Sparse tables, bytes and bit fields: the plain data operations every unit uses. -/

namespace Sys2Proof.Machine

/-- Entry k of a sparse table whose unlisted entries hold d. -/
def tabGet {α : Type} (d : α) : List (Nat × α) → Nat → α
  | [], _ => d
  | (i, v) :: t, k => if i = k then v else tabGet d t k

/-- Insert (k, v) into a list rising in its numbers, in place of any entry k. -/
def tabPut {α : Type} (k : Nat) (v : α) : List (Nat × α) → List (Nat × α)
  | [] => [(k, v)]
  | (i, w) :: t => if k < i then (k, v) :: (i, w) :: t else if k = i then (k, v) :: t else (i, w) :: tabPut k v t

/-- Remove entry k. -/
def tabDel {α : Type} (k : Nat) : List (Nat × α) → List (Nat × α)
  | [] => []
  | (i, w) :: t => if i = k then tabDel k t else (i, w) :: tabDel k t

/-- Write entry k; writing the value an unlisted entry holds removes the entry, so equal tables are equal lists. -/
def tabSet {α : Type} [DecidableEq α] (d : α) (t : List (Nat × α)) (k : Nat) (v : α) : List (Nat × α) :=
  if v = d then tabDel k t else tabPut k v t

/-- Change entry k by f. -/
def tabMod {α : Type} [DecidableEq α] (d : α) (t : List (Nat × α)) (k : Nat) (f : α → α) : List (Nat × α) :=
  tabSet d t k (f (tabGet d t k))

/-- The canonical form: numbers strictly rising and no entry equal to the default. -/
def tabWf {α : Type} [DecidableEq α] (d : α) : List (Nat × α) → Bool
  | [] => true
  | [(_, v)] => decide (v ≠ d)
  | (i, v) :: (j, w) :: t => decide (v ≠ d) && decide (i < j) && tabWf d ((j, w) :: t)

/-- The first n numbers from a on. -/
def numsFrom (a : Nat) : Nat → List Nat
  | 0 => []
  | n + 1 => a :: numsFrom (a + 1) n

/-- 0, 1, …, n − 1. -/
def nums (n : Nat) : List Nat := numsFrom 0 n

/-- The least number not in l, at most n. -/
def leastFree (l : List Nat) (n : Nat) : Option Nat := (nums n).find? fun k => !l.contains k

/-- n as k bytes, least significant first. -/
def leBytes (n : Nat) : Nat → List Byte
  | 0 => []
  | k + 1 => BitVec.ofNat 8 n :: leBytes (n / 256) k

/-- n as k bytes, most significant first. -/
def beBytes (n k : Nat) : List Byte := (leBytes n k).reverse

/-- The number little-endian bytes spell. -/
def ofLe : List Byte → Nat
  | [] => 0
  | b :: t => b.toNat + 256 * ofLe t

/-- The number big-endian bytes spell. -/
def ofBe (l : List Byte) : Nat := ofLe l.reverse

/-- Read n bytes from a byte table; unlisted bytes read as zero (log 3). -/
def readBytes (m : List (Nat × Byte)) (a n : Nat) : List Byte := (numsFrom a n).map (tabGet 0 m)

/-- Write bytes to a byte table from address a on. -/
def writeBytes (m : List (Nat × Byte)) (a : Nat) : List Byte → List (Nat × Byte)
  | [] => m
  | b :: t => writeBytes (tabSet 0 m a b) (a + 1) t

/-- A counter that saturates at 2^32 − 1. -/
def sat32 (n : Nat) : Nat := min n 0xFFFFFFFF

/-- A counter that saturates at 2^64 − 1. -/
def sat64 (n : Nat) : Nat := min n 0xFFFFFFFFFFFFFFFF

/-- Add one to counter k of a table of saturating 64-bit counters. -/
def bump (t : List (Nat × Nat)) (k : Nat) (n : Nat := 1) : List (Nat × Nat) := tabMod 0 t k fun c => sat64 (c + n)

/-- Bits [hi:lo] of a number. -/
def bitsOf (n hi lo : Nat) : Nat := n / 2 ^ lo % 2 ^ (hi - lo + 1)

/-- Bit i of a number. -/
def bitOf (n i : Nat) : Bool := n.testBit i

/-- A truth value as 0 or 1. -/
def b2n (b : Bool) : Nat := if b then 1 else 0

/-- x saturated to a signed number of w bits. -/
def satS (w : Nat) (x : Int) : Int := max (-(2 ^ (w - 1) : Int)) (min x (2 ^ (w - 1) - 1))

/-- n rounded up to a multiple of k. -/
def roundUp (n k : Nat) : Nat := (n + k - 1) / k * k

/-- n divided by k, rounded up. -/
def ceilDiv (n k : Nat) : Nat := (n + k - 1) / k

/-- Add k to a list of numbers without repeats. -/
def addOnce (l : List Nat) (k : Nat) : List Nat := if l.contains k then l else l ++ [k]

/-- Cut or pad to n bytes. -/
def fitTo (n : Nat) (l : List Byte) : List Byte := (l ++ List.replicate (n - l.length) 0).take n

end Sys2Proof.Machine
end

