-- ==== Sys2Proof/Machine/Ops.lean ====
section
/-! DEFINITION. The operations every unit shares: fault sites, alarms, logs and traces, channel and unit events, the
completion ring, negotiation entries and Canal memory (chapters 00, 01, 03, 15, 16, 17). -/

namespace Sys2Proof.Machine

/-- The three outcomes of a command on this device. -/
abbrev Out := Host.Outcome State Fault Refusal

/-! ## Changing one unit -/

/-- Change the dev part of the state. -/
def modDev (s : State) (g : Dev → Dev) : State := { s with dev := g s.dev }
/-- Change the pcie part of the state. -/
def modPcie (s : State) (g : Pcie → Pcie) : State := { s with pcie := g s.pcie }
/-- Change the msix part of the state. -/
def modMsix (s : State) (g : Msix → Msix) : State := { s with msix := g s.msix }
/-- Change the nx part of the state. -/
def modNx (s : State) (g : Norux → Norux) : State := { s with nx := g s.nx }
/-- Change the fab part of the state. -/
def modFab (s : State) (g : Fabric → Fabric) : State := { s with fab := g s.fab }
/-- Change the lkp part of the state. -/
def modLkp (s : State) (g : Lkp → Lkp) : State := { s with lkp := g s.lkp }
/-- Change the media part of the state. -/
def modMedia (s : State) (g : Media → Media) : State := { s with media := g s.media }
/-- Change the jct part of the state. -/
def modJct (s : State) (g : Junction → Junction) : State := { s with jct := g s.jct }
/-- Change the slu part of the state. -/
def modSlu (s : State) (g : Sluice → Sluice) : State := { s with slu := g s.slu }
/-- Change the net part of the state. -/
def modNet (s : State) (g : Net → Net) : State := { s with net := g s.net }
/-- Change the tdm part of the state. -/
def modTdm (s : State) (g : Tandem → Tandem) : State := { s with tdm := g s.tdm }
/-- Change the tb part of the state. -/
def modTb (s : State) (g : Timebase → Timebase) : State := { s with tb := g s.tb }
/-- Change the rime part of the state. -/
def modRime (s : State) (g : Rime → Rime) : State := { s with rime := g s.rime }
/-- Change the ice part of the state. -/
def modIce (s : State) (g : Ice → Ice) : State := { s with ice := g s.ice }
/-- Change the tap part of the state. -/
def modTap (s : State) (g : TapSide → TapSide) : State := { s with tap := g s.tap }
/-- Change the nivo part of the state. -/
def modNivo (s : State) (g : Nivo → Nivo) : State := { s with nivo := g s.nivo }
/-- Change the nivoFw part of the state. -/
def modNivoFw (s : State) (g : NivoFw → NivoFw) : State := { s with nivoFw := g s.nivoFw }

/-! ## Times -/

/-- Selected time in nanoseconds (R466). -/
def nowNs (s : State) : Nat := s.tb.sel / 65536
/-- Units of 2^-16 ns in one second. -/
def unitsPerSec : Nat := 65536000000000
/-- Ticks of f Hz passed at time t (R399). -/
def ticksOf (f t : Nat) : Nat := t * f / unitsPerSec
/-- The 48 kHz tick count now, as TIME of a channel event (R109). -/
def tick48 (s : State) : Nat := ticksOf 48000 s.tb.sel
/-- The instant of tick k of f Hz, rounded up to a unit (R399). -/
def tickTime (f k : Nat) : Nat := ceilDiv (k * unitsPerSec) f

/-! ## Fault sites (R19-R25) -/

/-- The reach of a timing domain; none for the centre and the Nivo die (R25). -/
def domainReach (d : Nat) : Option Nat :=
  if d < 96 then some (d / 24) else if d < 128 then some ((d - 96) / 8) else if d < 144 then some ((d - 128) / 4)
  else if d < 148 then some (d - 144) else if d < 156 then some ((d - 148) / 2)
  else if d < 164 then some ((d - 156) / 2) else if d < 168 then some (d - 164)
  else if d < 172 then some (d - 168) else if d < 180 then some ((d - 172) / 2)
  else if d < 184 then some (d - 180) else if d < 192 then some ((d - 184) / 2)
  else if 198 ≤ d ∧ d < 206 then some ((d - 198) / 2) else if 212 ≤ d ∧ d < 220 then some ((d - 212) / 2)
  else if 222 ≤ d ∧ d < 230 then some ((d - 222) / 2) else none

/-- Fault site words 0 (low) and 1 (high) (R20). -/
def siteOf (level die central reach domain macro_ stage cell : Nat) : DWord :=
  BitVec.ofNat 64 (level * 2 ^ 29 + die * 2 ^ 28 + central * 2 ^ 27 + reach * 2 ^ 25 + domain * 2 ^ 16 + macro_
    + (stage * 2 ^ 8 + cell) * 2 ^ 32)

/-- A main-die part at levels 1 to 4: CENTRAL and REACH follow from its domain (R20, R24, R25). -/
def sitePart (level domain macro_ stage cell : Nat) : DWord :=
  match domainReach domain with
  | some r => siteOf level 0 0 r domain macro_ stage cell
  | none => siteOf level 0 1 0 domain macro_ stage cell

/-- A whole island, level 4. -/
def siteIsland (d : Nat) : DWord := sitePart 4 d 0xFFFF 0xFFFFFF 0xFF
/-- A macro, level 3. -/
def siteMacro (d m : Nat) : DWord := sitePart 3 d m 0xFFFFFF 0xFF
/-- A bit of a stage or memory word, level 1; a (72,64) word has bits 0 to 71. -/
def siteBit (d m st bit : Nat) : DWord := sitePart 1 d m st (min bit 71)
/-- A stage or memory word, level 2. -/
def siteStage (d m st : Nat) : DWord := sitePart 2 d m st 0xFF
/-- A reach, level 5. -/
def siteReach (r : Nat) : DWord := siteOf 5 0 0 r 0x1FF 0xFFFF 0xFFFFFF 0xFF
/-- The main die, level 6. -/
def siteDie : DWord := siteOf 6 0 1 0 0x1FF 0xFFFF 0xFFFFFF 0xFF
/-- The package, level 7. -/
def sitePackage : DWord := siteOf 7 0 1 0 0x1FF 0xFFFF 0xFFFFFF 0xFF
/-- No site (R535). -/
def noSite : DWord := BitVec.allOnes 64

/-- Object number of class and index (R469). -/
def objNo (cls idx : Nat) : Word := BitVec.ofNat 32 (cls * 2 ^ 24 + idx)
/-- DETAIL_OBJ naming no object (R465). -/
def noObj : Word := 0xFFFFFFFF

/-! ## Alarms (R533, R534) -/

/-- Severity of an alarm code (R533, R574). -/
def alarmSev (c : Nat) : Nat :=
  if [0x01, 0x02, 0x04, 0x05, 0x08, 0x11, 0x45, 0x4A, 0x50, 0x65].contains c then 2
  else if [0x09, 0x0B, 0x10, 0x28, 0x40, 0x48, 0x49, 0x54, 0x61, 0x62, 0x63].contains c then 4 else 3

/-- A record takes another occurrence: COUNT, LAST, LAST_OBJECT and the site; the first of the record also sets FIRST,
OBJECT and ARG (R534, R535). -/
def AlarmRec.again (r : AlarmRec) (obj : Word) (arg site : DWord) (now : Nat) : AlarmRec :=
  if r.count = 0 then
    { r with count := 1, object := obj, arg := arg, first := now, last := now, site := site, lastObj := obj }
  else { r with count := sat32 (r.count + 1), last := now, site := site, lastObj := obj }

/-- One exit notes an occurrence: a code not pending becomes due at once, a pending one goes on counting (R534). -/
def LaneExit.alarm (e : LaneExit) (code : Nat) (obj : Word) (arg site : DWord) (now : Nat) : LaneExit :=
  if !e.en || decide (e.minSev < alarmSev code) then e
  else if e.pend.any (fun r => r.code == code) then
    { e with pend := e.pend.map fun r => if r.code == code then r.again obj arg site now else r }
  else
    { e with pend := e.pend ++ [{ code := code, count := 1, object := obj, arg := arg, first := now, last := now,
                                   site := site, lastObj := obj, due := true }] }

/-- Apply f to the three exits. -/
def Lanes.each (l : Lanes) (f : LaneExit → LaneExit) : Lanes :=
  { l with ring := f l.ring, syslog := f l.syslog, flash := f l.flash }

/-- Change the lanes. -/
def modLanes (s : State) (f : Lanes → Lanes) : State := { s with ice := { s.ice with lanes := f s.ice.lanes } }

/-- An alarm is raised on every exit; none is raised once the Icehouse has stopped (R517, R534). -/
def alarm (s : State) (code : Nat) (obj : Word) (arg : DWord) (site : DWord) : State :=
  if s.dev.iceRuns then modLanes s fun l => l.each fun e => e.alarm code obj arg site (nowNs s) else s

/-- At a whole second a record with a count becomes due, and one that stayed at zero stops being pending (R534). -/
def LaneExit.second (e : LaneExit) : LaneExit :=
  { e with pend := (e.pend.filter fun r => r.due || decide (0 < r.count)).map fun r => { r with due := true } }

/-! ## Logs (R536-R538) -/

/-- An exit queues a log record; 32,768 behind, it skips the oldest it has not taken (R538). -/
def LaneExit.log (e : LaneExit) (r : LogRec) (now : Nat) : LaneExit :=
  if !e.en || decide (e.minSev < r.sev) then e
  else if e.logs.length < 32768 then { e with logs := e.logs ++ [r] }
  else { e with logs := e.logs.drop 1 ++ [r], skipped := e.skipped + 1,
                skFirst := if e.skipped = 0 then now else e.skFirst, skLast := now }

/-- The flash exit keeps only WARNING and above while a sector wears (R527). -/
def flashTakes (s : State) (sev : Nat) : Bool := !s.ice.flash.wear || decide (sev ≤ 4)

/-- Put a record into the log queue without a token. -/
def queueLog (s : State) (r : LogRec) : State :=
  let t := flashTakes s r.sev
  modLanes s fun l => { l with ring := l.ring.log r (nowNs s), syslog := l.syslog.log r (nowNs s),
                               flash := if t then l.flash.log r (nowNs s) else l.flash }

/-- A log record passes the token bucket or is counted as suppressed (R537). -/
def logRec (s : State) (code sev : Nat) (obj : Word) (data : List Byte) : State :=
  if !s.dev.iceRuns then s
  else if 0 < s.ice.lanes.tokens then
    queueLog (modLanes s fun l => { l with tokens := l.tokens - 1 })
      { code := code, sev := sev, object := obj, time := nowNs s, data := data }
  else modLanes s fun l => { l with supp := l.supp + 1, suppFirst := if l.supp = 0 then nowNs s else l.suppFirst,
                                    suppLast := nowNs s }

/-- The hardware fault record: the fault's site (R490, R536; its unit counters have no stated layout, log 69). -/
def hwFault (s : State) (obj : Word) (site : DWord) : State := logRec s 3 5 obj (leBytes site.toNat 8)

/-! ## Traces (R539) -/

/-- Records the trace staging partition of Névé holds, in the sizes in force (R44, R539). -/
def traceCap (s : State) : Nat := s.fab.parts.getD 5 0 * 1024 / 32

/-- A trace record of source src is staged, or dropped and counted when the staging partition is full (R539). -/
def trace (s : State) (src : Nat) (arg : Nat) : State :=
  if !bitOf s.ice.params.traceMask src then s
  else if s.ice.lanes.stage.length < traceCap s then
    modLanes s fun l => { l with stage := l.stage ++ [{ seq := l.traceSeq, src := src, arg := BitVec.ofNat 64 arg,
                                                        gap := l.traceGap, time := nowNs s }],
                                 traceSeq := l.traceSeq + 1, traceGap := 0 }
  else modLanes s fun l => { l with traceLost := sat64 (l.traceLost + 1), traceGap := l.traceGap + 1,
                                    traceSeq := l.traceSeq + 1 }

/-- The 32 bytes of a trace record (R539; their order beside the sequence number is the model's, log 115). -/
def traceBytes (r : TraceRec) : List Byte :=
  leBytes r.seq 8 ++ leBytes r.time 8 ++ leBytes r.arg.toNat 8 ++ leBytes r.src 1 ++ leBytes (b2n (0 < r.gap)) 1 ++ leBytes 0 2
    ++ leBytes r.gap 4

/-- Records join region k's batch. -/
def batchAdd (s : State) (k : Nat) (l : List (List Byte)) : State :=
  let f := s.ice.flash
  let b := tabMod Batch.reset f.batches k fun b => { b with recs := b.recs ++ l }
  { s with ice := { s.ice with flash := { f with batches := b } } }

/-- Staged records move to the 64 MiB ring, which overwrites its oldest, and with TRACE_FLASH to the flash (R539, R540). -/
def traceMove (s : State) : State :=
  let s := if s.ice.params.traceFlash then batchAdd s 2 (s.ice.lanes.stage.map traceBytes) else s
  modLanes s fun l =>
    let r := l.traceRing ++ l.stage
    { l with stage := [], traceRing := r.drop (r.length - 2097152) }

/-! ## Unit and channel events (R466, R109, R110) -/

/-- A unit event waits for the ring (R466, R467). -/
def unitEv (s : State) (code : Nat) (obj : Word) (arg : Nat) (more : List (Nat × Nat) := []) : State :=
  let e : UnitEv := { time := nowNs s, code := code, object := obj, arg := BitVec.ofNat 64 arg, more := more }
  modNx s fun n => { n with unitQ := n.unitQ ++ [e] }

/-- Channel c. -/
def chanOf (s : State) (c : Nat) : Chan := tabGet Chan.reset s.media.chans c
/-- Change channel c. -/
def modChan (s : State) (c : Nat) (f : Chan → Chan) : State :=
  { s with media := { s.media with chans := tabMod Chan.reset s.media.chans c f } }
/-- Count in channel statistic k of R111. -/
def chanCount (s : State) (c k : Nat) (n : Nat := 1) : State :=
  modChan s c fun ch => { ch with ctr := bump ch.ctr k n }

/-- Audio state of channel c. -/
def dspOf (s : State) (c : Nat) : Dsp := tabGet Dsp.reset s.media.dsp c
/-- Change it. -/
def modDsp (s : State) (c : Nat) (f : Dsp → Dsp) : State :=
  { s with media := { s.media with dsp := tabMod Dsp.reset s.media.dsp c f } }

/-- A channel event of media tick t is queued, 16 at most for each channel, or counted in EVT_OVERFLOW; the next one queued carries
GAP and LOST (R109, R110). -/
def chanEvAt (s : State) (c code : Nat) (tx conc : Bool) (arg : Int) (t : Nat) : State :=
  if 16 ≤ (s.nx.chanQ.filter fun e => e.chan == c).length then
    modChan s c fun ch => { ch with ctr := bump ch.ctr 12, evtLost := ch.evtLost + 1 }
  else
    let lost := (chanOf s c).evtLost
    let s := modChan s c fun ch => { ch with evtLost := 0 }
    let e : ChanEv :=
      { chan := c, code := code, tx := tx, concealed := conc, gap := decide (0 < lost), lost := min lost 255,
        arg := BitVec.ofInt 16 arg, time := t, made := nowNs s }
    modNx s fun n => { n with chanQ := n.chanQ ++ [e] }
/-- A channel event of now. -/
def chanEv (s : State) (c code : Nat) (tx conc : Bool) (arg : Int) : State := chanEvAt s c code tx conc arg (tick48 s)

/-- The number of a channel state (R616). -/
def ChanSt.no : ChanSt → Nat
  | .free => 0 | .defined => 1 | .armed => 2 | .running => 3 | .draining => 4 | .faulted => 5

/-- A CHAN_STATE event naming the channel's present state (R109). -/
def chanStateEv (s : State) (c : Nat) : State := chanEv s c 0x20 false false (chanOf s c).st.no

/-! ## Negotiation entries (R491, R492) -/

/-- PARTNER and INDEX of an entry (R491). -/
def negWho (k : Nat) : Nat × Nat :=
  if k = 0 then (0, 0) else if k = 1 then (1, 0) else if k < 6 then (2, k - 2) else if k < 14 then (3, k - 6)
  else if k = 14 then (4, 0) else if k < 17 then (5, k - 15) else if k = 17 then (6, 0) else (7, k - 18)

/-- STATE of an entry. -/
def NegState.no : NegState → Nat
  | .disabled => 0 | .pending => 1 | .full => 2 | .degraded => 3 | .failed => 4

/-- The 8 bytes of entry k (R491). -/
def negBytes (k : Nat) (e : NegEntry) : List Byte :=
  [BitVec.ofNat 8 (negWho k).1, BitVec.ofNat 8 (negWho k).2, BitVec.ofNat 8 e.st.no, BitVec.ofNat 8 e.attempts]
    ++ leBytes e.result 2 ++ leBytes e.mode 2

/-- Entry k. -/
def negOf (s : State) (k : Nat) : NegEntry := tabGet NegEntry.reset s.neg.entries k

/-- Set an entry's STATE, RESULT and MODE; a change raises GEN, posts NEG_CHANGE and logs it (R491, R492). -/
def negSet (s : State) (k : Nat) (st : NegState) (result mode : Nat) : State :=
  let e := negOf s k
  let e' : NegEntry := { e with st := st, result := result, mode := mode }
  if e' = e then s
  else
    let es := tabSet NegEntry.reset s.neg.entries k e'
    let s := { s with neg := { gen := (s.neg.gen + 1) % 2 ^ 32, entries := es } }
    logRec (unitEv s 2 0 (ofLe (negBytes k e'))) 7 6 0 (negBytes k e')

/-- A negotiation begins: ATTEMPTS counts it, saturating at 255, and the entry reads PENDING (R491). -/
def negBegin (s : State) (k : Nat) : State :=
  let e := negOf s k
  let es := tabSet NegEntry.reset s.neg.entries k { e with attempts := e.attempts + 1 }
  let s := if e.attempts < 255 then { s with neg := { gen := (s.neg.gen + 1) % 2 ^ 32, entries := es } } else s
  negSet s k .pending 0 e.mode

/-! ## Interrupts (R455, R452) -/

/-- The device may write to and read from host memory (R452). -/
def hostOk (s : State) : Bool := s.pcie.busMaster && s.pcie.linkUp

/-- A source raises its vector: a masked one becomes pending, a message is sent, or waits merged while host writes are
held (R455, R452). -/
def raiseVec (s : State) (v : Nat) : State :=
  if !s.msix.unmasked.contains v then { s with msix := { s.msix with pendBits := addOnce s.msix.pendBits v } }
  else if hostOk s then { s with msix := { s.msix with sent := bump s.msix.sent v } }
  else { s with msix := { s.msix with heldMsgs := addOnce s.msix.heldMsgs v } }

/-- A moderated raise: held back while the source's MOD_US interval runs (R455, R461). -/
def raiseMod (s : State) (src : ModSrc) (v us : Nat) : State :=
  if s.modu.running.contains src then
    if s.modu.held.contains src then s else { s with modu := { s.modu with held := s.modu.held ++ [src] } }
  else
    let s := raiseVec s v
    if us = 0 then s else { s with modu := { s.modu with running := s.modu.running ++ [src] } }

/-- Messages held under R452 leave once host writes are free again. -/
def flushMsgs (s : State) : State :=
  if hostOk s then
    { s with msix := { s.msix with sent := s.msix.heldMsgs.foldl (fun t v => bump t v) s.msix.sent,
                                   heldMsgs := [] } }
  else s

/-! ## The completion ring (R461, R464-R468) -/

/-- Entries of the ring (R464). -/
def ringSize (s : State) : Nat := 2 ^ s.nx.cplLog2
/-- Free entries (R464). -/
def ringFree (s : State) : Nat :=
  ringSize s - 1 - (s.nx.cplTail + ringSize s - s.nx.cplHead) % ringSize s

/-- Write one 32-byte entry at TAIL and advance it; PHASE turns when the ring wraps (R464). The entry is given with
PHASE clear. -/
def putEntry (s : State) (e : List Byte) : State :=
  let e := match e with
    | t :: f :: r => t :: (f ||| (if s.nx.cplPhase then 1 else 0)) :: r
    | e => e
  let t := (s.nx.cplTail + 1) % ringSize s
  { s with hostMem := writeBytes s.hostMem (s.nx.cplBase.toNat + 32 * s.nx.cplTail) e,
           nx := { s.nx with cplTail := t, cplPhase := if t = 0 then !s.nx.cplPhase else s.nx.cplPhase } }

/-- The device state's number (R471). -/
def DevState.no : DevState → Nat
  | .boot => 0 | .selftest => 1 | .ready => 2 | .service => 3 | .recovery => 4 | .halted => 5

/-- A completion entry (R465), PHASE clear. -/
def cplBytes (c : Cpl) : List Byte :=
  leBytes 1 1 ++ leBytes 0 1 ++ leBytes c.berth 1 ++ leBytes 0 1 ++ leBytes c.tag.toNat 2 ++ leBytes c.status 2 ++
  leBytes c.opcode 2 ++ leBytes c.objState 1 ++ leBytes c.devState.no 1 ++ leBytes c.object.toNat 4 ++
  leBytes c.detailObj.toNat 4 ++ leBytes c.detail.toNat 4 ++ leBytes c.replyLen 2 ++ leBytes 0 6

/-- R461 steps 2 to 5 of a completion whose berth fields are written. -/
def deliver (s : State) (c : Cpl) : State :=
  let s := match c.dma with
    | some (a, l) => { s with hostMem := writeBytes s.hostMem a l }
    | none => s
  let s := if s.nx.cplEn then putEntry s (cplBytes c) else s
  let s := { s with nx := { s.nx with busy := s.nx.busy.filter (· != c.berth) } }
  if s.nx.cplEn then raiseMod s .cpl s.nx.cplVector s.nx.cplModUs else s

/-- A completion can be delivered: host writes are free where it needs them, and the ring, if enabled, has an entry. -/
def canDeliver (s : State) (c : Cpl) : Bool :=
  (!s.nx.cplEn || (hostOk s && decide (0 < ringFree s))) && (c.dma.isNone || hostOk s)

/-- Deliver waiting completions in order until one must wait (R461, R467). -/
def drainCpls (s : State) : List Cpl → State
  | [] => { s with nx := { s.nx with waiting := [] } }
  | c :: t => if canDeliver s c then drainCpls (deliver s c) t else { s with nx := { s.nx with waiting := c :: t } }

/-- An unsolicited entry of TYPE ty (R466), PHASE clear. -/
def unsolBytes (ty : Nat) (more : Bool) (seq time : Nat) (body : List Byte) : List Byte :=
  leBytes ty 1 ++ leBytes (if more then 2 else 0) 1 ++ leBytes seq 2 ++ leBytes 0 4 ++ leBytes time 8 ++ body

/-- The ring takes unsolicited records: enabled, host writes free, the interpreter up (R467, R468, R487). -/
def unsolOk (s : State) (n : Nat) : Bool :=
  s.nx.cplEn && hostOk s && s.dev.nxUp && s.dev.iceRuns && decide (64 + n ≤ ringFree s)

/-- Write the entries of one record, MORE on all but the last, and raise the vector (R466). -/
def putRecord (s : State) (ty seq time : Nat) : List (List Byte) → State
  | [] => raiseMod s .cpl s.nx.cplVector s.nx.cplModUs
  | b :: t =>
    putRecord (putEntry s (unsolBytes ty (!t.isEmpty) seq time b)) ty ((seq + 1) % 65536) time t

/-- The three bodies of an alarm record (R535). -/
def alarmBodies (r : AlarmRec) : List (List Byte) :=
  [leBytes r.code 1 ++ leBytes (alarmSev r.code) 1 ++ leBytes 0 2 ++ leBytes r.count 4 ++ leBytes r.object.toNat 4 ++
     leBytes (r.arg.toNat % 2 ^ 32) 4,
   leBytes r.first 8 ++ leBytes r.last 8,
   leBytes r.site.toNat 8 ++ leBytes r.lastObj.toNat 4 ++ leBytes (r.arg.toNat / 2 ^ 32) 4]

/-- A record the exit has taken restarts its count (R534). -/
def LaneExit.took (e : LaneExit) (code : Nat) : LaneExit :=
  { e with pend := e.pend.map (fun r => if r.code == code then { r with count := 0, due := false } else r),
           taken := e.taken + 1 }

/-- An alarm record waits for the completion ring: no other unsolicited record passes it (R534). -/
def alarmWaits (s : State) : Bool := s.ice.lanes.ring.en && s.ice.lanes.ring.pend.any (·.due)

/-- The completion ring, while it is an enabled exit, takes the due alarm records that find room (R532, R534, R467). -/
def drainAlarms (s : State) : List AlarmRec → State
  | [] => s
  | r :: t =>
    if r.due && s.ice.lanes.ring.en && unsolOk s 3 then
      let s := putRecord s 4 s.nx.seqAlarm r.first (alarmBodies r)
      let s := { s with nx := { s.nx with seqAlarm := (s.nx.seqAlarm + 3) % 65536 } }
      drainAlarms (modLanes s fun l => { l with ring := l.ring.took r.code }) t
    else drainAlarms s t

/-- Slot records of a continuation, two in each body, an unused one with slot 0xFFFF (R466). -/
def slotBodies : List (Nat × Nat) → List (List Byte)
  | [] => []
  | [(a, x)] => [leBytes a 2 ++ leBytes 0 2 ++ leBytes x 4 ++ leBytes 0xFFFF 2 ++ leBytes 0 6]
  | (a, x) :: (b, y) :: t =>
    (leBytes a 2 ++ leBytes 0 2 ++ leBytes x 4 ++ leBytes b 2 ++ leBytes 0 2 ++ leBytes y 4) :: slotBodies t

/-- The bodies of a unit event (R466). -/
def unitBodies (e : UnitEv) : List (List Byte) :=
  (leBytes e.code 2 ++ leBytes 0 2 ++ leBytes e.object.toNat 4 ++ leBytes e.arg.toNat 8) :: slotBodies e.more

/-- Unit events leave in order while there is room, after every waiting alarm record (R467, R534). -/
def drainUnits (s : State) : List UnitEv → State
  | [] => { s with nx := { s.nx with unitQ := [] } }
  | e :: t =>
    let n := (unitBodies e).length
    if unsolOk s n && !alarmWaits s then
      let s := putRecord s 3 s.nx.seqUnit e.time (unitBodies e)
      drainUnits { s with nx := { s.nx with seqUnit := (s.nx.seqUnit + n) % 65536 } } t
    else { s with nx := { s.nx with unitQ := e :: t } }

/-- The body of a channel event (R109). -/
def chanBody (e : ChanEv) : List Byte :=
  leBytes e.chan 2 ++ leBytes e.code 2 ++ leBytes (b2n e.tx + 2 * b2n e.concealed + 4 * b2n e.gap) 1 ++
  leBytes e.lost 1 ++ leBytes e.arg.toNat 2 ++ leBytes e.time 8

/-- Channel events leave in order while there is room, after every waiting alarm record (R110, R467, R534). -/
def drainChans (s : State) : List ChanEv → State
  | [] => { s with nx := { s.nx with chanQ := [] } }
  | e :: t =>
    if unsolOk s 1 && !alarmWaits s then
      let s := putRecord s 2 s.nx.seqChan e.made [chanBody e]
      drainChans { s with nx := { s.nx with seqChan := (s.nx.seqChan + 1) % 65536 } } t
    else { s with nx := { s.nx with chanQ := e :: t } }

/-- Cut a byte list into bodies of 16 bytes, zero-padded. -/
def chunk16 : Nat → List Byte → List (List Byte)
  | 0, _ => []
  | _, [] => []
  | n + 1, l => (l.take 16 ++ List.replicate (16 - l.length) 0) :: chunk16 n (l.drop 16)

/-- The bodies of a log record: one to four entries (R536). -/
def logBodies (r : LogRec) : List (List Byte) :=
  let d := r.data ++ List.replicate (8 - r.data.length) 0
  let rest := chunk16 3 (d.drop 8)
  (leBytes r.code 2 ++ leBytes r.sev 1 ++ leBytes (1 + rest.length) 1 ++ leBytes r.object.toNat 4 ++ d.take 8) :: rest

/-- Log records leave in order while there is room; every waiting alarm record goes first (R534, R538). -/
def drainLogs (s : State) : List LogRec → State
  | [] => modLanes s fun l => { l with ring := { l.ring with logs := [] } }
  | r :: t =>
    let n := (logBodies r).length
    if unsolOk s n && s.ice.lanes.ring.en && !alarmWaits s then
      let s := putRecord s 5 s.nx.seqLog r.time (logBodies r)
      let s := { s with nx := { s.nx with seqLog := (s.nx.seqLog + n) % 65536 } }
      drainLogs (modLanes s fun l => { l with ring := { l.ring with taken := l.ring.taken + 1 } }) t
    else modLanes s fun l => { l with ring := { l.ring with logs := r :: t } }

/-- An exit that is enabled takes every due alarm and every log at once (R532; log 198). -/
def LaneExit.takeAll (e : LaneExit) : LaneExit :=
  if !e.en then e else
  { e with pend := e.pend.map (fun r => if r.due then { r with count := 0, due := false } else r), logs := [],
           taken := e.taken + (e.pend.filter (·.due)).length + e.logs.length }

/-- Records the flash exit takes join their region's batch, as their entry bodies (R540, R542; log 114). -/
def takeFlash (s : State) : State :=
  let e := s.ice.lanes.flash
  if !e.en then s else
  let s := batchAdd s 0 ((e.pend.filter (·.due)).map fun r => (alarmBodies r).flatten)
  let s := batchAdd s 1 (e.logs.map fun r => (logBodies r).flatten)
  modLanes s fun l => { l with flash := l.flash.takeAll }

/-- The management port and the flash take their records once the firmware runs (R487, R518, R532). -/
def drainOthers (s : State) : State :=
  if s.dev.nxUp && s.dev.iceRuns then
    let s := modLanes s fun l => { l with syslog := l.syslog.takeAll }
    if s.dev.devState = .halted then s else takeFlash s
  else s

/-- What follows every step that may have made a record or made room: held messages, completions, alarms, unit events,
channel events and logs leave in this order (R461, R467, R534). -/
def settle (s : State) : State :=
  let s := flushMsgs s
  let s := drainCpls s s.nx.waiting
  let s := drainAlarms s s.ice.lanes.ring.pend
  let s := drainUnits s s.nx.unitQ
  let s := drainChans s s.nx.chanQ
  let s := drainLogs s s.ice.lanes.ring.logs
  drainOthers s

/-- A command or event that completes: its state, settled. -/
def fin (s : State) : Out := .next (settle s)

/-! ## Canal memory (R34-R43, R496) -/

/-- Usable LPDDR5X bytes: live channels times density times seven eighths (R38, R496). -/
def ddrUsable (s : State) : Nat := s.fab.live.length * s.fab.density * 2 ^ 30 * 7 / 8

/-- What a Canal address names (R37, R38, R39). -/
inductive Where where
  | ddr (a : Nat)
  | neve (off : Nat)
  | regs (window off : Nat)
  | floe (f off : Nat)
  | unmapped
deriving DecidableEq, Repr

/-- Windows listed in R39; 0x20 is unmapped on GFQ9640-ME (R40). -/
def windowListed (v : Variant) (n : Nat) : Bool :=
  (n ≤ 0x08 || (0x0C ≤ n && n ≤ 0x14) || (0x18 ≤ n && n ≤ 0x1C) || (n == 0x20 && v != .me) || n == 0x24 || n == 0x28
    || n == 0x2C || (0x30 ≤ n && n ≤ 0x38) || n == 0x3C : Bool)

/-- Decode a Canal address (R37-R40). -/
def canalWhere (s : State) (a : Nat) : Where :=
  if a < 0x1000000000 then (if a < ddrUsable s then .ddr a else .unmapped)
  else if a < 0x1002000000 then .neve (a - 0x1000000000)
  else if a < 0x1100000000 then .unmapped
  else if a < 0x1200000000 then
    let n := (a - 0x1100000000) / 0x1000000
    if windowListed s.dev.variant n then .regs n (a % 0x1000000) else .unmapped
  else if a < 0x1206000000 then .floe ((a - 0x1200000000) / 0x100000) (a % 0x100000)
  else .unmapped

/-- A timing domain of the main die, whose island can issue Canal accesses; the Nivo die's domains are on no Canal (R25, R26). -/
def canalIssuer (d : Nat) : Bool := decide (d < 248) && d != 235 && d != 236

/-- An unmapped access is counted and raises CANAL_ADDR with the issuing island and the address (R40). -/
def canalAddr (s : State) (island a : Nat) : State :=
  alarm { s with fab := { s.fab with canalAddrCnt := sat32 (s.fab.canalAddrCnt + 1) } } 0x10 0 (BitVec.ofNat 64 a)
    (siteIsland island)

/-- The Canal ring domain of the Névé bank that holds byte offset o, and STAGE of its word (R42). -/
def neveRing (o : Nat) : Nat := if bitsOf o 10 6 < 16 then 210 else 211
def neveStage (o : Nat) : Nat := o / 2048 * 8 + bitsOf o 5 3
/-- The site of a Névé word at byte offset o, level 2 (R42, R43, R20). -/
def neveSite (o : Nat) : DWord := siteStage (neveRing o) (bitsOf o 10 6 % 16) (neveStage o)
/-- The site of a bit of it, level 1. -/
def neveBit (o bit : Nat) : DWord := siteBit (neveRing o) (bitsOf o 10 6 % 16) (neveStage o) bit

/-- Memories of Floe f. -/
def fmemOf (s : State) (f : Nat) : FloeMem := tabGet FloeMem.reset s.fmem f
/-- Change the memories of Floe f. -/
def modFmem (s : State) (f : Nat) (g : FloeMem → FloeMem) : State :=
  { s with fmem := tabMod FloeMem.reset s.fmem f g }
/-- A Floe is stopped: RUN is clear or it is fenced, no transfer is outstanding and no push of its is held (R32, R614). -/
def Floe.stopped (x : Floe) : Bool :=
  x.fenced || (!x.run && x.xfers.isEmpty && !(match x.stall with | .push _ => true | _ => false))
/-- Floe f's memories can be reached from outside: it is stopped (R41). -/
def floeStopped (s : State) (f : Nat) : Bool := (tabGet Floe.reset s.floes f).stopped

/-- 64-bit words of [a, a + n). -/
def wordsOf (a n : Nat) : List Nat := numsFrom (a / 8) ((a + n + 7) / 8 - a / 8)
/-- Words of [a, a + n) written in all eight bytes. -/
def fullWords (a n : Nat) : List Nat := (wordsOf a n).filter fun w => decide (a ≤ 8 * w) && decide (8 * w + 8 ≤ a + n)

/-- Byte o of an instruction memory, bundle a at 16a (R134). -/
def imemByte (m : FloeMem) (o : Nat) : Byte :=
  BitVec.ofNat 8 ((tabGet 0 m.imem (o / 16)).toNat / 2 ^ (8 * (o % 16)))
/-- Write a byte of instruction memory. -/
def imemPut (m : FloeMem) (o : Nat) (b : Byte) : FloeMem :=
  { m with imem := tabMod 0 m.imem (o / 16) fun w =>
      let n := w.toNat
      let k := 2 ^ (8 * (o % 16))
      BitVec.ofNat 128 (n - n / k % 256 * k + b.toNat * k) }
/-- Write bytes of instruction memory from offset o on. -/
def imemWrite (m : FloeMem) (o : Nat) : List Byte → FloeMem
  | [] => m
  | b :: t => imemWrite (imemPut m o b) (o + 1) t
/-- Words written whole in a write of n bytes at window offset o lose their poison bit; one written in part keeps it (R135). -/
def poisonClear (m : FloeMem) (o n : Nat) : FloeMem :=
  { m with poison := m.poison.filter fun w => !(fullWords o n).contains w }
/-- Write bytes of data memory (R135). -/
def dmemWrite (m : FloeMem) (o : Nat) (l : List Byte) : FloeMem :=
  { poisonClear m o l.length with dmem := writeBytes m.dmem o l }

/-- Bytes of memory on the Canal: LPDDR5X, Névé and the memories of a stopped Floe; elsewhere zeros (R37-R41, R134). -/
def memRead (s : State) (a n : Nat) : List Byte :=
  match canalWhere s a with
  | .ddr a => readBytes s.fab.ddr a n
  | .neve o => readBytes s.fab.neve o n
  | .floe f o =>
    if !floeStopped s f then List.replicate n 0
    else if o < 0x40000 then readBytes (fmemOf s f).dmem o n
    else if o < 0x50000 then (numsFrom (o - 0x40000) n).map (imemByte (fmemOf s f))
    else List.replicate n 0
  | _ => List.replicate n 0

/-- Some word of [a, a + n) is poisoned. -/
def memPoisoned (s : State) (a n : Nat) : Bool :=
  match canalWhere s a with
  | .ddr a => (wordsOf a n).any s.fab.ddrPoison.contains
  | .neve o => (wordsOf o n).any s.fab.nevePoison.contains
  | .floe f o => floeStopped s f && decide (o < 0x50000) && (wordsOf o n).any (fmemOf s f).poison.contains
  | _ => false

/-- Write bytes to memory on the Canal: a word written whole loses its poison, one written in part keeps it (R43, R135).
Elsewhere nothing is stored. -/
def memWrite (s : State) (a : Nat) (l : List Byte) : State :=
  match canalWhere s a with
  | .ddr a =>
    let clean := s.fab.ddrPoison.filter fun w => !(fullWords a l.length).contains w
    modFab s fun f => { f with ddr := writeBytes f.ddr a l, ddrPoison := clean }
  | .neve o =>
    let clean := s.fab.nevePoison.filter fun w => !(fullWords o l.length).contains w
    modFab s fun f => { f with neve := writeBytes f.neve o l, nevePoison := clean }
  | .floe f o =>
    if !floeStopped s f then s
    else if o < 0x40000 then modFmem s f fun m => dmemWrite m o l
    else if o < 0x50000 then modFmem s f fun m => imemWrite (poisonClear m o l.length) (o - 0x40000) l
    else s
  | _ => s

/-- An access is unmapped: counted and alarmed (R40, R134). -/
def memUnmapped (s : State) (a : Nat) : Bool :=
  match canalWhere s a with
  | .unmapped => true
  | .floe _ o => (decide (0x50000 ≤ o) && decide (o < 0xF0000)) || decide (0xF0030 ≤ o)
  | _ => false

/-- An access to memory carries the address-error flag: unmapped, a register window, or a running Floe (R40, R41). -/
def memFlag (s : State) (a : Nat) : Bool :=
  match canalWhere s a with
  | .ddr _ | .neve _ => false
  | .floe f o => !floeStopped s f || decide (0x50000 ≤ o)
  | _ => true

/-- What unmapped accesses in [a, a + n) leave behind: one count and alarm for the range (R40; log 38). -/
def memMissed (s : State) (island a n : Nat) : State :=
  if memUnmapped s a then canalAddr s island a
  else if 0 < n ∧ memUnmapped s (a + n - 1) then canalAddr s island (a + n - 1) else s

/-- A read of Névé that meets uncorrectable words counts each and raises NEVE_UE with its site (R43). -/
def neveReadUe (s : State) (a n : Nat) : State :=
  match canalWhere s a with
  | .neve o => ((wordsOf o n).filter s.fab.nevePoison.contains).foldl (fun s w =>
      alarm { s with fab := { s.fab with neveUe := sat32 (s.fab.neveUe + 1) } } 0x12 0 0 (neveSite (8 * w))) s
  | _ => s

/-! ## Partitions (R44, R45) -/

/-- Size in bytes of partition k in the sizes in force. -/
def partSize (s : State) (k : Nat) : Nat := s.fab.parts.getD k 0 * 1024
/-- Névé offset of partition k: the sum of the sizes before it (R45). -/
def partBase (s : State) (k : Nat) : Nat := ((s.fab.parts.take k).map (· * 1024)).sum

/-! ## Reading a register -/

/-- What a read of the high half of a pair returns: the half latched by the last read of the low half, and where none is
latched the high half as it stands; neither clears the pair (R14; log 162). -/
def hiRead (latch : Option Word) (live : Nat) : Nat := match latch with | some h => h.toNat | none => live % 2 ^ 32

/-- The value a read returned on the bus. -/
def returned (s : State) (n : Nat) : State := { s with dev := { s.dev with rdata := BitVec.ofNat 64 n } }

end Sys2Proof.Machine
end

