-- ==== Sys2Proof/Machine/ChanPar.lean ====
section
/-! DEFINITION. Channel parameters: which are structural, their ranges and defaults, and what the codecs permit
(R81-R105, R113, R209, R215). -/

namespace Sys2Proof.Machine

/-- Channel states in which the channel holds Floe units (R74). -/
def ChanSt.live : ChanSt → Bool
  | .armed | .running | .draining => true
  | _ => false

/-- The voice codecs of R215. -/
def Codec.voice : Codec → Bool
  | .g711u | .g711a | .g726 | .g729 | .g722 | .opus => true
  | _ => false

/-- Linear PCM codecs. -/
def Codec.linear : Codec → Bool
  | .l16 | .l24 => true
  | _ => false

/-- Rates in kHz a codec offers (R93). -/
def Codec.rates : Codec → List Nat
  | .g722 => [16]
  | .opus => [8, 16, 48]
  | .l16 | .l24 => [48, 96]
  | .aes3 => [48]
  | _ => [8]

/-- RATE taken from CODEC (R83; Opus and linear PCM 48 kHz, log 21). -/
def Codec.rate : Codec → Nat
  | .g722 => 16
  | .opus | .l16 | .l24 | .aes3 => 48
  | _ => 8

/-- The codec's static payload type, or 96 (R83, R93). -/
def Codec.pt : Codec → Nat
  | .g711u => 0 | .g711a => 8 | .g729 => 18 | .g722 => 9 | _ => 96

/-- Structural parameters (R81). -/
def ParSet.structural : ParSet → Bool
  | .programme _ | .prio _ | .group _ | .codec _ | .g726 _ | .complexity _ | .opus20 _ | .dtx _ | .rate _ | .ptime _
  | .pt _ | .rxSrc _ | .rxSink _ | .txSrc _ | .txSink _ | .keyRx _ | .keyTx _ | .keyRxB _ | .keyTxB _ | .ecOn _
  | .tail _ | .aecOn _ | .vadOn _ | .toneDir _ | .adaptive _ | .epoch _ | .depth _ | .depthMin _ | .depthMax _
  | .rxPtime _ | .w _ | .drift _ => true
  | .rxGain _ | .txGain _ | .opusRate _ | .opusFec _ | .erlMin _ | .nlp _ | .freeze _ | .toneDis _ | .resSupp _
  | .aecNlp _ | .aecFreeze _ | .thresh _ | .hangover _ | .sidInt _ | .dtmf _ | .cpPlan _ | .lineup _ | .ans _
  | .user _ _ | .gpi _ | .adaptQ _ | .adaptWin _ | .guardTime _ | .adaptWait _ => false

/-- A path end names a thing that can exist (R69). -/
def PathEnd.ok : PathEnd → Bool
  | .none => true
  | .stream n => n < 16384
  | .tdm p k => p < 8 && k < 64
  | .bus b => b < 4096
  | .host q r => q < 4 && r < 16

/-- A key slot number or none. -/
def keyOk : Option Nat → Bool
  | some k => k < 16384
  | none => true

/-- A tone definition within R101: tolerance 0.5 to 5 %, duration 20 to 2,000 ms. -/
def ToneDef.ok (t : ToneDef) : Bool := decide (5 ≤ t.tol) && decide (t.tol ≤ 50) && decide (20 ≤ t.dur) && decide (t.dur ≤ 2000)

/-- A value within its parameter's range (R83, R84, R89, R93, R98, R100, R101, R215); a codec, packet time or depth that does
not suit is judged at enable. -/
def ParSet.inRange : ParSet → Bool
  | .prio n => n < 16 | .group n => n < 8 | .g726 n => [16, 24, 32, 40].contains n | .complexity n => n ≤ 10
  | .rate n => [8, 16, 48, 96].contains n | .pt n => n < 128
  | .rxSrc e | .rxSink e | .txSrc e | .txSink e => e.ok
  | .keyRx k | .keyTx k | .keyRxB k | .keyTxB k => keyOk k
  | .tail n => (n % 16 == 0 && 16 ≤ n && n ≤ 128) || n == 256 | .toneDir n => n < 4 | .w n => 1 ≤ n && n ≤ 1024
  | .rxGain n | .txGain n => decide (-240 ≤ n) && decide (n ≤ 240)
  | .opusRate n => 6 ≤ n && n ≤ 510 | .erlMin n => n ≤ 12 | .resSupp n => n ≤ 3
  | .thresh n => decide (-60 ≤ n) && decide (n ≤ -30) | .hangover n => n % 10 == 0 && n ≤ 500
  | .sidInt n => n == 0 || (n % 10 == 0 && 20 ≤ n && n ≤ 2000)
  | .cpPlan p => (match p with | some k => decide (k < 16) | none => true)
  | .user i t => decide (i < 8) && t.all ToneDef.ok | .adaptQ n => [990, 995, 999].contains n | .adaptWin n => 1 ≤ n && n ≤ 60
  | .guardTime n => n ≤ 160 | .adaptWait n => 1 ≤ n && n ≤ 20
  | _ => true

/-- Set a CORE parameter. -/
def CorePar.set (p : CorePar) : ParSet → CorePar
  | .programme b => { p with programme := b } | .prio n => { p with prio := n } | .group n => { p with group := n }
  | .codec c => { p with codec := c } | .g726 n => { p with g726 := n } | .complexity n => { p with complexity := n }
  | .opus20 b => { p with opus20 := b } | .dtx b => { p with dtx := b } | .rate n => { p with rate := n }
  | .ptime n => { p with ptime := n } | .pt n => { p with pt := n } | .rxSrc e => { p with rxSrc := e }
  | .rxSink e => { p with rxSink := e } | .txSrc e => { p with txSrc := e } | .txSink e => { p with txSink := e }
  | .keyRx k => { p with keyRx := k } | .keyTx k => { p with keyTx := k } | .keyRxB k => { p with keyRxB := k }
  | .keyTxB k => { p with keyTxB := k }
  | _ => p

/-- Set a structural parameter of the other blocks. -/
def BlkPar.set (p : BlkPar) : ParSet → BlkPar
  | .ecOn b => { p with ecOn := b } | .tail n => { p with tail := n } | .aecOn b => { p with aecOn := b }
  | .vadOn b => { p with vadOn := b } | .toneDir n => { p with toneDir := n } | .adaptive b => { p with adaptive := b }
  | .epoch b => { p with epoch := b } | .depth n => { p with depth := n } | .depthMin n => { p with depthMin := n }
  | .depthMax n => { p with depthMax := n } | .rxPtime n => { p with rxPtime := n } | .w n => { p with w := n }
  | .drift d => { p with drift := d }
  | _ => p

/-- Set a live parameter. -/
def LivePar.set (p : LivePar) : ParSet → LivePar
  | .rxGain n => { p with rxGain := n } | .txGain n => { p with txGain := n } | .opusRate n => { p with opusRate := n }
  | .opusFec b => { p with opusFec := b } | .erlMin n => { p with erlMin := n } | .nlp n => { p with nlp := n }
  | .freeze b => { p with freeze := b } | .toneDis b => { p with toneDis := b } | .resSupp n => { p with resSupp := n }
  | .aecNlp n => { p with aecNlp := n } | .aecFreeze b => { p with aecFreeze := b } | .thresh n => { p with thresh := n }
  | .hangover n => { p with hangover := n } | .sidInt n => { p with sidInt := n } | .dtmf b => { p with dtmf := b }
  | .cpPlan k => { p with cpPlan := k } | .lineup b => { p with lineup := b } | .ans b => { p with ans := b }
  | .user i (some t) => { p with users := tabPut i t p.users }
  | .user i none => { p with users := tabDel i p.users }
  | .gpi b => { p with gpi := b } | .adaptQ n => { p with adaptQ := n } | .adaptWin n => { p with adaptWin := n }
  | .guardTime n => { p with guard_ := n } | .adaptWait n => { p with adaptWait := n }
  | _ => p

/-- Apply one setting to a channel's parameters. -/
def Chan.set (ch : Chan) (p : ParSet) : Chan :=
  { ch with core := ch.core.set p, blk := ch.blk.set p, live := ch.live.set p }

/-- The gains of an AES3 channel are held at 0.0 dB (R95). -/
def Chan.hold (ch : Chan) : Chan :=
  if ch.core.codec = .aes3 then { ch with live := { ch.live with rxGain := 0, txGain := 0 } } else ch

/-- Apply settings in order. A RATE or PT that followed from an earlier CODEC stays (R83; log 177). -/
def Chan.sets (ch : Chan) (l : List ParSet) : Chan := (l.foldl Chan.set ch).hold

/-- KEY_TX_B differs from KEY_TX (R83). -/
def CorePar.keysDiffer (p : CorePar) : Bool := p.keyTx.isNone || p.keyTx != p.keyTxB

/-- Pending live writes take effect (R81). -/
def Chan.applyPend (ch : Chan) : Chan := { ch.sets ch.pendLive with pendLive := [] }

/-- Some setting of l satisfies f. -/
def named (l : List ParSet) (f : ParSet → Bool) : Bool := l.any f

/-- A defined channel: the settings named, and for the rest the defaults, some of which follow from CODEC, PTIME,
RX_PTIME, DEPTH and ANCHOR (R83, R93, R215). -/
def defineChan (l : List ParSet) : Chan :=
  let ch := { (Chan.reset.sets l) with st := .defined }
  let cd := ch.core.codec
  let f (b : Bool) (ps : List ParSet) (ch : Chan) : Chan := if b then ch else ch.sets ps
  let ch := f (named l fun | .rate _ => true | _ => false) [.rate cd.rate] ch
  let ch := f (named l fun | .pt _ => true | _ => false) [.pt cd.pt] ch
  let ch := f (named l fun | .adaptive _ => true | _ => false) [.adaptive cd.voice] ch
  let ch := f (named l fun | .rxPtime _ => true | _ => false) [.rxPtime ch.core.ptime] ch
  let rp := ch.blk.rxPtime
  let ch := f (named l fun | .depth _ => true | _ => false)
    [.depth (if cd.voice then 320 else max 2 (ceilDiv (4 * rp) 6))] ch
  let ch := f (named l fun | .depthMin _ => true | _ => false) [.depthMin (max 2 (ceilDiv rp 6))] ch
  let ch := f (named l fun | .depthMax _ => true | _ => false) [.depthMax (max 1600 ch.blk.depth)] ch
  f (named l fun | .drift _ => true | _ => false)
    [.drift (if ch.blk.epoch then .off else if cd.linear then .sluice else if cd = .aes3 then .slip else .off)] ch

/-- The processing frame in 48 kHz ticks (R82). -/
def CorePar.frame (p : CorePar) : Nat :=
  match p.codec with
  | .opus => if p.opus20 then 960 else 480
  | .l16 | .l24 | .aes3 => p.ptime
  | _ => 480

/-- PTIME is permitted for CODEC and RATE (R96); packet times in 48 kHz ticks. -/
def ptimeOk (cd : Codec) (opus20 : Bool) (rate pt : Nat) : Bool :=
  cd.rates.contains rate &&
  match cd with
  | .opus => if opus20 then [960, 1920, 2880].contains pt else [480, 960, 1440, 1920, 2400, 2880].contains pt
  | .l16 | .l24 =>
    if rate = 96 then [6, 12, 48, 192].contains pt
    else [6, 12, 16, 48, 192, 480, 960, 1440, 1920, 2400, 2880].contains pt
  | .aes3 => [6, 48].contains pt
  | _ => [480, 960, 1440, 1920, 2400, 2880].contains pt

/-- Largest payload in bytes of t 48 kHz ticks (R97, R209). -/
def CorePar.payload (p : CorePar) (t : Nat) : Nat :=
  match p.codec with
  | .g711u | .g711a | .g722 => 8 * t / 48
  | .g726 => p.g726 * t / (8 * 48)
  | .g729 => t / 48
  | .opus => 1275 * (t / (if p.opus20 then 960 else 480))
  | .l16 => 2 * (t * p.rate / 48)
  | .l24 => 3 * (t * p.rate / 48)
  | .aes3 => 8 * t

/-- The receive source is a TDM slot. -/
def CorePar.tdmSrc (p : CorePar) : Bool := match p.rxSrc with | .tdm _ _ => true | _ => false

/-- The receive source uses a Basin (R213). -/
def CorePar.usesBasin (p : CorePar) : Bool :=
  match p.rxSrc with | .stream _ | .host _ _ | .tdm _ _ => true | _ => false

/-- The receive packet time: 125 µs for a TDM source (R213). -/
def Chan.rxTicks (ch : Chan) : Nat := if ch.core.tdmSrc then 6 else ch.blk.rxPtime

/-- Pmax of a slot (R209). -/
def Chan.pmax (ch : Chan) : Nat :=
  if ch.core.tdmSrc then 4 * (6 * ch.core.rate / 48) else ch.core.payload ch.blk.rxPtime

/-- Dpk (R209): depth in packets; a TDM source is FIXED (R213). -/
def Chan.dpk (ch : Chan) : Nat :=
  let d := if ch.blk.adaptive && !ch.core.tdmSrc then ch.blk.depthMax else ch.blk.depth
  ceilDiv (6 * d) ch.rxTicks

/-- The least power of two at least n, from p on, within k doublings. -/
def pow2At (n : Nat) : Nat → Nat → Nat
  | _, 0 => 0
  | p, k + 1 => if n ≤ p then p else pow2At n (2 * p) k

/-- S (R209); 0 stands for more than 16,384. -/
def Chan.slots (ch : Chan) : Nat := pow2At (ch.dpk + ch.blk.w + 1) 16 11

/-- Z (R209). -/
def Chan.slotBytes (ch : Chan) : Nat := 64 + 64 * ceilDiv ch.pmax 64

/-- The head's bytes (R209). -/
def headBytes (slots : Nat) : Nat := roundUp (512 + slots / 4) 1024

/-- Column of the cost table for a rate. -/
def byRate (rate a b c d : Nat) : Nat := if rate = 8 then a else if rate = 16 then b else if rate = 48 then c else d

/-- Floe units of a channel (R113); tone detection at 96 kHz costs what it costs at the other rates (log 194). -/
def Chan.fu (ch : Chan) : Nat :=
  let r := ch.core.rate
  let base := byRate r 10 12 16 28
  let ec := if !ch.blk.ecOn then 0 else if ch.blk.tail = 256 then 164 else ch.blk.tail / 16 * byRate r 6 11 0 0
  let aec := if ch.blk.aecOn then 120 else 0
  let nlp := if ch.blk.ecOn || ch.blk.aecOn then byRate r 6 8 10 0 else 0
  let tone := 10 * (if ch.blk.toneDir = 3 then 2 else if ch.blk.toneDir = 0 then 0 else 1)
  let vad := if ch.blk.vadOn || (ch.core.codec = .opus && ch.core.dtx) then
      (if ch.core.codec = .g729 then 0 else byRate r 4 6 6 0) else 0
  let codec := match ch.core.codec with
    | .g711u | .g711a => 3
    | .g726 => 14
    | .g729 => 35
    | .g722 => 28
    | .opus => if ch.core.complexity ≤ 5 then byRate r 30 40 64 0 else byRate r 42 56 92 0
    | .l16 | .l24 => byRate r 4 4 4 8
    | .aes3 => 3
  base + ec + aec + nlp + tone + vad + codec

/-- The four ends of a channel. -/
def CorePar.ends (p : CorePar) : List PathEnd := [p.rxSrc, p.rxSink, p.txSrc, p.txSink]

/-- The key slots a channel names. -/
def CorePar.keys (p : CorePar) : List Nat :=
  p.keyRx.toList ++ p.keyTx.toList ++ p.keyRxB.toList ++ p.keyTxB.toList

end Sys2Proof.Machine
end

