-- ==== Sys2Proof/Machine/Nx.lean ====
section
/-! DEFINITION. Judging and completing a Norux command: the berth header, the order of checks, replies, completions and
the audit log (R456-R482, R611, R616). -/

namespace Sys2Proof.Machine

/-- Bytes of a berth: 256, or 128 under Norux 1 (R456, R463). -/
def berthSize (s : State) : Nat := if s.dev.compatQ48 then 128 else 256
/-- Berths: 64, or 32 under Norux 1. -/
def berthCount (s : State) : Nat := if s.dev.compatQ48 then 32 else 64
/-- Largest payload: 240 bytes, or 112 under Norux 1. -/
def payloadMax (s : State) : Nat := berthSize s - 16

/-- n bytes at offset o of berth b, as a number. -/
def berthNum (s : State) (b o n : Nat) : Nat := ofLe (readBytes s.nx.berthMem (b * berthSize s + o) n)

/-- The header and the DMA descriptor of berth b (R456, R457). -/
def hdrOf (s : State) (b : Nat) : NxHdr :=
  { opcode := berthNum s b 0 2, tag := BitVec.ofNat 16 (berthNum s b 2 2), len := berthNum s b 4 2,
    object := BitVec.ofNat 32 (berthNum s b 8 4), flags := BitVec.ofNat 8 (berthNum s b 12 1),
    rsvd := BitVec.ofNat 8 (berthNum s b 13 1), inAddr := berthNum s b 16 8, inLen := berthNum s b 24 4,
    outAddr := berthNum s b 28 8, outLen := berthNum s b 36 4 }

/-- FLAGS bit 0: the payload is a DMA descriptor. -/
def NxHdr.dma (h : NxHdr) : Bool := bitOf h.flags.toNat 0
/-- FLAGS bit 1: the clear option of R111. -/
def NxHdr.clear (h : NxHdr) : Bool := bitOf h.flags.toNat 1
/-- Class of OBJECT (R469). -/
def NxHdr.cls (h : NxHdr) : Nat := h.object.toNat / 2 ^ 24
/-- Index of OBJECT (R469). -/
def NxHdr.idx (h : NxHdr) : Nat := h.object.toNat % 2 ^ 24

/-- The opcodes of the command catalogue (R482). -/
def opcodes : List Nat :=
  numsFrom 0x0001 9 ++ [0x0010] ++ numsFrom 0x0101 13 ++ numsFrom 0x0201 4 ++ numsFrom 0x0301 5 ++
  [0x0401, 0x0402] ++ numsFrom 0x0410 8 ++ numsFrom 0x0501 9 ++ numsFrom 0x0601 8 ++ numsFrom 0x0701 6 ++
  numsFrom 0x0801 6 ++ numsFrom 0x0811 6 ++ numsFrom 0x0901 3 ++ numsFrom 0x0A01 7 ++ numsFrom 0x0B01 7 ++
  [0x0C01] ++ numsFrom 0x0D01 7 ++ [0x0E01, 0x0E02, 0x0F01, 0x0F02, 0x1001, 0x1002]

/-- Index k lies in the range of class c for this opcode (R469, R470). -/
def idxOk (op c k : Nat) : Bool :=
  match c with
  | 0x01 => k < 8192
  | 0x02 => if op = 0x0204 then 0x10000 ≤ k && k < 0x10000 + 96 else k < 0x10000
  | 0x03 => k < 4 | 0x04 => k < 1024 | 0x05 => k < 4096 | 0x06 => k < 32768 | 0x07 => k < 16 | 0x08 => k < 8192
  | 0x09 => k < 4 | 0x0A | 0x0B | 0x0F => k < 16384 | 0x0C => k < 65536 | 0x0E => k < 2 | 0x10 => k < 4
  | 0x12 => k < 64 | 0x14 => k < 8 | 0x15 => k < 16
  | _ => k == 0

/-- The Tandem state's number (R355, WEIR_TDM_STATUS). -/
def TdmSt.no : TdmSt → Nat
  | .off => 0 | .solo => 1 | .lifting => 2 | .standby => 3 | .primary => 4
/-- Ring state numbers (R616). -/
def RingSt.no : RingSt → Nat
  | .free => 0 | .defined => 1 | .enabled => 2 | .rewinding => 3
/-- Bus state numbers (R616). -/
def BusSt.no : BusSt → Nat
  | .free => 0 | .defined => 1 | .enabled => 2
/-- Stream state numbers (R616). -/
def StrSt.no : StrSt → Nat
  | .free => 0 | .defined => 1 | .enabled => 2
/-- Key slot state numbers (R616). -/
def KeySt.no : KeySt → Nat
  | .empty => 0 | .loaded => 1 | .spent => 2 | .faulted => 3

/-! ## Looking objects up -/

/-- Floe f. -/
def floeOf (s : State) (f : Nat) : Floe := tabGet Floe.reset s.floes f
/-- Basin of channel c. -/
def basinOf (s : State) (c : Nat) : Basin := tabGet Basin.reset s.media.basins c
/-- Replay ring r. -/
def ringOf (s : State) (r : Nat) : Ring := tabGet Ring.reset s.media.rings r
/-- Bus b. -/
def busOf (s : State) (b : Nat) : Bus := tabGet Bus.reset s.jct.buses b
/-- Crosspoint k; its bus counts only while the bus lists it. -/
def xpOf (s : State) (k : Nat) : XPoint := tabGet XPoint.reset s.jct.xps k
/-- Crosspoint k is on a bus's list. -/
def xpUsed (s : State) (k : Nat) : Bool := (busOf s (xpOf s k).bus).xps.contains k
/-- Sluice lane l. -/
def laneOf (s : State) (l : Nat) : SluLane := tabGet SluLane.reset s.slu.lanes l
/-- Sluice context k (lane × 512 + context). -/
def ctxOf (s : State) (k : Nat) : Option Ctx := tabGet none (laneOf s (k / 512)).ctxs (k % 512)
/-- Receive stream n. -/
def rxsOf (s : State) (n : Nat) : RxStream := tabGet RxStream.reset s.net.rxs n
/-- Transmit stream n. -/
def txsOf (s : State) (n : Nat) : TxStream := tabGet TxStream.reset s.net.txs n
/-- Flow entry e. -/
def flowOf (s : State) (e : Nat) : Option FlowEntry := tabGet none s.net.flow e
/-- Key slot k. -/
def slotOf (s : State) (k : Nat) : KeySlot := tabGet KeySlot.reset s.rime.slots k
/-- Quay port p. -/
def portOf (s : State) (p : Nat) : Port := tabGet Port.reset s.net.ports p
/-- DMA ring g: port × 32 + ring. -/
def dmaOf (s : State) (g : Nat) : DmaRing := tabGet DmaRing.reset s.net.rings g
/-- Clock of PTP instance x. -/
def clkOf (s : State) (x : Nat) : Clk := if x = 0 then s.tb.clkA else s.tb.clkB
/-- Lockkeeper is in thread mode. -/
def threadMode (s : State) : Bool := s.lkp.thread

/-- Change Basin c. -/
def modBasin (s : State) (c : Nat) (f : Basin → Basin) : State :=
  { s with media := { s.media with basins := tabMod Basin.reset s.media.basins c f } }
/-- Change replay ring r. -/
def modRing (s : State) (r : Nat) (f : Ring → Ring) : State :=
  { s with media := { s.media with rings := tabMod Ring.reset s.media.rings r f } }
/-- Change bus b. -/
def modBus (s : State) (b : Nat) (f : Bus → Bus) : State :=
  { s with jct := { s.jct with buses := tabMod Bus.reset s.jct.buses b f } }
/-- Change crosspoint k. -/
def modXp (s : State) (k : Nat) (f : XPoint → XPoint) : State :=
  { s with jct := { s.jct with xps := tabMod XPoint.reset s.jct.xps k f } }
/-- Change Sluice lane l. -/
def modLane (s : State) (l : Nat) (f : SluLane → SluLane) : State :=
  { s with slu := { s.slu with lanes := tabMod SluLane.reset s.slu.lanes l f } }
/-- Set Sluice context k. -/
def setCtx (s : State) (k : Nat) (x : Option Ctx) : State :=
  modLane s (k / 512) fun l => { l with ctxs := tabSet none l.ctxs (k % 512) x }
/-- Change Floe f. -/
def modFloe (s : State) (f : Nat) (g : Floe → Floe) : State := { s with floes := tabMod Floe.reset s.floes f g }
/-- Change receive stream n. -/
def modRxs (s : State) (n : Nat) (f : RxStream → RxStream) : State :=
  { s with net := { s.net with rxs := tabMod RxStream.reset s.net.rxs n f } }
/-- Change transmit stream n. -/
def modTxs (s : State) (n : Nat) (f : TxStream → TxStream) : State :=
  { s with net := { s.net with txs := tabMod TxStream.reset s.net.txs n f } }
/-- Change port p. -/
def modPort (s : State) (p : Nat) (f : Port → Port) : State :=
  { s with net := { s.net with ports := tabMod Port.reset s.net.ports p f } }
/-- Count in counter k of port p (R340). -/
def portCount (s : State) (p k n : Nat) : State := modPort s p fun q => { q with ctr := bump q.ctr k n }
/-- Change a port's settings. -/
def modCfg (s : State) (p : Nat) (f : PortCfg → PortCfg) : State := modPort s p fun q => { q with cfg := f q.cfg }
/-- Change DMA ring g. -/
def modDma (s : State) (g : Nat) (f : DmaRing → DmaRing) : State :=
  { s with net := { s.net with rings := tabMod DmaRing.reset s.net.rings g f } }
/-- Change key slot k. -/
def modSlot (s : State) (k : Nat) (f : KeySlot → KeySlot) : State :=
  { s with rime := { s.rime with slots := tabMod KeySlot.reset s.rime.slots k f } }
/-- Change the clock of instance x. -/
def modClk (s : State) (x : Nat) (f : Clk → Clk) : State :=
  if x = 0 then { s with tb := { s.tb with clkA := f s.tb.clkA } }
  else { s with tb := { s.tb with clkB := f s.tb.clkB } }

/-! ## Object states (R616) -/

/-- OBJ_STATE of object index k of class c. -/
def objState (s : State) (c k : Nat) : Nat :=
  match c with
  | 0x00 => s.dev.devState.no
  | 0x01 => (chanOf s k).st.no
  | 0x02 => if k < 0x10000 then b2n (s.mods.any fun m => m.modId == k)
    else let f := floeOf s (k - 0x10000); if f.fenced then 2 else if f.run then 0 else 1
  | 0x03 => b2n s.lkp.thread
  | 0x04 => (ringOf s k).st.no
  | 0x05 => (busOf s k).st.no
  | 0x06 => if xpUsed s k then (busOf s (xpOf s k).bus).st.no else 0
  | 0x07 => b2n (laneOf s k).run
  | 0x08 => b2n (ctxOf s k).isSome
  | 0x0A => (rxsOf s k).st.no
  | 0x0B => (txsOf s k).st.no
  | 0x0C => match flowOf s k with
    | none => 0
    | some e => (match e.act with | .stream _ | .weir _ => 2 | _ => 1)
  | 0x0D => s.tdm.st.no
  | 0x0E => b2n (clkOf s k).en
  | 0x0F => (slotOf s k).st.no
  | _ => 0xFF

/-! ## Replies (R611) -/

/-- One value of a reply record. -/
inductive RVal where
  | ctr (n : Nat)
  | val (n : Int)
  | wide (n : Nat)
  | blob (l : List Byte) (len : Nat)

/-- A value's bytes (R611). -/
def RVal.bytes : RVal → List Byte
  | .ctr n => leBytes n 8
  | .val n => leBytes (BitVec.ofInt 32 n).toNat 4
  | .wide n => leBytes n 8
  | .blob l len => (l ++ List.replicate (len - l.length) 0).take len ++ List.replicate (roundUp len 4 - len) 0

/-- The bytes of one record. -/
def recBytes (r : List RVal) : List Byte := (r.map RVal.bytes).flatten

/-- One kind of record: header and records (R611). -/
def replyOf (rs : List (List RVal)) : List Byte :=
  let bs := rs.map recBytes
  let all := bs.flatten
  leBytes rs.length 2 ++ leBytes ((bs.headD []).length) 2 ++ leBytes (8 + all.length) 4 ++ all

/-- A 64-bit object or Boolean as a value. -/
def RVal.flag (b : Bool) : RVal := .val (b2n b : Nat)
/-- A number as a value. -/
def nv (n : Nat) : RVal := .val n

/-! ## The catalogue row and the outcome of a command -/

/-- What the catalogue and the class tables say of one command (R469, R470, R474, R482). -/
structure NxSpec where
  opcode : Nat
  cls    : Nat
  /-- device states in which it is legal. -/
  states : List DevState
  /-- it changes state or configuration, so CMD_AUDIT records it (R536). -/
  audit  : Bool := true
  /-- it returns counters, so CLEAR may be set (R481, 0x0104). -/
  counts : Bool := false
  /-- as given, it addresses the Rime array (R3, 0x0401). -/
  rime   : Bool := false
  /-- the object states in which it is legal. -/
  legal  : State → Nat → Bool := fun _ _ => true
  /-- it acts on a protected object, so R356 applies in Tandem. -/
  prot   : State → Nat → Bool := fun _ _ => false

/-- Every device state. -/
def allStates : List DevState := [.boot, .selftest, .ready, .service, .recovery, .halted]
/-- READY, SERVICE. -/
def rs : List DevState := [.ready, .service]
/-- READY, SERVICE, RECOVERY. -/
def rsr : List DevState := [.ready, .service, .recovery]

/-- What the command's own rules and effect give. -/
inductive NxRes where
  /-- refused with a code, DETAIL_OBJ and DETAIL; no side effect (R475). -/
  | refuse (code : Nat) (obj : Word) (detail : Nat)
  /-- done: the state after, the reply, DETAIL. -/
  | done (s : State) (reply : List Byte) (detail : Nat)
  /-- a long command whose work goes on (R460). -/
  | long (s : State) (w : LongWork)
  /-- a rewind of ring n whose reply comes when it resolves (R240). -/
  | later (s : State) (n : Nat)

/-- Refused naming no object. -/
def no (code : Nat) : NxRes := .refuse code noObj 0
/-- Done without a reply. -/
def ok (s : State) : NxRes := .done s [] 0

/-- The first failing rule of a chapter's table: code and offending object (R474 check 6). -/
def firstBad : List (Bool × Nat × Word) → Option (Nat × Word)
  | [] => none
  | (true, _, _) :: t => firstBad t
  | (false, c, o) :: _ => some (c, o)

/-- Go on only when every rule holds. -/
def checked (rules : List (Bool × Nat × Word)) (k : NxRes) : NxRes :=
  match firstBad rules with
  | some (c, o) => .refuse c o 0
  | none => k

/-- Checks 1 of R474, in the order of the codes: the code that refuses, if any. -/
def fmtCheck (s : State) (sp : NxSpec) (f : Fmt) (h : NxHdr) : Option Nat :=
  if decide (payloadMax s < h.len) || (h.dma && h.len != 24) || !f.lenOk then some 0x0102
  else if h.cls != sp.cls || !idxOk h.opcode h.cls h.idx then some 0x0103
  else if decide (4 ≤ h.flags.toNat) || h.rsvd != 0 || (h.clear && !sp.counts) then some 0x0104
  else if h.dma && (h.inAddr % 8 != 0 || h.outAddr % 8 != 0 || decide (0x1000000 < h.inLen)
      || decide (0x1000000 < h.outLen)) then some 0x0105
  else if !f.rsvdOk then some 0x0106
  else none

/-- Checks 1 to 5 of R474: code that refuses, if any. -/
def judge (s : State) (sp : NxSpec) (f : Fmt) (h : NxHdr) : Option Nat :=
  match fmtCheck s sp f h with
  | some c => some c
  | none =>
    if (h.opcode / 256 = 0x0B ∨ sp.rime) ∧ s.dev.variant = .me then some 0x0401
    else if h.opcode / 256 = 0x0F ∧ s.dev.variant = .nx then some 0x0701
    else if s.tdm.st = .standby && sp.prot s h.idx then some 0x0202
    else if !sp.states.contains s.dev.devState || !sp.legal s h.idx then some 0x0201
    else if s.nx.long.any (fun l => l.hdr.object == h.object) then some 0x0204
    else none

/-- Write bytes into berth b at offset o. -/
def berthPut (s : State) (b o : Nat) (l : List Byte) : State :=
  { s with nx := { s.nx with berthMem := writeBytes s.nx.berthMem (b * berthSize s + o) l } }

/-- The CMD_AUDIT log record (R536): opcode, object and status. -/
def audit (s : State) (h : NxHdr) (status : Nat) : State :=
  logRec s 8 6 h.object (leBytes h.opcode 2 ++ leBytes h.object.toNat 4 ++ leBytes status 2)

/-- Step 1 of R461 and the completion entry of R465, which then waits its turn. -/
def complete (s : State) (b : Nat) (h : NxHdr) (status ost : Nat) (dobj : Word) (detail : Nat) (reply : List Byte) :
    State :=
  let inBerth := !h.dma
  let s := berthPut s b 6 (leBytes status 2)
  let s := berthPut s b 14 (leBytes (if inBerth then reply.length else 0) 2)
  let s := if inBerth then berthPut s b 16 reply else s
  let c : Cpl :=
    { berth := b, tag := h.tag, status := status, opcode := h.opcode, objState := ost, devState := s.dev.devState,
      object := h.object, detailObj := dobj, detail := BitVec.ofNat 32 detail, replyLen := reply.length,
      dma := if inBerth || reply.isEmpty then none else some (h.outAddr, reply) }
  { s with nx := { s.nx with waiting := s.nx.waiting ++ [c] } }

/-- A refusal: no side effect but the audit record and the completion (R474, R475). -/
def refused (s : State) (sp : NxSpec) (b : Nat) (h : NxHdr) (code : Nat) (dobj : Word) (detail : Nat) : State :=
  let s := if sp.audit then audit s h code else s
  let ost := if code = 0x0202 then s.tdm.st.no else objState s h.cls h.idx
  complete s b h code ost dobj detail []

/-- A reply of n bytes fits its place (R462). -/
def replyFits (s : State) (h : NxHdr) (n : Nat) : Bool := if h.dma then n ≤ h.outLen else n ≤ payloadMax s

/-- The processing frame of channel c in 48 kHz ticks (R82). -/
def frameOf (s : State) (c : Nat) : Nat :=
  match (chanOf s c).core.codec with
  | .opus => if (chanOf s c).core.opus20 then 960 else 480
  | .l16 | .l24 | .aes3 => (chanOf s c).core.ptime
  | _ => 480

/-- The tick at which a command executed now is mirrored: the first processing-frame boundary at least 1 ms later, on the
channel's grid, or the 10 ms grid for a command on no channel (R356, R477; log 27). -/
def mirrorTick (s : State) (h : NxHdr) : Nat :=
  roundUp (ceilDiv ((s.tb.sel + 65536000000) * 48000) unitsPerSec) (if h.cls = 1 then frameOf s h.idx else 480)

/-- A long command is in progress (R460). -/
def addLong (s : State) (b : Nat) (h : NxHdr) (w : LongWork) : State :=
  { s with nx := { s.nx with long := s.nx.long ++ [{ berth := b, hdr := h, work := w, done := 0 }] } }

/-- What becomes of a command that passed checks 1 to 5: its own rules, the reply, host accesses, the effect, and in
Tandem the mirroring of a protected command (R461, R462, R474, R476, R477, R481). i is the command itself. -/
def carry (s : State) (sp : NxSpec) (f : Fmt) (b : Nat) (h : NxHdr) (i : Instr) (body : NxHdr → State → NxRes) :
    State :=
  match (if h.dma && decide (0 < h.inLen) then f.inFail else none) with
  | some n => refused s sp b h 0x0510 noObj n
  | none =>
    match body h s with
    | .refuse c o d => refused s sp b h c o d
    | .done s' reply d =>
      if !replyFits s h reply.length then refused s sp b h 0x0301 noObj reply.length
      else
        match (if h.dma && !reply.isEmpty then f.outFail else none) with
        | some n => refused s sp b h 0x0510 noObj n
        | none =>
          if sp.prot s h.idx && s.tdm.st = .primary then
            let t := mirrorTick s h
            let s := { s with mirror := s.mirror ++ [(t, h, i)], mirrorOut := s.mirrorOut ++ [(t, h, i)] }
            let s := if sp.audit then audit s h 0 else s
            complete s b h 0 (objState s h.cls h.idx) noObj t reply
          else
            let s' := if sp.audit then audit s' h 0 else s'
            complete s' b h 0 (objState s' h.cls h.idx) noObj d reply
    | .long s' w => addLong s' b h w
    | .later s' n => { s' with nx := { s'.nx with later := s'.nx.later ++ [(n, b, h)] } }

/-- The rewind of ring n that waited is done: its completion takes its place now (R240). -/
def endLater (s : State) (n : Nat) (reply : List Byte) : State :=
  match s.nx.later.find? (fun x => x.1 == n) with
  | none => s
  | some (_, b, h) =>
    let s := { s with nx := { s.nx with later := s.nx.later.filter fun x => x.1 != n } }
    complete (audit s h 0) b h 0 (objState s h.cls h.idx) noObj 0 reply

/-- The interpreter can execute berth b now: it runs, and b is the oldest berth rung (R459, R487). -/
def nxReady (s : State) (b : Nat) : Bool :=
  s.dev.nxUp && s.dev.iceRuns && !s.dev.inReset && s.nx.rung.head? == some b

/-- Whether berth b's input can be read: reads of host memory are held under R452. -/
def inputOk (s : State) (h : NxHdr) : Bool := !h.dma || h.inLen == 0 || hostOk s

/-- The oldest doorbell is taken. -/
def takeBell (s : State) : State := { s with nx := { s.nx with rung := s.nx.rung.drop 1 } }

/-- The state in which the effect of berth b's command begins: its doorbell is taken and its trace record made. -/
def nxAt (s : State) (b : Nat) : State :=
  trace (takeBell s) 1 ((hdrOf s b).opcode + (hdrOf s b).object.toNat * 2 ^ 32)

/-- The execution of berth b as the command sp (R459, R474). Nothing happens where the berth is not the one to execute or
holds another command's opcode; an opcode in no catalogue row is refused with 0x0101. -/
def runNx (sp : NxSpec) (b : Nat) (f : Fmt) (i : Instr) (body : NxHdr → State → NxRes) (s : State) : Out :=
  let h := hdrOf s b
  if !nxReady s b || !inputOk s h || (opcodes.contains h.opcode && h.opcode != sp.opcode) then .next s
  else if !opcodes.contains h.opcode then
    fin (complete (nxAt s b) b h 0x0101 (objState (nxAt s b) h.cls h.idx) noObj 0 [])
  else
    match judge (nxAt s b) sp f h with
    | some c => fin (refused (nxAt s b) sp b h c noObj 0)
    | none => fin (carry (nxAt s b) sp f b h i body)

/-- Berth b holds the command sp and is the one to execute now (R459). -/
def nxTaken (sp : NxSpec) (b : Nat) (s : State) : Bool :=
  nxReady s b && inputOk s (hdrOf s b) && (hdrOf s b).opcode == sp.opcode && opcodes.contains sp.opcode

/-- Berth b holds the command sp, is the one to execute now, and passes checks 1 to 5 and its input read (R474, R476). -/
def nxAccepted (sp : NxSpec) (b : Nat) (f : Fmt) (s : State) : Bool :=
  nxTaken sp b s && (judge (nxAt s b) sp f (hdrOf s b)).isNone
    && !((hdrOf s b).dma && decide (0 < (hdrOf s b).inLen) && f.inFail.isSome)

/-! ## Long commands (R460, R473) -/

/-- A long command ends: its completion takes its place now (R460). -/
def endLong (s : State) (l : LongCmd) (status detail : Nat) (reply : List Byte) : State :=
  let s := { s with nx := { s.nx with long := s.nx.long.filter fun x => x != l } }
  let s := if [0x0414, 0x0D02].contains l.hdr.opcode then s else audit s l.hdr status
  complete s l.berth l.hdr status (objState s l.hdr.cls l.hdr.idx) noObj detail reply

/-- Device states in which a long command may go on; NX_DEV_SELFTEST is not ended by the SELFTEST state it causes
(R473, R482; log 28). -/
def longStates (op : Nat) : List DevState :=
  if op = 0x0005 then [.ready, .selftest] else if op = 0x0201 then [.ready]
  else if op = 0x0414 then rsr else if op = 0x0B06 then [.service]
  else if op = 0x0D02 then [.selftest, .ready, .service, .recovery, .halted] else rs

/-- A long command's object is still in a state in which it is legal (R473). -/
def longObjOk (s : State) (l : LongCmd) : Bool :=
  match l.work with
  | .ringRead r _ _ => (ringOf s r).st == .enabled
  | .sluLoad _ _ => !(laneOf s l.hdr.idx).run
  | .rimeXts k _ _ => (slotOf s k).st == .loaded
  | _ => true

/-- What a long command leaves undone is undone: a Floe waiting for a module takes work again (R150, R473). -/
def longTidy (s : State) : LongWork → State
  | .modLoad _ (some (_, _, _, k)) => modFloe s k fun x => { x with withhold := false }
  | _ => s

/-- End with 0x0205 every long command that has lost its states (R473). -/
def endIllegal (s : State) : State :=
  s.nx.long.foldl (fun s l =>
    if (longStates l.hdr.opcode).contains s.dev.devState && longObjOk s l then s
    else endLong (longTidy s l.work) l 0x0205 l.done []) s

end Sys2Proof.Machine
end

