-- ==== Sys2Proof/Machine/FlumeOps.lean ====
section
/-! DEFINITION. Flumes: shapes, pushing, popping and the two flags (R48-R68). -/

namespace Sys2Proof.Machine

/-- Shape of a flume: words of an item, log2 of the body entries, AF, AE, whether its writer cannot wait (R68). -/
structure Shape where
  width  : Nat
  log2b  : Nat
  af     : Nat
  ae     : Nat
  noWait : Bool
deriving DecidableEq, Repr

/-- The flume table (R68). -/
def flumeShape (i : Nat) : Option Shape :=
  if i < 96 then some ⟨4, 4, 12, 1, false⟩ else if i < 192 then some ⟨4, 2, 3, 0, false⟩
  else if i < 384 then some ⟨9, 5, 24, 2, false⟩ else if i < 388 then some ⟨8, 9, 384, 8, true⟩
  else if i < 392 then some ⟨8, 9, 384, 8, false⟩ else if i < 396 then some ⟨4, 6, 48, 1, false⟩
  else if i < 400 then some ⟨2, 6, 48, 1, true⟩ else if i < 408 then some ⟨2, 4, 12, 1, false⟩
  else if i < 416 then some ⟨4, 6, 48, 2, false⟩ else if i < 424 then some ⟨4, 6, 48, 2, true⟩
  else if i = 424 then some ⟨4, 9, 384, 4, true⟩ else if i = 425 then some ⟨4, 9, 384, 4, false⟩
  else if i < 434 then some ⟨1, 7, 96, 8, true⟩ else if i < 442 then some ⟨1, 7, 96, 8, false⟩
  else if i < 446 then some ⟨2, 4, 12, 1, false⟩ else if i < 448 then some ⟨1, 5, 24, 1, false⟩
  else if i < 450 then some ⟨1, 6, 48, 1, false⟩ else if i = 450 then some ⟨1, 11, 1536, 8, false⟩
  else if i = 451 then some ⟨1, 11, 1536, 8, true⟩ else if i < 454 then some ⟨1, 6, 48, 1, false⟩
  else if i < 458 then some ⟨1, 4, 12, 1, false⟩ else if i < 686 then some ⟨9, 5, 24, 2, false⟩
  else none

/-- The bank of Floe f (R68). -/
def bankOf (f : Nat) : Nat := 2 * (f / 24) + if f % 24 < 12 then 0 else 1

/-- Timing domain of a flume's reader (R21, R25, R68); an LPDDR5X controller is one clocked domain with its PHY (R23). -/
def flumeDomain (i : Nat) : Nat :=
  if i < 96 then (156 + bankOf i) else if i < 192 then (i - 96) else if i < 288 then 210
  else if i < 384 then (i - 288) else if i < 388 then (172 + 2 * (i - 384))
  else if i < 392 then (213 + 2 * (i - 388)) else if i < 400 then 230
  else if i < 408 then (212 + (i - 400)) else if i < 416 then (222 + (i - 408))
  else if i < 424 then 222 + (i - 416) else if i = 424 then 210 else if i = 425 then 221
  else if i < 434 then 210 else if i < 442 then (240 + (i - 434)) else if i < 444 then 232
  else if i < 446 then (194 + (i - 444)) else if i = 446 then 230 else if i = 447 then 210
  else if i = 448 then 233 else if i = 449 then 210 else if i = 450 then 234
  else if i = 451 then 233 else if i = 452 then 238 else if i = 453 then 233
  else if i = 454 then 239 else if i = 455 then 233 else if i = 456 then 237
  else if i = 457 then 233 else if i < 572 then 210 else (i - 572 + 96)

/-- Body entries of flume i. -/
def flumeB (i : Nat) : Nat := match flumeShape i with | some h => 2 ^ h.log2b | none => 0

/-- Flume i. -/
def flumeOf (s : State) (i : Nat) : Flume := tabGet Flume.reset s.flumes i
/-- Set flume i. -/
def setFlume (s : State) (i : Nat) (f : Flume) : State := { s with flumes := tabSet Flume.reset s.flumes i f }

/-- A pointer in Gray code (R50). -/
def gray (n : Nat) : Nat := n ^^^ (n / 2)
/-- A Gray pointer of at most 12 bits converted back to binary (R50). -/
def ungray (g : Nat) : Nat := (nums 12).foldl (fun n k => n ^^^ (g / 2 ^ k)) 0

/-- Body occupancy the writer sees: its pointer less the synchronised read pointer, both in binary (R50, R54). -/
def Flume.wrOcc (f : Flume) (b : Nat) : Nat := (ungray f.wptr + 2 * b - ungray f.rSeen) % (2 * b)
/-- Items of the body the reader sees (R50, R54). -/
def Flume.bodySeen (f : Flume) (b : Nat) : Nat := (ungray f.wSeen + 2 * b - ungray f.rptr) % (2 * b)
/-- FULL_W: the two most significant bits of the Gray pointers differ and all other bits are equal (R50, R54). -/
def Flume.fullW (f : Flume) (b : Nat) : Bool := (f.wptr ^^^ f.rSeen) == b + b / 2
/-- EMPTY_R: no item stands in the head's output stage (R54). -/
def Flume.emptyR (f : Flume) : Bool := f.head.isEmpty
/-- Items available to the reader, in the head and in the body it sees (R57, R67). -/
def Flume.rdAvail (f : Flume) (b : Nat) : Nat := f.head.length + f.bodySeen b
/-- AFULL: the body occupancy the writer sees has reached AF (R57). -/
def Flume.afull (f : Flume) (h : Shape) : Bool := decide (h.af ≤ f.wrOcc (2 ^ h.log2b))
/-- AEMPTY: the items available to the reader number AE or fewer (R57). -/
def Flume.aempty (f : Flume) (h : Shape) : Bool := decide (f.rdAvail (2 ^ h.log2b) ≤ h.ae)

/-- FLM_STATUS (R67). -/
def Flume.status (f : Flume) (h : Shape) : Nat :=
  let b := 2 ^ h.log2b
  b2n (f.fullW b) * 2 ^ 31 + b2n f.emptyR * 2 ^ 30 + b2n (f.afull h) * 2 ^ 29 + b2n (f.aempty h) * 2 ^ 28
    + b2n (!f.held.isEmpty) * 2 ^ 27 + f.wrOcc b * 2 ^ 12 + f.rdAvail b
/-- FLM_SHAPE (R67). -/
def Shape.word (h : Shape) : Nat := h.width * 2 ^ 28 + h.log2b * 2 ^ 24 + h.af * 2 ^ 12 + h.ae
/-- FLM_UE (R64, R67). -/
def Flume.ueWord (f : Flume) : Nat := b2n f.ueSeen * 2 ^ 31 + f.ue

/-- Write an item into the body (R48, R50). -/
def Flume.put (f : Flume) (b : Nat) (x : FItem) : Flume :=
  let n := ungray f.wptr
  { f with body := f.body ++ [(n % b, x)], wptr := gray ((n + 1) % (2 * b)) }

/-- Body items the reader sees fall into the free head stages (R48, R54); n bounds the moves. -/
def Flume.fall (f : Flume) (b : Nat) : Nat → Flume
  | 0 => f
  | n + 1 =>
    if f.head.length < 4 && decide (0 < f.bodySeen b) then
      match f.body with
      | x :: t => Flume.fall { f with body := t, head := f.head ++ [x], rptr := gray ((ungray f.rptr + 1) % (2 * b)) } b n
      | [] => f
    else f

/-- Push what fits of the held items, in order (R55, R60). -/
def Flume.pushHeld (f : Flume) (b : Nat) : Nat → Flume
  | 0 => f
  | n + 1 =>
    match f.held with
    | [] => f
    | x :: t => if f.fullW b then f else Flume.pushHeld (({ f with held := t } : Flume).put b x) b n

/-- A waiting writer's push: acknowledged, or held behind what is held already (R55). -/
def Flume.push (f : Flume) (b : Nat) (xs : List FItem) : Flume :=
  ({ f with held := f.held ++ xs } : Flume).pushHeld b (f.held.length + xs.length)

/-- A no-wait writer's unit: all of it, or none (R61). -/
def Flume.pushUnit (f : Flume) (b : Nat) (xs : List FItem) : Option Flume :=
  if f.wrOcc b + xs.length ≤ b then some (xs.foldl (fun f x => f.put b x) f) else none

/-- The reader has seen the write pointer: items reach the output stage and EMPTY_R clears (R54, R56). -/
def Flume.emptyClear (f : Flume) (b : Nat) : Flume := Flume.fall { f with wSeen := f.wptr } b 4

/-- The writer has seen the read pointer: FULL_W clears and a held push proceeds (R54-R56). -/
def Flume.fullClear (f : Flume) (b : Nat) : Flume :=
  ({ f with rSeen := f.rptr } : Flume).pushHeld b f.held.length

/-- The item in the output stage with its body slot, and the flume after the pop (R55, R58, R59). -/
def Flume.pop (f : Flume) (b : Nat) : Option ((Nat × FItem) × Flume) :=
  match f.head with
  | [] => none
  | x :: t => some (x, Flume.fall { f with head := t } b 4)

/-- The words as delivered: an uncorrectable word gains its poison bit (R64). -/
def checkWords : List FWord → List Ecc → List FWord
  | [], _ => []
  | w :: t, [] => w :: t
  | w :: t, e :: r => (if e = .bad then { w with poison := true } else w) :: checkWords t r

/-- STAGE of word n of the item in body slot k of flume i (R65). -/
def flumeStage (i k n : Nat) : Nat := k * (match flumeShape i with | some h => h.width | none => 0) + n

/-- What the code check found in one word w, number n of flume i's item in body slot k: a corrected bit is counted and
recorded with its site, an uncorrectable word raises FLUME_UE; a word that was poisoned already is no flume error (R63-R65;
log 160). -/
def flumeWord (s : State) (i k n : Nat) (w : FWord) : Ecc → State
  | .ok => s
  | .corrected bit =>
    let s := setFlume s i { flumeOf s i with ce := min ((flumeOf s i).ce + 1) 0xFFFF }
    hwFault s 0 (siteBit (flumeDomain i) (0x8000 + i) (flumeStage i k n) bit)
  | .bad =>
    if w.poison then s
    else
      let s := setFlume s i { flumeOf s i with ue := min ((flumeOf s i).ue + 1) 0xFFFF, ueSeen := true }
      alarm s 0x13 0 (BitVec.ofNat 64 i) (siteStage (flumeDomain i) (0x8000 + i) (flumeStage i k n))

/-- What the code check found in the words of flume i's item in body slot k, from word n on (R62-R65). -/
def flumeEcc (s : State) (i k n : Nat) : List FWord → List Ecc → State
  | w :: t, e :: r => flumeEcc (flumeWord s i k n w e) i k (n + 1) t r
  | _, _ => s

/-- Pop flume i: the item as delivered, and the state after with its errors counted; none while EMPTY_R is set. -/
def popFlume (s : State) (i : Nat) (ecc : List Ecc) : Option (FItem × State) :=
  match (flumeOf s i).pop (flumeB i) with
  | none => none
  | some ((k, x), f) =>
    some ({ x with words := checkWords x.words ecc }, flumeEcc (setFlume s i f) i k 0 x.words ecc)

/-- Push items of a waiting writer into flume i. -/
def pushFlume (s : State) (i : Nat) (xs : List FItem) : State := setFlume s i ((flumeOf s i).push (flumeB i) xs)

/-- A work item as a flume item with its side field (R175). -/
def Item.flit (it : Item) (side : BitVec 2) : FItem :=
  { words := [⟨it.w0, it.px.getLsbD 0⟩, ⟨it.w1, it.px.getLsbD 1⟩, ⟨it.w2, it.px.getLsbD 2⟩, ⟨it.w3, it.px.getLsbD 3⟩],
    side := side }

/-- The first four words of a flume item read back as a work item. -/
def FItem.item (x : FItem) : Item :=
  match x.words with
  | a :: b :: c :: d :: _ =>
    { w0 := a.data, w1 := b.data, w2 := c.data, w3 := d.data,
      px := BitVec.ofNat 4 (b2n a.poison + 2 * b2n b.poison + 4 * b2n c.poison + 8 * b2n d.poison) }
  | _ => { w0 := 0, w1 := 0, w2 := 0, w3 := 0, px := 15 }

/-- The host reads or writes a BAR0 register other than the DEV registers: only once the interpreter runs (R487). -/
def barLive (s : State) (a : Agent) : Bool := !s.dev.inReset && (a == .canal || s.dev.nxUp)

/-- An access to an unmapped BAR0 offset or of a size not permitted (R454). -/
def unmapped (s : State) : State :=
  modDev (returned s 0) fun d => { d with unmapped := sat32 (d.unmapped + 1) }

end Sys2Proof.Machine
end

