-- ==== Sys2Proof/Machine/LkpOps.lean ====
section
/-! DEFINITION. The Lockkeeper: descriptors, admission, chambers, dispatch, the Towpath (chapter 06). -/

namespace Sys2Proof.Machine

/-! ## The descriptor (R173) -/

/-- Bits [hi:lo] of a descriptor word. -/
def fld (w : DWord) (hi lo : Nat) : Nat := bitsOf w.toNat hi lo
/-- KIND. -/
def Item.kind (i : Item) : Nat := fld i.w0 5 0
/-- ATOMIC. -/
def Item.atomic (i : Item) : Bool := i.w0.getLsbD 8
/-- DELAY. -/
def Item.delay (i : Item) : Bool := i.w0.getLsbD 9
/-- PRIO. -/
def Item.prio (i : Item) : Nat := fld i.w0 19 16
/-- GROUP; 0xFF = none. -/
def Item.group (i : Item) : Nat := fld i.w0 31 24
/-- CHAMBER. -/
def Item.chamber (i : Item) : Nat := fld i.w0 47 32
/-- TARGET. -/
def Item.target (i : Item) : Nat := fld i.w0 55 48
/-- TICKS. -/
def Item.ticks (i : Item) : Nat := fld i.w1 24 0
/-- PTR. -/
def Item.ptr (i : Item) : Nat := fld i.w2 39 0

/-- A descriptor with the fields given; DELAY and TICKS zero. -/
def mkItem (kind : Nat) (atomic : Bool) (prio group chamber target ptr arg : Nat) : Item :=
  { w0 := BitVec.ofNat 64 (kind + b2n atomic * 2 ^ 8 + prio * 2 ^ 16 + group * 2 ^ 24 + chamber * 2 ^ 32
      + target * 2 ^ 48),
    w1 := 0, w2 := BitVec.ofNat 64 ptr, w3 := BitVec.ofNat 64 arg, px := 0 }

/-- Reach a TARGET names, if it is valid. -/
def targetReach (t : Nat) : Option Nat := if t < 96 then some (t / 24) else if 0x80 ≤ t ∧ t < 0x84 then some (t - 0x80)
  else none

/-- Malformed under R174; words that arrive poisoned are not judged (R178). -/
def Item.bad (i : Item) (inj : Option Nat) : Bool :=
  let w0 := !i.px.getLsbD 0
  let w1 := !i.px.getLsbD 1
  let w2 := !i.px.getLsbD 2
  (w0 && (fld i.w0 7 6 != 0 || (decide (7 < i.group) && i.group != 0xFF) || (targetReach i.target).isNone
      || fld i.w0 15 10 != 0 || fld i.w0 23 20 != 0 || fld i.w0 63 56 != 0
      || (match inj with | some r => targetReach i.target != some r | none => false)))
    || (w1 && (fld i.w1 31 25 != 0 || fld i.w1 63 32 != 0))
    || (w0 && w1 && i.delay && (i.ticks == 0 || decide (2 ^ 24 < i.ticks)))
    || (w2 && fld i.w2 63 40 != 0)

/-- Poisoned so that it cannot be admitted (R178). -/
def Item.unroutable (i : Item) : Bool := i.px.getLsbD 0 || (i.delay && i.px.getLsbD 1)

/-- The bank that admits an item (before R179). -/
def admitBank (t : Nat) : Nat := if t < 96 then bankOf t else 2 * (t - 0x80)

/-! ## Reaches and banks -/

/-- Lockkeeper structures of reach r. -/
def lkpReach (s : State) (r : Nat) : LkpReach := tabGet LkpReach.reset s.lkp.reaches r
/-- Lockkeeper structures of bank k. -/
def lkpBank (s : State) (k : Nat) : LkpBank := tabGet LkpBank.reset s.lkp.banks k
/-- Change reach r. -/
def modReach (s : State) (r : Nat) (f : LkpReach → LkpReach) : State :=
  { s with lkp := { s.lkp with reaches := tabMod LkpReach.reset s.lkp.reaches r f } }
/-- Change bank k. -/
def modBank (s : State) (k : Nat) (f : LkpBank → LkpBank) : State :=
  { s with lkp := { s.lkp with banks := tabMod LkpBank.reset s.lkp.banks k f } }
/-- Pound p of a reach. -/
def LkpReach.pound (r : LkpReach) (p : Nat) : List Held := tabGet [] r.pounds p
/-- Group queue g of a reach. -/
def LkpReach.gq (r : LkpReach) (g : Nat) : List Held := tabGet [] r.groups g
/-- Delay list n of a reach. -/
def LkpReach.list (r : LkpReach) (n : Nat) : List Delayed := tabGet [] r.tow n
/-- Chamber queue entries of every bank (R170). -/
def chqAll (s : State) : List Held := ((nums 8).map fun k => (lkpBank s k).chq).flatten

/-- Névé offsets of the held-chamber tables and of the chamber queue: the first and second 512 KiB of the chamber spill partition
(R171). -/
def heldBase (s : State) : Nat := partBase s 3
def chqBase (s : State) : Nat := partBase s 3 + 0x80000

/-- Word q of the chamber queue's entry n is poisoned: the entries of the banks follow one another (R170, R171; log 165). -/
def chqHurt (s : State) (n q : Nat) : State :=
  ((nums 8).foldl (fun (p : Nat × State) k =>
    let m := (lkpBank p.2 k).chq.length
    if p.1 < m then
      (p.1 + 2 ^ 20, modBank p.2 k fun b => { b with chq := b.chq.modify p.1 fun h =>
        { h with it := { h.it with px := h.it.px ||| (1 <<< q) } } })
    else (p.1 - m, p.2)) (n, s)).2

/-! ## Room (R197) -/

/-- A structure of which each of its Floes has a reserve of 16 entries takes one more item from p; shared is the part
open to every producer, own whether Floe f has a reserve there. -/
def hasRoom (q : List Held) (shared : Nat) (own : Nat → Bool) (p : Producer) : Bool :=
  let of (f : Nat) := (q.filter fun h => h.from_ == .floe f).length
  let fs := ((q.filterMap fun h => match h.from_ with | .floe f => some f | _ => none).eraseDups).filter own
  let reserved := (fs.map fun f => min (of f) 16).sum
  (match p with | .floe f => own f && decide (of f < 16) | _ => false) || decide (q.length - reserved < shared)

/-- Room in the pound or group queue of reach r that an item enters. -/
def queueRoom (s : State) (r : Nat) (h : Held) : Bool :=
  let own (f : Nat) := f / 24 == r
  if h.it.group = 0xFF then hasRoom ((lkpReach s r).pound h.it.prio) 1664 own h.from_
  else hasRoom ((lkpReach s r).gq h.it.group) 640 own h.from_

/-- Room in the chamber queue. -/
def chqRoom (s : State) (h : Held) : Bool := hasRoom (chqAll s) 14848 (fun _ => true) h.from_

/-! ## Admission (R179) -/

/-- An item enters the tail of its group queue or pound; the greatest depth is kept (R206). -/
def enterQueue (s : State) (r : Nat) (h : Held) : State :=
  modReach s r fun x =>
    if h.it.group = 0xFF then
      let q := x.pound h.it.prio ++ [h]
      { x with pounds := tabSet [] x.pounds h.it.prio q,
               poundPeak := tabSet 0 x.poundPeak h.it.prio (max (tabGet 0 x.poundPeak h.it.prio) q.length) }
    else
      let q := x.gq h.it.group ++ [h]
      { x with groups := tabSet [] x.groups h.it.group q,
               groupPeak := tabSet 0 x.groupPeak h.it.group (max (tabGet 0 x.groupPeak h.it.group) q.length) }

/-- Steps 2 to 4 of R179 in the bank the TARGET names; none when a structure has no room. -/
def admitNow (s : State) (h : Held) : Option State :=
  let k := admitBank h.it.target
  let r := k / 2
  let b := lkpBank s k
  if h.it.atomic && b.heldCh.contains h.it.chamber then
    if chqRoom s h then some (modBank s k fun b => { b with chq := b.chq ++ [h] }) else none
  else if !queueRoom s r h then none
  else if h.it.atomic then
    if b.heldCh.length < 8192 then
      some (enterQueue (modBank s k fun b => { b with heldCh := b.heldCh ++ [h.it.chamber] }) r h)
    else none
  else some (enterQueue s r h)

/-- The delay list an item enters (R191). -/
def towList (i : Item) : Nat := if i.group = 0xFF then i.prio / 4 else 3

/-- Insert into a list sorted by due boundary, behind equals (R191). -/
def insertDue (d : Delayed) : List Delayed → List Delayed
  | [] => [d]
  | x :: t => if d.due < x.due then d :: x :: t else x :: insertDue d t

/-- An item with DELAY enters the Towpath, due TICKS boundaries after the latest one (R190-R192). -/
def enterTow (s : State) (r : Nat) (h : Held) : Option State :=
  let n := towList h.it
  if ((lkpReach s r).list n).length < 1024 then
    some (modReach s r fun x =>
      let d : Delayed := { due := s.lkp.boundary + h.it.ticks, stamp := x.stamp, h := h, fell := none }
      { x with tow := tabSet [] x.tow n (insertDue d (x.list n)), stamp := (x.stamp + 1) % 2 ^ 32 })
  else none

/-- A well-formed item is admitted, into the Towpath first where DELAY is set (R179). -/
def admitHeld (s : State) (h : Held) : Option State :=
  if h.it.delay then enterTow s (admitBank h.it.target / 2) h else admitNow s h

/-! ## Dispatch (R184-R188) -/

/-- An item may run on Floe f. -/
def eligible (f : Nat) (h : Held) : Bool := h.it.target == f || h.it.target == 0x80 + f / 24

/-- Floes of bank k. -/
def bankFloes (k : Nat) : List Nat := numsFrom (24 * (k / 2) + 12 * (k % 2)) 12

/-- The bank's records of the items in Floe f's work slots (R176). -/
def slotRecs (b : LkpBank) (f : Nat) : List SlotRec := tabGet [] b.slots f

/-- Slots the bank may fill on Floe f: both, or in thread mode the current one of an idle Floe (R184, R202). A fenced
Floe takes nothing (R146), nor one the Icehouse withholds dispatch from (R150, R614). -/
def slotFree (s : State) (k f : Nat) : Bool :=
  !(floeOf s f).fenced && !(floeOf s f).withhold && decide ((slotRecs (lkpBank s k) f).length < if s.lkp.thread then 1 else 2)

/-- Some item waits that Floe f may take. -/
def anyFor (s : State) (r f : Nat) : Bool :=
  let x := lkpReach s r
  x.pounds.any (fun p => p.2.any (eligible f)) || x.groups.any (fun g => g.2.any (eligible f))

/-- The Floe of bank k served next: an empty current slot before a next slot alone, then the lowest number (R186). -/
def floeToServe (s : State) (k : Nat) : Option Nat :=
  let ok := (bankFloes k).filter fun f => slotFree s k f && anyFor s (k / 2) f
  match ok.find? (fun f => (slotRecs (lkpBank s k) f).isEmpty) with
  | some f => some f
  | none => ok.head?

/-- Weight of group g (R188; resets to 1). -/
def weightOf (s : State) (g : Nat) : Nat := tabGet 1 s.lkp.weights g

/-- Group g holds an item for bank k: one that a Floe of the bank may take. -/
def groupFor (s : State) (k g : Nat) : Bool :=
  ((lkpReach s (k / 2)).gq g).any fun h => (bankFloes k).any fun f => eligible f h

/-- The group after g, in turn, that holds an item eligible for f. -/
def nextGroup (s : State) (k f g : Nat) : Nat :=
  (((numsFrom (g + 1) 8).map (· % 8)).find? fun j => ((lkpReach s (k / 2)).gq j).any (eligible f)).getD g

/-- The group R187 picks for Floe f of bank k, and the bank's round pointer and deficits after; n bounds the loop. -/
def drrPick (s : State) (k f : Nat) (b : LkpBank) : Nat → Nat × LkpBank
  | 0 => (nextGroup s k f b.rr, b)
  | n + 1 =>
    let g := b.rr
    if !groupFor s k g then
      drrPick s k f { b with deficit := tabSet 0 b.deficit g 0, rr := (g + 1) % 8 } n
    else if !((lkpReach s (k / 2)).gq g).any (eligible f) then (nextGroup s k f g, b)
    else
      let d := tabGet 0 b.deficit g
      let d := (if d = 0 then weightOf s g else d) - 1
      (g, { b with deficit := tabSet 0 b.deficit g d, rr := if d = 0 then (g + 1) % 8 else g })

/-- Take the first item eligible for f out of a queue. -/
def takeFor (f : Nat) (q : List Held) : Option (Held × List Held) :=
  match q.find? (eligible f) with
  | some h => some (h, q.erase h)
  | none => none

/-- Count a dispatch in the bank's window and the reach's counters, record the slot, push the descriptor into flume
96 + f, and trace it (R176, R184, R185, R539). -/
def place (s : State) (k f : Nat) (grp : Bool) (h : Held) : State :=
  let s := modBank s k fun b =>
    { b with window := (grp :: b.window).take 100,
             slots := tabSet [] b.slots f (slotRecs b f ++ [⟨h.it.chamber, h.it.atomic, admitBank h.it.target⟩]) }
  let s := modReach s (k / 2) fun x =>
    { x with disp := sat64 (x.disp + 1), gdisp := if grp then sat64 (x.gdisp + 1) else x.gdisp }
  let s := pushFlume s (96 + f) [h.it.flit 0]
  trace s 2 (f + h.it.chamber * 2 ^ 16)

/-- One dispatch decision of bank k for Floe f (R185). -/
def dispatchTo (s : State) (k f : Nat) : State :=
  let r := k / 2
  let x := lkpReach s r
  let ordinary := x.pounds.any fun p => p.2.any (eligible f)
  let allowed := decide (((lkpBank s k).window.filter id).length < s.lkp.ceil) || !ordinary
  if allowed && x.groups.any (fun g => g.2.any (eligible f)) then
    let (g, b) := drrPick s k f (lkpBank s k) 8
    match takeFor f (x.gq g) with
    | none => s
    | some (h, q) =>
      let s := modBank s k fun _ => b
      place (modReach s r fun x => { x with groups := tabSet [] x.groups g q }) k f true h
  else
    match ((nums 16).reverse).find? (fun p => (x.pound p).any (eligible f)) with
    | none => s
    | some p =>
      match takeFor f (x.pound p) with
      | none => s
      | some (h, q) => place (modReach s r fun x => { x with pounds := tabSet [] x.pounds p q }) k f false h

/-- The two banks of reach r decide in turn, bank 2r first, until neither can (R184, R186). -/
def dispatch (s : State) (r : Nat) : Nat → State
  | 0 => s
  | n + 1 =>
    match floeToServe s (2 * r), floeToServe s (2 * r + 1) with
    | none, none => s
    | a, _ =>
      let s := match a with
        | some f => dispatchTo s (2 * r) f
        | none => s
      let s := match floeToServe s (2 * r + 1) with
        | some f => dispatchTo s (2 * r + 1) f
        | none => s
      dispatch s r n

/-! ## What moves by itself (R182, R194) -/

/-- The two banks of bank k's reach; either dispatches what bank 2r admitted for the whole reach (R179). -/
def bankPair (k : Nat) : List Nat := [2 * (k / 2), 2 * (k / 2) + 1]

/-- An item of bank k's chamber c is in a pound, a group queue or a work slot; where none is, the chamber is held by a queued item
that waits for room (R180, R182). -/
def chamberOut (s : State) (k c : Nat) : Bool :=
  let x := lkpReach s (k / 2)
  let mine (h : Held) := h.it.atomic && h.it.chamber == c && admitBank h.it.target == k
  x.pounds.any (fun p => p.2.any mine) || x.groups.any (fun g => g.2.any mine)
    || (bankPair k).any fun j => (lkpBank s j).slots.any fun p => p.2.contains ⟨c, true, k⟩

/-- Release into its queue the oldest waiting item of each chamber that has none out, where there is room (R182). -/
def releaseHeads (s : State) (k : Nat) : State :=
  (((lkpBank s k).chq.map fun h => h.it.chamber).eraseDups).foldl (fun s c =>
    if chamberOut s k c then s
    else match (lkpBank s k).chq.find? (fun h => h.it.chamber == c) with
      | none => s
      | some h =>
        if queueRoom s (k / 2) h then
          enterQueue (modBank s k fun b => { b with chq := b.chq.erase h }) (k / 2) h
        else s) s

/-- Towpath period in units of 2^-16 ns (R189). -/
def towPeriod (s : State) : Nat := s.lkp.tick * 250 * 65536

/-- The reach's foremost due item: list, item (R194). -/
def dueHead (s : State) (r : Nat) : Option (Nat × Delayed) :=
  let heads := (nums 4).filterMap fun n => match (lkpReach s r).list n with
    | d :: _ => if d.due ≤ s.lkp.boundary then some (n, d) else none
    | [] => none
  heads.foldl (fun best x => match best with
    | none => some x
    | some y => if x.2.due < y.2.due ∨ (x.2.due = y.2.due ∧ x.2.stamp < y.2.stamp) then some x else some y) none

/-- DELAY cleared (R179 step 1). -/
def Item.undelayed (i : Item) : Item := { i with w0 := i.w0 &&& ~~~(BitVec.ofNat 64 0x200) }

/-- A retire record stands at the head of an input flume of bank k: it is handled before any admission (R183). -/
def retireWaits (s : State) (k : Nat) : Bool :=
  (bankFloes k).any fun f => match (flumeOf s f).head with
    | x :: _ => x.2.side == 1
    | [] => false

/-- A due item is admitted more than one tick period after its boundary fell (R194; log 167). -/
def Delayed.late (d : Delayed) (s : State) : Bool :=
  match d.fell with
  | some t => decide (t + towPeriod s < s.tb.sel)
  | none => false

/-- Transfer due items to admission in order until one must wait (R183, R193, R194). -/
def transfer (s : State) (r : Nat) : Nat → State
  | 0 => s
  | n + 1 =>
    match dueHead s r with
    | none => s
    | some (l, d) =>
      if retireWaits s (admitBank d.h.it.target) then s
      else match admitNow s { d.h with it := d.h.it.undelayed } with
        | none => s
        | some s =>
          let s := modReach s r fun x =>
            { x with tow := tabSet [] x.tow l ((x.list l).drop 1),
                     towLate := if d.late s then sat32 (x.towLate + 1) else x.towLate }
          transfer s r n

/-- Items in the work slots of reach r, by its banks' records. -/
def reachSlots (s : State) (r : Nat) : Nat :=
  ((bankPair (2 * r)).map fun k => ((bankFloes k).map fun f => (slotRecs (lkpBank s k) f).length).sum).sum

/-- Queued chamber items, then due items, then dispatch; again where dispatch made room, so that a waiting chamber head takes it
ahead of every later admission (R182-R184). Each turn but the last fills a slot; n bounds them. -/
def lkpTurns (s : State) (r : Nat) : Nat → State
  | 0 => s
  | n + 1 =>
    let t := transfer (releaseHeads (releaseHeads s (2 * r)) (2 * r + 1)) r 4096
    let u := dispatch t r 48
    if reachSlots u r = reachSlots t r then u else lkpTurns u r n

/-- What moves by itself after anything changed in reach r. -/
def lkpRun (s : State) (r : Nat) : State := lkpTurns s r 49

/-- The boundaries the selected time has reached fall now: their items become due (R189, R193). -/
def towNow (s : State) : State :=
  let b := s.tb.sel / towPeriod s
  if b ≤ s.lkp.boundary then s
  else
    let due (d : Delayed) : Delayed := if d.due ≤ b && d.fell.isNone then { d with fell := some s.tb.sel } else d
    let s := (nums 4).foldl (fun s r => modReach s r fun x =>
      { x with tow := x.tow.map fun p => (p.1, p.2.map due) }) s
    (nums 4).foldl lkpRun { s with lkp := { s.lkp with boundary := b } }

/-! ## The input from the other units (R68, R196, R198) -/

/-- The Canal flume into bank k (R68). -/
def bankFlume (k : Nat) : Nat := 632 + k

/-- The bank an item is posted to; home is the producer's own reach, for a TARGET that is not valid. -/
def postBank (home : Nat) (it : Item) : Nat := if (targetReach it.target).isSome then admitBank it.target else 2 * home

/-- A work item in the nine words of a Canal flume: the descriptor, then the producer's timing domain (log 166). -/
def Item.canalFlit (it : Item) (dom : Nat) : FItem :=
  { words := (it.flit 0).words ++ [⟨BitVec.ofNat 64 dom, false⟩] ++ List.replicate 4 ⟨0, false⟩, side := 0 }

/-- The producer's domain that came with a posted item. -/
def FItem.producer (x : FItem) : Nat := match x.words with
  | _ :: _ :: _ :: _ :: w :: _ => w.data.toNat
  | _ => 0

/-- A unit posts a work item into its bank's input flume, or presents it there until there is room (R55, R196). -/
def postItem (s : State) (dom home : Nat) (it : Item) : State :=
  pushFlume s (bankFlume (postBank home it)) [it.canalFlit dom]

/-- A bank's input holds an item of the unit: the unit stalls, and what feeds it waits (R198). -/
def unitStalled (s : State) (dom : Nat) : Bool :=
  (nums 8).any fun k => (flumeOf s (bankFlume k)).held.any fun x => x.producer == dom

/-- The timing domain of a producer: a Floe, the PCIe link for the host, or the unit's own. -/
def Producer.domain : Producer → Nat
  | .floe f => f
  | .inject => 221
  | .unit d => d

end Sys2Proof.Machine
end

