-- ==== Sys2Proof/Machine/BasinOps.lean ====
section
/-! DEFINITION. Basins and replay rings: space, arrival, playout, depth, drift, recording (chapter 07). Playout instants
are in units of 2^-16 of a 48 kHz tick. -/

namespace Sys2Proof.Machine

/-! ## Space (R211, R212, R235, R259) -/

/-- [a, a + n) and [b, b + m) meet. -/
def overlap (a n b m : Nat) : Bool := a < b + m && b < a + n

/-- The lowest place in the media pool that holds n bytes (log 31: lowest place first, in units of 64 bytes). -/
def poolFit (s : State) (n : Nat) : Option Nat :=
  match s.media.pool with
  | none => none
  | some (base, size) =>
    let starts := base :: s.media.allocs.map fun a => roundUp (a.base + a.size) 64
    let good := starts.filter fun c =>
      base ≤ c && c + n ≤ base + size && s.media.allocs.all fun a => !overlap c n a.base a.size
    good.foldl (fun best c => match best with | none => some c | some x => some (min x c)) none

/-- Take pool space. -/
def poolTake (s : State) (kind num base size : Nat) : State :=
  modMedia s fun m => { m with allocs := m.allocs ++ [{ kind := kind, num := num, base := base, size := size }] }

/-- Release pool space. -/
def poolFree (s : State) (kind num : Nat) : State :=
  modMedia s fun m => { m with allocs := m.allocs.filter fun a => !(a.kind == kind && a.num == num) }

/-- The lowest offset of the Basin heads partition at which n bytes are free, if there is one (R208, R209; log 169). -/
def headFit (s : State) (n : Nat) : Option Nat :=
  let held := (s.media.basins.filter fun b => b.2.head != 0).map fun b => (b.2.headAt, b.2.head)
  let good := (0 :: held.map fun h => h.1 + h.2).filter fun c =>
    c + n ≤ partSize s 2 && held.all fun h => !overlap c n h.1 h.2
  good.foldl (fun best c => match best with | none => some c | some x => some (min x c)) none

/-- Counter of the Basin statistics (R244): 0 ACCEPTED, 1 LATE, 2 DUPLICATE, 3 TOO_EARLY, 4 OVERSIZE, 5 MISSING,
6 SILENT_POS, 7 PROV_MISS, 8 AUTH_FAIL, 9 BODY_UE, 10 FLUSHED, 11 NOT_RUNNING, 12 RESYNC, 13 DEPTH_UP, 14 DEPTH_DOWN,
15 SLIP. -/
def bsnCount (s : State) (c k : Nat) (n : Nat := 1) : State := modBasin s c fun b => { b with ctr := bump b.ctr k n }

/-- The reach whose manager serves channel c (R207). -/
def mgrOf (s : State) (c : Nat) : Nat := match (chanOf s c).floe with | some f => f / 24 | none => 0

/-! ## Clocks -/

/-- Units of instant in one tick of RATE. -/
def rateTick (rate : Nat) : Nat := 65536 * 48 / rate
/-- ns to units of instant, rounded up to a tick of RATE (R220). -/
def instantOf (rate ns : Nat) : Nat := ceilDiv (ns * rate) 1000000 * rateTick rate
/-- Units of instant to ns. -/
def nsOf (i : Int) : Int := i * 1000000 / (48 * 65536)
/-- The next playout instant: the tick of RATE at or after the running one (R220). -/
def Basin.playAt (b : Basin) (rate : Nat) : Nat := ceilDiv b.instant (rateTick rate) * rateTick rate
/-- The instant now. -/
def instantNow (s : State) : Nat := s.tb.sel * 48000 / 1000000000

/-- RTP clock rate of a channel's receive source: the stream's, or the codec's own. -/
def tsClock (s : State) (ch : Chan) : Nat :=
  match ch.core.rxSrc with
  | .stream n => (rxsOf s n).p.clock
  | _ => match ch.core.codec with
    | .g722 => 8000
    | .opus => 48000
    | _ => ch.core.rate * 1000

/-- One packet time in timestamp units (R221). -/
def tsStep (s : State) (ch : Chan) : Nat := ch.rxTicks * tsClock s ch / 48000

/-- a − b as a signed 32-bit difference of timestamps. -/
def tsDiff (a b : Nat) : Int := (BitVec.ofInt 32 ((a : Int) - b)).toInt
/-- a − b modulo 65,536. -/
def seqSub (a b : Nat) : Nat := (a + 65536 - b % 65536) % 65536

/-! ## Slots and entry headers -/

/-- The Basin slot of sequence q. -/
def Basin.slot (b : Basin) (q : Nat) : Option Slot := (b.slots.find? fun p => p.1 == q % b.slotsN).map (·.2)
/-- Put a slot. -/
def Basin.setSlot (b : Basin) (q : Nat) (x : Slot) : Basin := { b with slots := tabPut (q % b.slotsN) x b.slots }
/-- Empty a slot. -/
def Basin.dropSlot (b : Basin) (q : Nat) : Basin := { b with slots := tabDel (q % b.slotsN) b.slots }
/-- Canal address of the slot of sequence q. -/
def Basin.addr (b : Basin) (q : Nat) : Nat := b.body + q % b.slotsN * b.slotZ
/-- The entry of sequence q is ready. -/
def Basin.ready (b : Basin) (q : Nat) : Bool :=
  match b.slot q with | some x => x.st == .ready && x.seq == q % 65536 | none => false

/-- An entry header (R234). -/
def entryHdr (pos tick rx ts : Nat) (ssrc : Word) (seq len status flags pt : Nat) : List Byte :=
  leBytes pos 8 ++ leBytes tick 8 ++ leBytes rx 8 ++ leBytes ts 4 ++ leBytes ssrc.toNat 4 ++ leBytes seq 2 ++
  leBytes len 2 ++ leBytes status 1 ++ leBytes flags 1 ++ leBytes pt 1 ++ List.replicate 25 0

/-- The header of a slot as stored before hand-over: POS, PLAY_TICK and STATUS not yet filled. -/
def Slot.hdr (x : Slot) : List Byte :=
  entryHdr 0 0 x.rxTime x.ts x.ssrc x.seq x.len 0 (b2n x.marker + 2 * b2n x.sid) x.pt

/-! ## Flush, anchor and resync (R217, R220, R225) -/

/-- Discard every entry not yet handed over, but that of sequence keep, and count it (R217, R225). -/
def flushBasin (s : State) (c : Nat) (keep : Option Nat) : State :=
  let b := basinOf s c
  let gone := b.slots.filter fun p => keep != some p.2.seq
  let pend := gone.filter fun p => decide (seqSub p.2.seq b.next < 32768)
  bsnCount (modBasin s c fun b => { b with slots := b.slots.filter fun p => keep == some p.2.seq }) c 10 pend.length

/-- The playout instant of a timestamp with ANCHOR = EPOCH: its PTP time through the stream's offset, of those that fit the one nearest
the packet's receive time-stamp rx in ns, or the present where there is none, plus the depth (R220, R226, R401). -/
def epochInstant (s : State) (ch : Chan) (depth ts rx : Nat) : Nat :=
  let off := match ch.core.rxSrc with | .stream n => (rxsOf s n).p.tsOffset.toNat | _ => 0
  let clock := tsClock s ch
  let nowTs := (if rx = 0 then s.tb.sel else rx * 65536) * clock / unitsPerSec
  let d := tsDiff (ts + 2 ^ 32 - off) (nowTs % 2 ^ 32)
  let k : Nat := (((nowTs : Int) + d).toNat)
  ceilDiv (k * 48000 * 65536) (clock * rateTick ch.core.rate) * rateTick ch.core.rate + depth * 6 * 65536

/-- The instant at which a first packet plays (R220); a packet without a receive time-stamp counts from now. -/
def firstInstant (s : State) (ch : Chan) (depth : Nat) (p : Pkt) : Nat :=
  if ch.blk.epoch then epochInstant s ch depth p.ts p.rxTime
  else instantOf ch.core.rate ((if p.rxTime = 0 then nowNs s else p.rxTime) + depth * 125000)

/-- Anchor the Basin on a packet: NEXT, the timestamp expected, the first instant; the first position carries DISCONT
(R217, R220, R225). -/
def anchor (s : State) (c : Nat) (p : Pkt) : State :=
  let ch := chanOf s c
  modBasin s c fun b =>
    { b with anchored := true, next := p.seq, x := p.ts, xKnown := true, disc := true, silence := false,
             lastSid := false, silentFor := 0, early := 0, hist := 0, stretch := 0, adj := 0,
             instant := firstInstant s ch b.depth p }

/-- A resync on packet p, cause 0 sequence jump, 1 timestamp step (R217, R245). keep: the packet's own entry stays. -/
def resync (s : State) (c cause : Nat) (keep : Option Nat) (p : Pkt) : State :=
  let s := flushBasin s c keep
  let s := bsnCount s c 12
  chanEv (anchor s c p) c 0x28 false false cause

/-! ## Arrival (R210, R216) -/

/-- Bytes SRTP adds to a payload: the tag of the slot's MODE (R408). -/
def tagBytes (s : State) (key : Option Nat) : Nat :=
  match key with
  | none => 0
  | some k => let m := (slotOf s k).mode
    if m = 1 ∨ m = 3 then 10 else if m = 2 ∨ m = 4 then 4 else if m = 5 ∨ m = 6 then 16 else 0

/-- The key slot that serves a packet of a leg (R83, R429). -/
def rxKey (ch : Chan) (legB : Bool) : Option Nat := if legB && ch.core.keyRxB.isSome then ch.core.keyRxB else ch.core.keyRx

/-- Comfort noise: payload type 13, or an Opus DTX frame, taken as a payload of at most 2 bytes (R221; log 33). -/
def isSid (ch : Chan) (pt len : Nat) : Bool := pt == 13 || (ch.core.codec == .opus && decide (len ≤ 2))

/-- The packet enters its slot: ready, or provisional while Rime works (R216, R232). -/
def acceptPkt (s : State) (c : Nat) (p : Pkt) : State :=
  let ch := chanOf s c
  let key := rxKey ch p.legB
  let len := p.payload.length - tagBytes s key
  let x : Slot :=
    { st := if key.isSome then .provisional else .ready, seq := p.seq, ts := p.ts, ssrc := p.ssrc, marker := p.marker,
      sid := isSid ch p.pt len, pt := p.pt, rxTime := p.rxTime, len := len }
  let b := basinOf s c
  let s := memWrite s (b.addr p.seq) (x.hdr ++ if key.isSome then [] else p.payload)
  bsnCount (modBasin s c fun b => { b.setSlot p.seq x with early := 0 }) c 0

/-- Measure a packet's margin: playout instant less receive time-stamp, in ns (R227, R230). -/
def measure (s : State) (c : Nat) (p : Pkt) : State :=
  let ch := chanOf s c
  if p.rxTime = 0 then s
  else
    modBasin s c fun b =>
      let inst : Int := if ch.blk.epoch then epochInstant s ch b.depth p.ts p.rxTime
        else b.playAt ch.core.rate + tsDiff p.ts b.x * 48000 * 65536 / (tsClock s ch : Int)
      let m := nsOf inst - p.rxTime
      let win := ch.live.adaptWin * 1000000000
      { b with margins := (p.rxTime, m) :: b.margins.filter (fun q => decide (nowNs s ≤ q.1 + win)),
               depthSum := b.depthSum + m, depthN := b.depthN + 1 }

/-- What became of an arrival. -/
inductive Arrived where
  | discarded | accepted
deriving DecidableEq, Repr

/-- Classify an arrival (R216, R217, R210, R225). -/
def arrive (s : State) (c : Nat) (p : Pkt) : Arrived × State :=
  let ch := chanOf s c
  let b := basinOf s c
  let tooBig := decide (b.slotZ - 64 < p.payload.length - tagBytes s (rxKey ch p.legB))
  if ch.st != .running || !b.on_ then (.discarded, bsnCount s c 11)
  else if tooBig then (.discarded, bsnCount s c 4)
  else if !b.anchored then
    if ch.blk.epoch && decide (epochInstant s ch b.depth p.ts p.rxTime < instantNow s) then (.discarded, bsnCount s c 1)
    else
      let s := acceptPkt (anchor s c p) c p
      (.accepted, measure s c p)
  else
    let d := seqSub p.seq b.next
    if d + 2 ≤ b.slotsN then
      match b.slot p.seq with
      | some x =>
        if x.st == .failed || x.seq != p.seq then (.accepted, measure (acceptPkt s c p) c p)
        else (.discarded, bsnCount s c 2)
      | none => (.accepted, measure (acceptPkt s c p) c p)
    else if 32768 ≤ d then
      let back := seqSub b.next p.seq
      if back ≤ 64 && b.hist.getLsbD (back - 1) then (.discarded, bsnCount s c 2)
      else (.discarded, measure (bsnCount s c 1) c p)
    else if b.early + 1 < 8 then
      (.discarded, bsnCount (modBasin s c fun b => { b with early := b.early + 1 }) c 3)
    else (.discarded, resync (bsnCount s c 3) c 0 none p)

/-! ## Depth (R226-R228) -/

/-- Insert into a rising list of integers. -/
def insInt (x : Int) : List Int → List Int
  | [] => [x]
  | y :: t => if x ≤ y then x :: y :: t else y :: insInt x t
/-- Sort integers. -/
def sortInt (l : List Int) : List Int := l.foldl (fun t x => insInt x t) []

/-- m_q over the window (R227): the k-th smallest margin, k = ⌊N × (1 − ADAPT_Q)⌋ + 1. -/
def marginQ (ch : Chan) (b : Basin) (now : Nat) : Option Int :=
  let l := (b.margins.filter fun q => decide (now ≤ q.1 + ch.live.adaptWin * 1000000000)).map (·.2)
  if l.isEmpty then none else (sortInt l)[l.length * (1000 - ch.live.adaptQ) / 1000]?

/-- The target depth in 125 µs steps (R227); with no arrival in the window, the present depth. -/
def targetOf (ch : Chan) (b : Basin) (now : Nat) : Int × Nat :=
  match marginQ ch b now with
  | none => (b.margin, b.depth)
  | some m =>
    let t : Int := b.depth * 125000 - m + ch.live.guard_ * 125000
    (m, max ch.blk.depthMin (min ch.blk.depthMax (-(-t / 125000)).toNat))

/-- Recompute the target, and since when it has asked for an increase or stood two steps below (R227, R228). -/
def retarget (s : State) (c : Nat) : State :=
  let ch := chanOf s c
  if !ch.blk.adaptive || ch.core.tdmSrc then modBasin s c fun b => { b with target := b.depth }
  else
    modBasin s c fun b =>
      let (m, t) := targetOf ch b (nowNs s)
      let keep (o : Option Nat) (on : Bool) : Option Nat := if on then some (o.getD (nowNs s)) else none
      { b with target := t, margin := m, upSince := keep b.upSince (decide (b.depth < t)),
               lowSince := keep b.lowSince (decide (t + 2 ≤ b.depth)) }

/-- A change of depth has been applied: counted, posted, and the next position carries DISCONT (R228, R245). -/
def depthDone (s : State) (c : Nat) (up : Bool) : State :=
  let s := bsnCount s c (if up then 13 else 14)
  let s := modBasin s c fun b => { b with disc := true, upSince := none, lowSince := none }
  chanEv s c 0x29 false false (basinOf s c).depth

/-- The target has stood at least two steps below the depth throughout one full ADAPT_WIN (R228). -/
def lowLong (s : State) (ch : Chan) (b : Basin) : Bool :=
  match b.lowSince with
  | some t => decide (t + ch.live.adaptWin * 1000000000 ≤ nowNs s)
  | none => false

/-- At a silent position: an increase at once; a decrease once the target has stood low for ADAPT_WIN and the silence
has lasted the decrease and 20 ms. Only the playout instants move: x goes by positions (R221, R228). -/
def depthAtSilence (s : State) (c : Nat) : State :=
  let ch := chanOf s c
  let b := basinOf s c
  if !ch.blk.adaptive || ch.core.tdmSrc || ch.core.codec.linear then s
  else if b.depth < b.target then
    depthDone (modBasin s c fun b =>
      { b with instant := b.instant + (b.target - b.depth) * 6 * 65536, depth := b.target }) c true
  else
    let dec := b.depth - b.target
    if lowLong s ch b && decide (dec * 6 + 960 ≤ b.silentFor * ch.rxTicks) then
      depthDone (modBasin s c fun b =>
        { b with instant := b.instant - dec * 6 * 65536, depth := b.target }) c false
    else s

/-- The spacing to the next instant: RX_PTIME / (1 + ε), ε in 0.01 ppm (R220, R229). -/
def spacing (ch : Chan) (b : Basin) : Nat :=
  (((ch.rxTicks * 65536 : Nat) : Int) * 100000000 / (100000000 + b.eps)).toNat

/-- L16 and L24 are changing their depth now: an increase is wanted, or a decrease has been for long enough, or one begun is not
yet whole (R228). -/
def shifting (s : State) (ch : Chan) (b : Basin) : Bool :=
  ch.blk.adaptive && ch.core.codec.linear && ch.blk.drift == .sluice
    && (decide (b.depth < b.target) || (decide (b.target < b.depth) && (lowLong s ch b || decide (b.adj < 0))))

/-- L16 and L24 change their depth through the rate-adaptation context, 500 ppm beyond the drift correction (R228). -/
def gradual (s : State) (c : Nat) : State :=
  let ch := chanOf s c
  let b := basinOf s c
  if !shifting s ch b then s
  else
    let up := decide (b.depth < b.target)
    let d := ch.rxTicks * 65536 * 500 / 1000000
    let a := b.adj + (if up then (d : Int) else -d)
    let s := modBasin s c fun b => { b with adj := a, instant := if up then b.instant + d else b.instant - d }
    if a.natAbs < 6 * 65536 then s
    else
      let s := modBasin s c fun b =>
        { b with adj := 0, depth := if up then b.depth + 1 else b.depth - 1 }
      let b := basinOf s c
      if b.depth = b.target then depthDone s c up else s

/-- Once a second the manager steers ε (R229): within 200 ppm and 10 ppm of the last; against a mean depth more than 125 µs from the
present depth, by the whole 10 ppm, and within that band by a drawn amount (log 32). It counts the seconds ε has stood at its limit
while the error grows. -/
def steer (s : State) (c : Nat) : State :=
  let b := basinOf s c
  let err : Int := if b.depthN = 0 then 0 else b.depthSum / b.depthN - b.depth * 125000
  let want : Int := if 125000 < err then 20000 else if err < -125000 then -20000 else (Config.draw s.free : Int) - 2 ^ 31
  let e := max (b.eps - 1000) (min (b.eps + 1000) want)
  let e := max (-20000) (min 20000 e)
  let atLim := e.natAbs == 20000 && decide (b.epsErr.natAbs < err.natAbs)
  { modBasin s c fun b => { b with eps := e, epsSecs := if atLim then b.epsSecs + 1 else 0, epsErr := err,
                                   depthSum := 0, depthN := 0 } with free := s.free + 1 }

/-! ## Recording (R234-R240) -/

/-- Settings of a position as recorded and handed over. -/
structure Pos where
  status : Nat
  seq    : Nat
  ts     : Nat
  disc   : Bool
  stretch : Bool
  auth   : Bool
  bodyUe : Bool
  fecNext : Bool
  ptr    : Nat
  /-- the entry handed over present, at its Canal address. -/
  slot   : Option (Nat × Slot)
deriving DecidableEq, Repr

/-- Oldest valid index of a ring (R236). -/
def Ring.oldest (r : Ring) : Nat := r.written - r.nb
/-- The rewind mark M (R237). -/
def Ring.markAt (r : Ring) : Nat := match r.mark with | some m => m | none => r.oldest

/-- The reply of a rewind: the span granted, and whether the mark was dragged since (R240). -/
def rewindReply (last readPos : Nat) (lost : Bool) : List Byte := replyOf [[.val (last - readPos : Nat), .flag lost]]

/-- A rewind resolves: the read position becomes max(T, M), and a reply that waited is given (R240). -/
def resolveRewind (s : State) (n : Nat) : State :=
  match (ringOf s n).rew with
  | none => s
  | some (t, last, lost) =>
    let p := max t (ringOf s n).markAt
    endLater (modRing s n fun r => { r with st := .enabled, readPos := p, rew := none }) n (rewindReply last p lost)

/-- Record a position in ring n as its next block; a pinned mark is overtaken, or under COMPAT_Q48 the block is dropped
(R236, R238, R239). blk: the block's bytes. -/
def recordIn (s : State) (n c : Nat) (blk : List Byte) : State :=
  let r := ringOf s n
  let i := r.written
  let hit := match r.mark with | some m => decide (m + r.nb ≤ i) | none => false
  if hit && s.dev.compatQ48 then
    let s := if r.dropping then s else chanEv s c 0x2C false false n
    modRing s n fun r => { r with drop := sat64 (r.drop + 1), dropping := true }
  else
    let s := memWrite s (r.body + i % r.nb * r.z) blk
    let old := i + 1 - r.nb
    let s := modRing s n fun r => { r with written := i + 1, dropping := false }
    if hit then
      let s := modRing s n fun r =>
        { r with mark := some old, markLost := true, lostCnt := sat64 (r.lostCnt + 1),
                 rew := r.rew.map fun t => (t.1, t.2.1, true),
                 readSkip := r.readSkip + (old - r.readPos), readPos := max r.readPos old }
      chanEv s c 0x2B false false n
    else s

/-- Rings that record channel c here and now (R236). -/
def ringsOf (s : State) (c : Nat) : List Nat :=
  (s.media.rings.filter fun p =>
    (p.2.st == .enabled || p.2.st == .rewinding) && p.2.chan == c && p.2.mgr == mgrOf s c && !p.2.bodyUe && !p.2.detached).map (·.1)

/-- The block of a position: the slot as handed over, or a header with LEN 0 (R234). -/
def posBlock (s : State) (rate : Nat) (b : Basin) (p : Pos) : List Byte :=
  let fl := 4 * b2n p.disc + 8 * b2n p.stretch + 16 * b2n p.auth + 32 * b2n p.bodyUe
  let tick := b.playAt rate / 65536
  match p.slot with
  | some (a, x) =>
    entryHdr b.pos tick x.rxTime x.ts x.ssrc x.seq x.len 0 (b2n x.marker + 2 * b2n x.sid + fl) x.pt
      ++ (memRead s (a + 64) (b.slotZ - 64))
  | none => entryHdr b.pos tick 0 p.ts 0 p.seq 0 p.status fl 0 ++ List.replicate (b.slotZ - 64) 0

/-- Record a position in every ring of the channel, then resolve the rewinds that waited for the boundary (R236,
R240). -/
def record (s : State) (c : Nat) (p : Pos) : State :=
  let blk := posBlock s (chanOf s c).core.rate (basinOf s c) p
  (ringsOf s c).foldl (fun s n => resolveRewind (recordIn s n c blk) n) s

/-! ## Handing over (R223) -/

/-- GROUP of a channel's items: its weighted group in class PROGRAMME, none in VOICE (R72). -/
def itemGroup (ch : Chan) : Nat := if ch.core.programme then ch.core.group else 0xFF

/-- ARG of a position (R223). -/
def posArg (p : Pos) : Nat :=
  p.status + 4 * b2n p.fecNext + 8 * b2n p.disc + 16 * b2n p.stretch + 32 * b2n p.auth + p.seq * 2 ^ 16 + p.ts * 2 ^ 32

/-- Hand a position over: header fields filled, recorded, posted as a work item, traced (R223, R234, R236, R539). -/
def handOver (s : State) (c : Nat) (p : Pos) : State :=
  let ch := chanOf s c
  let b := basinOf s c
  let s := match p.slot with
    | some (a, _) => memWrite s a ((posBlock s ch.core.rate b p).take 64)
    | none => s
  let s := record s c p
  let it := mkItem (Config.kind 0).toNat true ch.core.prio (itemGroup ch) c (ch.floe.getD 0) p.ptr (posArg p)
  let s := postItem s (168 + mgrOf s c) (mgrOf s c) it
  let s := trace s 3 (c + p.status * 2 ^ 16 + p.seq * 2 ^ 32)
  modBasin s c fun b => { b with pos := b.pos + 1, disc := false }

end Sys2Proof.Machine
end

