-- ==== Sys2Proof/Machine/JctOps.lean ====
section
/-! DEFINITION. The Junction: lists, terms, ramps, sums and blocks (chapter 08). -/

namespace Sys2Proof.Machine

/-- Slice of a bus (R247). -/
def busSlice (b : Nat) : Nat := b / 512
/-- Slice of a crosspoint (R247). -/
def xpSlice (k : Nat) : Nat := k / 4096
/-- Slice n. -/
def sliceOf (s : State) (n : Nat) : Slice := tabGet Slice.reset s.jct.slices n
/-- Change slice n. -/
def modSlice (s : State) (n : Nat) (f : Slice → Slice) : State :=
  { s with jct := { s.jct with slices := tabMod Slice.reset s.jct.slices n f } }

/-- The list a bus sums: its own, or its parent's (R248). -/
def listOf (s : State) (b : Nat) : List Nat :=
  let x := busOf s b
  if x.share then (busOf s x.parent).xps else x.xps

/-- Terms of a bus: its list without the excluded source (R250). -/
def termsOf (s : State) (b : Nat) : Nat :=
  let l := listOf s b
  match (busOf s b).minus with
  | some m => (l.filter fun k => (xpOf s k).src != m).length
  | none => l.length

/-- Enabled buses of a slice. -/
def enabledBuses (s : State) (n : Nat) : List Nat :=
  (s.jct.buses.filter fun p => p.2.st == .enabled && busSlice p.1 == n).map (·.1)

/-- Term count of a slice (R250). -/
def sliceTerms (s : State) (n : Nat) : Nat := ((enabledBuses s n).map (termsOf s)).sum

/-- Every MINUS written has reached its boundary. -/
def minusDue (s : State) : State :=
  s.jct.buses.foldl (fun s p => match p.2.minusNext with
    | some m => modBus s p.1 fun x => { x with minus := m, minusNext := none }
    | none => s) s

/-- The slice's term count stays at most 16,384, now and once the MINUS writes that wait have taken effect (R250, R271). -/
def termsFit (s : State) (n : Nat) : Bool :=
  decide (sliceTerms s n ≤ 16384) && decide (sliceTerms (minusDue s) n ≤ 16384)

/-- The source is on the bus's list. -/
def onList (s : State) (b src : Nat) : Bool := (busOf s b).xps.any fun k => (xpOf s k).src == src

/-- Crosspoints in use in a slice. -/
def xpsUsed (s : State) (n : Nat) : List Nat :=
  ((s.jct.buses.filter fun p => busSlice p.1 == n).map fun p => p.2.xps).flatten

/-- The lowest free crosspoint of a slice (R249). -/
def freeXp (s : State) (n : Nat) : Option Nat :=
  let used := xpsUsed s n
  (numsFrom (4096 * n) 4096).find? fun k => !used.contains k

/-- Buses whose list is b's: b itself and its SHARE buses. -/
def listBuses (s : State) (b : Nat) : List Nat :=
  b :: (s.jct.buses.filter fun p => p.2.share && p.2.st != .free && p.2.parent == b).map (·.1)

/-- Bus sources on a bus's list. -/
def busDeps (s : State) (b : Nat) : List Nat :=
  (listOf s b).filterMap fun k => let x := (xpOf s k).src; if 8192 ≤ x then some (x - 8192) else none

/-- Buses reachable through bus sources; n bounds the depth. -/
def reachBuses (s : State) : Nat → List Nat → List Nat → List Nat
  | 0, _, seen => seen
  | _, [], seen => seen
  | n + 1, front, seen =>
    let new := ((front.map (busDeps s)).flatten.eraseDups).filter fun b => !seen.contains b
    reachBuses s n new (seen ++ new)

/-- Adding source src to bus b's list names the bus itself or closes a cycle of bus sources (R271, 0x0174). -/
def closesCycle (s : State) (b src : Nat) : Bool :=
  if src < 8192 then false
  else
    let from_ := src - 8192
    let seen := reachBuses s 4096 [from_] [from_]
    (listBuses s b).any seen.contains

/-- Bus b lies on a cycle of bus sources as the lists stand (R271, 0x0174). -/
def onCycle (s : State) (b : Nat) : Bool := (reachBuses s 4096 (busDeps s b) (busDeps s b)).contains b

/-- Place a crosspoint on a bus's list (R249, R252). -/
def xpPut (s : State) (b k src : Nat) (gain : Int) (ramp : Nat) (entry : Option Nat) : State :=
  modBus (modXp s k fun _ => { XPoint.reset with bus := b, src := src, gain := gain, target := gain, rampMs := ramp,
                                                 entry := entry }) b fun x => { x with xps := x.xps ++ [k] }

/-- Free a crosspoint: number and term (R266). -/
def xpFree (s : State) (k : Nat) : State :=
  modXp (modBus s (xpOf s k).bus fun x => { x with xps := x.xps.erase k }) k fun _ => XPoint.reset

/-! ## Gains (R263, R264) -/

/-- Gain of sample i of a ramp of n samples from g0 to g1 (R263). -/
def rampGain (g0 g1 : Int) (n i : Nat) : Int :=
  if n ≤ i then g1 else g0 + (2 * (g1 - g0) * i + n) / (2 * n)

/-- Gain of a crosspoint at sample i = 1 to 6 of the block. -/
def XPoint.gainAt (x : XPoint) (i : Nat) : Int :=
  if x.total = 0 then x.gain else rampGain x.g0 x.target x.total (x.done + i)

/-- A waiting change begins at the boundary (R263, R264). -/
def XPoint.begin (x : XPoint) : XPoint :=
  match x.pend with
  | none => x
  | some (g, ms) =>
    if ms = 0 then { x with gain := g, target := g, rampMs := ms, g0 := g, done := 0, total := 0, pend := none }
    else { x with g0 := x.gain, target := g, rampMs := ms, done := 0, total := 48 * ms, pend := none }

/-- Six samples of a ramp have passed. -/
def XPoint.step (x : XPoint) : XPoint :=
  if x.total = 0 then x
  else if x.total ≤ x.done + 6 then { x with gain := x.target, done := 0, total := 0 }
  else { x with gain := x.gainAt 6, done := x.done + 6 }

/-- A deleted crosspoint whose ramp has ended (R266). -/
def XPoint.spent (x : XPoint) : Bool := x.deleting && x.pend.isNone && x.total == 0

/-! ## Sums (R261) -/

/-- One term (R261). -/
def mixTerm (smp g : Int) : Int := (smp * g + 4096) / 8192

/-- Saturate a sum to 32 bits; whether it was (R261). -/
def mixOut (acc : Int) : Int × Bool :=
  if 2147483647 < acc then (2147483647, true) else if acc < -2147483648 then (-2147483648, true) else (acc, false)

/-- Source samples read for a block: source number and its six samples. -/
abbrev Samples := List (Nat × List Int)

/-- Sample i (from 0) of a source. -/
def sampleAt (t : Samples) (src i : Nat) : Int :=
  match t.find? fun p => p.1 == src with
  | some p => p.2.getD i 0
  | none => 0

/-- Output sample i of bus b (R261, R267, R272). -/
def busSample (s : State) (t : Samples) (b i : Nat) : Int × Bool :=
  let x := busOf s b
  mixOut (((listOf s b).map fun k =>
    let p := xpOf s k
    if p.faulted || x.minus == some p.src then 0 else mixTerm (sampleAt t p.src i) (p.gainAt (i + 1))).sum)

/-- A ring entry: block number and six samples, 32 bytes (R257). -/
def ringEntry (j : Nat) (l : List Int) : List Byte :=
  leBytes j 8 ++ (l.map fun x => leBytes (BitVec.ofInt 32 x).toNat 4).flatten

/-- The base and number of entries of a source's ring (R257, R259): kind 2 a bus, kind 3 a channel. -/
def sourceRing (s : State) (src : Nat) : Option (Nat × Nat) :=
  (s.media.allocs.find? fun a => if src < 8192 then a.kind == 3 && a.num == src else a.kind == 2 && a.num == src - 8192).map
    fun a => (a.base, a.size / 32)

/-- What a source's entry of block j gives: samples, whether it was late, whether it was poisoned (R257). -/
def readSource (s : State) (src j : Nat) : List Int × Bool × Bool :=
  let zero : List Int := List.replicate 6 0
  let running := src < 8192 && (chanOf s src).st == .running
  match sourceRing s src with
  | none => (zero, running, false)
  | some (base, n) =>
    let a := base + j % n * 32
    if memPoisoned s a 32 then (zero, false, true)
    else if ofLe (memRead s a 8) = j then
      ((nums 6).map fun i => (BitVec.ofNat 32 (ofLe (memRead s (a + 8 + 4 * i) 4))).toInt, false, false)
    else (zero, running, false)

/-- The sources a slice reads: those on its enabled lists, but of no faulted crosspoint (R257, R272). -/
def sliceSources (s : State) (n : Nat) : List Nat :=
  ((((enabledBuses s n).map (listOf s)).flatten.filter fun k => !(xpOf s k).faulted).map fun k => (xpOf s k).src).eraseDups

/-- Count a slice's late and poisoned sources of block j (R257). -/
def countSources (s : State) (n : Nat) (l : List (Bool × Bool)) : State :=
  modSlice s n fun x => { x with late := sat32 (x.late + (l.filter (·.1)).length),
                                 ue := sat32 (x.ue + (l.filter (·.2)).length) }

/-- Bus b's output block j + 1 from the samples of block j (R258, R261, R262). -/
def busBlock (s : State) (t : Samples) (j b : Nat) : State :=
  match sourceRing s (8192 + b) with
  | none => s
  | some (base, n) =>
    let out := (nums 6).map fun i => if (busOf s b).faulted then (0, false) else busSample s t b i
    let s := memWrite s (base + (j + 1) % n * 32) (ringEntry (j + 1) (out.map (·.1)))
    modBus s b fun x => { x with clip := sat32 (x.clip + (out.filter (·.2)).length) }

/-- Slice n at boundary Bj (R257, R258). -/
def sliceBlock (s : State) (j n : Nat) : State :=
  let srcs := sliceSources s n
  let rd := srcs.map fun k => (k, readSource s k j)
  let t : Samples := rd.map fun p => (p.1, p.2.1)
  let s := countSources s n (rd.map fun p => p.2.2)
  (enabledBuses s n).foldl (fun s b => busBlock s t j b) s

/-- An unfinished bus's entry of block j is written as zeros (R260). -/
def overrunBus (s : State) (j b : Nat) : State :=
  match sourceRing s (8192 + b) with
  | none => s
  | some (base, n) => memWrite s (base + j % n * 32) (ringEntry j (List.replicate 6 0))

/-- Overrun of block j in the slices of the buses named (R260). -/
def overrun (s : State) (j : Nat) (late : List Nat) : State :=
  let late := late.filter fun b => (busOf s b).st == .enabled
  let s := late.foldl (fun s b => overrunBus s j b) s
  ((late.map busSlice).eraseDups).foldl (fun s n =>
    alarm (modSlice s n fun x => { x with overrun := sat32 (x.overrun + 1), ovrSeen := true }) 0x30 0 0
      (siteIsland (148 + n))) s

/-- Poisoned crosspoint words found: the crosspoint is FAULTED, counted, JCT_UE raised (R272). -/
def xpFault (s : State) (k : Nat) : State :=
  if !xpUsed s k || (xpOf s k).faulted then s
  else
    let n := xpSlice k
    let s := modSlice (modXp s k fun x => { x with faulted := true }) n fun x => { x with ue := sat32 (x.ue + 1) }
    alarm s 0x31 (objNo 6 k) 0 (siteStage (148 + n) 0 (k % 4096))

/-- Poisoned bus-table words: the bus outputs zeros until enabled again; counted, JCT_UE raised with the site (R272, R522). -/
def busFault (s : State) (b : Nat) : State :=
  let n := busSlice b
  let s := modSlice (modBus s b fun x => { x with faulted := true }) n fun x => { x with ue := sat32 (x.ue + 1) }
  alarm s 0x31 (objNo 5 b) 0 (siteStage (148 + n) 1 (b % 512))

/-- What begins at a boundary: deleted crosspoints whose ramp ended are freed, waiting gains and MINUS writes apply
(R263, R266, R267). -/
def beginBlock (s : State) : State :=
  let dead := (s.jct.xps.filter fun p => p.2.spent).map (·.1)
  let s := dead.foldl xpFree s
  minusDue (s.jct.xps.foldl (fun s p => if p.2.pend.isSome then modXp s p.1 XPoint.begin else s) s)

/-- Every ramp moves on by the block's six samples. -/
def stepRamps (s : State) : State :=
  s.jct.xps.foldl (fun s p => if p.2.total = 0 then s else modXp s p.1 XPoint.step) s

/-- Boundary Bj (R257-R263). -/
def jctBoundary (s : State) (j : Nat) (late xpUe busUe : List Nat) : State :=
  let s := overrun s j late
  let s := beginBlock s
  let s := busUe.foldl busFault (xpUe.foldl xpFault s)
  let s := (nums 8).foldl (fun s n => sliceBlock s j n) s
  let s := stepRamps s
  modJct s fun x => { x with block := some j }

/-- On leaving SERVICE every ENABLED bus goes to DEFINED and its ring is released; ramps end where they stand, changes
not begun are dropped, a MINUS write applies, deleted crosspoints are freed (R270; log 36). -/
def jctExit (s : State) : State :=
  let dead := (s.jct.xps.filter fun p => p.2.deleting).map (·.1)
  let s := dead.foldl xpFree s
  let s := s.jct.xps.foldl (fun s p => modXp s p.1 fun x =>
    { x with target := x.gain, g0 := 0, done := 0, total := 0, pend := none }) s
  let s := s.jct.buses.foldl (fun s p =>
    let s := modBus s p.1 fun x => { x with minus := (match x.minusNext with | some m => m | none => x.minus),
                                            minusNext := none,
                                            st := if x.st = .enabled then .defined else x.st }
    if p.2.st = .enabled then poolFree s 2 p.1 else s) s
  modJct s fun x => { x with block := none }

/-- Bytes of a source ring: 2 × ⌈F / 125 µs⌉ entries of 32 bytes (R257). -/
def sourceRingBytes (frame : Nat) : Nat := 64 * ceilDiv frame 6

end Sys2Proof.Machine
end

