-- ==== Sys2Proof/Machine/Aes.lean ====
section
/-! DEFINITION. AES and the modes Rime runs (R407, R408): CMAC, counter mode, GCM, XTS and key wrap with padding, as the
standards R408, R414 and R415 name define them (log 77). -/

namespace Sys2Proof.Machine

/-! ## Bytes -/

/-- Byte-wise exclusive or, as long as the shorter. -/
def xorB (a b : List Byte) : List Byte := List.zipWith (· ^^^ ·) a b

/-- Pieces of n bytes, the last one as long as what is left. -/
def pieces (n : Nat) : Nat → List Byte → List (List Byte)
  | 0, _ => []
  | fuel + 1, l => if l.isEmpty then [] else l.take n :: pieces n fuel (l.drop n)

/-- Zero bytes up to a multiple of n. -/
def padZero (n : Nat) (l : List Byte) : List Byte := l ++ List.replicate (ceilDiv l.length n * n - l.length) 0

/-! ## AES (FIPS 197) -/

/-- The S-box: entry b in bits [8b+7:8b]. -/
def sboxTable : Nat :=
  0x16bb54b00f2d99416842e6bf0d89a18cdf2855cee9871e9b948ed9691198f8e19e1dc186b95735610ef6034866b53e708a8bbd4b1f74dde8c6b4a61c2e2578ba08ae7a65eaf4566ca94ed58d6d37c8e779e4959162acd3c25c2406490a3a32e0db0b5ede14b8ee4688902a22dc4f816073195d643d7ea7c41744975fec130ccdd2f3ff1021dab6bcf5389d928f40a351a89f3c507f02f94585334d43fbaaefd0cf584c4a39becb6a5bb1fc20ed00d153842fe329b3d63b52a05a6e1b1a2c830975b227ebe28012079a059618c323c7041531d871f1e5a534ccf73f362693fdb7c072a49cafa2d4adf04759fa7dc982ca76abd7fe2b670130c56f6bf27b777c63
/-- The inverse S-box. -/
def sboxInvTable : Nat :=
  0x7d0c2155631469e126d677ba7e042b17619953833cbbebc8b0f52aae4d3be0a0ef9cc9939f7ae52d0d4ab519a97f51605fec8027591012b131c7078833a8dd1ff45acd78fec0db9a2079d2c64b3e56fc1bbe18aa0e62b76f89c5291d711af1476edf751ce837f9e28535ade72274ac9673e6b4f0cecff297eadc674f4111913a6b8a130103bdafc1020f3fca8f1e2cd00645b3b80558e4f70ad3bc8c00abd890849d8da75746155edab9edfd5048706c92b6655dcc5ca4d41698688664f6f87225d18b6d49a25b76b224d92866a12e084ec3fa420b954cee3d23c2a632947b54cbe9dec444438e3487ff2f9b8239e37cfbd7f3819ea340bf38a53630d56a0952
/-- SubBytes of one byte. -/
def sbox (b : Byte) : Byte := BitVec.ofNat 8 (sboxTable >>> (8 * b.toNat))
/-- InvSubBytes of one byte. -/
def sboxInv (b : Byte) : Byte := BitVec.ofNat 8 (sboxInvTable >>> (8 * b.toNat))

/-- Multiplication by x in the field of AES. -/
def xtime (b : Byte) : Byte := (b <<< 1) ^^^ (if b.msb then 0x1B else 0)

/-- MixColumns of one column. -/
def mixCol (l : List Byte) : List Byte :=
  match l with
  | [a, b, c, d] =>
    [xtime a ^^^ xtime b ^^^ b ^^^ c ^^^ d, a ^^^ xtime b ^^^ xtime c ^^^ c ^^^ d,
     a ^^^ b ^^^ xtime c ^^^ xtime d ^^^ d, xtime a ^^^ a ^^^ b ^^^ c ^^^ xtime d]
  | _ => l
/-- InvMixColumns of one column: MixColumns after multiplying rows by what makes the product the inverse. -/
def mixColInv (l : List Byte) : List Byte :=
  match l with
  | [a, b, c, d] =>
    let u := xtime (xtime (a ^^^ c))
    let v := xtime (xtime (b ^^^ d))
    mixCol [a ^^^ u, b ^^^ v, c ^^^ u, d ^^^ v]
  | _ => l

/-- The bytes of l in the order ix gives. -/
def pick (ix : List Nat) (l : List Byte) : List Byte := ix.map fun i => l.getD i 0
/-- ShiftRows of a state in input order. -/
def shiftRows : List Byte → List Byte := pick [0, 5, 10, 15, 4, 9, 14, 3, 8, 13, 2, 7, 12, 1, 6, 11]
/-- InvShiftRows. -/
def shiftRowsInv : List Byte → List Byte := pick [0, 13, 10, 7, 4, 1, 14, 11, 8, 5, 2, 15, 12, 9, 6, 3]

/-- The words of the key schedule, newest first; nk is the key's length in words, i the number of the next word. -/
def keyWords (nk : Nat) : Nat → Nat → Byte → List (List Byte) → List (List Byte)
  | 0, _, _, ws => ws
  | fuel + 1, i, rcon, ws =>
    let t := ws.headD []
    let (t, rcon') :=
      if i % nk = 0 then (xorB ((t.drop 1 ++ t.take 1).map sbox) [rcon, 0, 0, 0], xtime rcon)
      else if 6 < nk ∧ i % nk = 4 then (t.map sbox, rcon) else (t, rcon)
    keyWords nk fuel (i + 1) rcon' (xorB (ws.getD (nk - 1) []) t :: ws)

/-- The round keys of a key of 16 or 32 bytes. -/
def roundKeys (key : List Byte) : List (List Byte) :=
  let nk := key.length / 4
  let ws := (keyWords nk (4 * (nk + 7) - nk) nk 1 (pieces 4 nk key).reverse).reverse
  pieces 16 (nk + 7) ws.flatten

/-- The cipher on one block, from its round keys. -/
def aesBlock (ks : List (List Byte)) (b : List Byte) : List Byte :=
  match ks with
  | [] => b
  | k0 :: rest =>
    let last := rest.getLastD []
    let s := rest.dropLast.foldl (fun s k => xorB (((pieces 4 4 (shiftRows (s.map sbox))).map mixCol).flatten) k) (xorB b k0)
    xorB (shiftRows (s.map sbox)) last
/-- The inverse cipher on one block. -/
def aesBlockInv (ks : List (List Byte)) (b : List Byte) : List Byte :=
  match ks.reverse with
  | [] => b
  | k0 :: rest =>
    let last := rest.getLastD []
    let s := rest.dropLast.foldl (fun s k =>
      ((pieces 4 4 (xorB ((shiftRowsInv s).map sboxInv) k)).map mixColInv).flatten) (xorB b k0)
    xorB ((shiftRowsInv s).map sboxInv) last

/-- One block under a key. -/
def aes (key b : List Byte) : List Byte := aesBlock (roundKeys key) b

/-! ## CMAC (SP 800-38B) -/

/-- Doubling in the field of CMAC. -/
def cmacDouble (l : List Byte) : List Byte :=
  let n := ofBe l
  beBytes ((2 * n % 2 ^ 128) ^^^ (if 2 ^ 127 ≤ n then 0x87 else 0)) 16

/-- The CMAC of a message under round keys. -/
def cmacOf (ks : List (List Byte)) (m : List Byte) : List Byte :=
  let k1 := cmacDouble (aesBlock ks (List.replicate 16 0))
  let bs := pieces 16 (m.length + 1) m
  let last := bs.getLastD []
  let tail := if last.length = 16 then xorB last k1
    else xorB (padZero 16 (last ++ [0x80])) (cmacDouble k1)
  aesBlock ks (xorB (bs.dropLast.foldl (fun x b => aesBlock ks (xorB x b)) (List.replicate 16 0)) tail)
/-- CMAC under a key. -/
def cmac (key m : List Byte) : List Byte := cmacOf (roundKeys key) m

/-! ## Counter mode -/

/-- n key-stream bytes from counter block iv on, its last w bytes counting. -/
def ctrStream (ks : List (List Byte)) (w : Nat) (iv : List Byte) (n : Nat) : List Byte :=
  fitTo n ((nums (ceilDiv n 16)).flatMap fun i =>
    aesBlock ks (iv.take (16 - w) ++ beBytes ((ofBe (iv.drop (16 - w)) + i) % 2 ^ (8 * w)) w))

/-! ## GCM (SP 800-38D) -/

/-- The product of two blocks in the field of GCM: n bits of x still to take, most significant first. -/
def gmulGo (x : Nat) : Nat → Nat → Nat → Nat
  | 0, z, _ => z
  | n + 1, z, v => gmulGo x n (if x.testBit n then z ^^^ v else z) ((v / 2) ^^^ (if v % 2 = 1 then 0xE1 * 2 ^ 120 else 0))

/-- GHASH under subkey h of bytes whose length is a multiple of 16. -/
def ghash (h : List Byte) (m : List Byte) : List Byte :=
  beBytes ((pieces 16 (m.length + 1) m).foldl (fun y b => gmulGo (y ^^^ ofBe b) 128 0 (ofBe h)) 0) 16

/-- The tag of a ciphertext with its associated data, iv of 12 bytes. -/
def gcmTag (ks : List (List Byte)) (iv aad c : List Byte) : List Byte :=
  let h := aesBlock ks (List.replicate 16 0)
  xorB (aesBlock ks (iv ++ [0, 0, 0, 1]))
    (ghash h (padZero 16 aad ++ padZero 16 c ++ beBytes (8 * aad.length) 8 ++ beBytes (8 * c.length) 8))

/-- The text under the key stream of GCM, which begins with counter 2. -/
def gcmText (ks : List (List Byte)) (iv m : List Byte) : List Byte := xorB m (ctrStream ks 4 (iv ++ [0, 0, 0, 2]) m.length)

/-! ## XTS (IEEE 1619) -/

/-- The next tweak. -/
def xtsNext (t : List Byte) : List Byte :=
  let n := ofLe t
  leBytes ((2 * n % 2 ^ 128) ^^^ (if 2 ^ 127 ≤ n then 0x87 else 0)) 16

/-- Blocks of a sector, each between two additions of its tweak. -/
def xtsGo (f : List Byte → List Byte) : List Byte → List (List Byte) → List Byte
  | _, [] => []
  | t, b :: bs => xorB (f (xorB b t)) t ++ xtsGo f (xtsNext t) bs

/-- One sector of whole blocks; key is Key1 then Key2, sector the tweak (R430). -/
def xts (key : List Byte) (dec : Bool) (sector : Nat) (m : List Byte) : List Byte :=
  let half := key.length / 2
  let k1 := roundKeys (key.take half)
  let f := if dec then aesBlockInv k1 else aesBlock k1
  xtsGo f (aes (key.drop half) (leBytes sector 16)) (pieces 16 (m.length + 1) m)

/-! ## Key wrap with padding (SP 800-38F) -/

/-- One step of wrapping: register a and the semi-blocks, the first of which moves to the end. -/
def wrapStep (ks : List (List Byte)) (t : Nat) (a : List Byte) (r : List (List Byte)) : List Byte × List (List Byte) :=
  let b := aesBlock ks (a ++ r.headD [])
  (beBytes (ofBe (b.take 8) ^^^ t) 8, r.drop 1 ++ [b.drop 8])
/-- One step of unwrapping. -/
def unwrapStep (ks : List (List Byte)) (t : Nat) (a : List Byte) (r : List (List Byte)) : List Byte × List (List Byte) :=
  let b := aesBlockInv ks (beBytes (ofBe a ^^^ t) 8 ++ r.getLastD [])
  (b.take 8, b.drop 8 :: r.dropLast)

/-- A value wrapped under a key-encryption key. -/
def kwpWrap (kek p : List Byte) : List Byte :=
  let ks := roundKeys kek
  let icv : List Byte := [0xA6, 0x59, 0x59, 0xA6] ++ beBytes p.length 4
  let q := padZero 8 p
  if q.length ≤ 8 then aesBlock ks (icv ++ q)
  else
    let r := pieces 8 q.length q
    let e := (nums (6 * r.length)).foldl (fun e i => wrapStep ks (i + 1) e.1 e.2) (icv, r)
    e.1 ++ e.2.flatten

/-- A wrapped value unwrapped; none where its integrity check fails. -/
def kwpUnwrap (kek c : List Byte) : Option (List Byte) :=
  let ks := roundKeys kek
  let n := c.length / 8 - 1
  if c.length % 8 ≠ 0 ∨ c.length < 16 then none
  else
    let e := if n = 1 then (let b := aesBlockInv ks c; (b.take 8, [b.drop 8]))
      else (nums (6 * n)).foldl (fun e i => unwrapStep ks (6 * n - i) e.1 e.2) (c.take 8, pieces 8 c.length (c.drop 8))
    let p := e.2.flatten
    let len := ofBe (e.1.drop 4)
    if e.1.take 4 = [0xA6, 0x59, 0x59, 0xA6] ∧ 8 * (n - 1) < len ∧ len ≤ 8 * n ∧ (p.drop len).all (· == 0) then
      some (p.take len)
    else none

end Sys2Proof.Machine
end

