-- ==== Sys2Proof/Machine/Sha.lean ====
section
/-! DEFINITION. SHA-1, SHA-256 and HMAC (R407, R408), as FIPS 180-4 and FIPS 198-1 define them (log 77). -/

namespace Sys2Proof.Machine

/-- A message padded to whole blocks of 64 bytes. -/
def shaPad (m : List Byte) : List Byte :=
  let z := (119 - m.length % 64) % 64
  m ++ [0x80] ++ List.replicate z 0 ++ beBytes (8 * m.length) 8

/-- The 32-bit words of a block, big-endian. -/
def blockWords (b : List Byte) : List Word := (pieces 4 16 b).map fun w => BitVec.ofNat 32 (ofBe w)

/-- A schedule extended by n words; ws holds it newest first. -/
def shaSched (f : List Word → Word) : Nat → List Word → List Word
  | 0, ws => ws
  | n + 1, ws => shaSched f n (f ws :: ws)

/-- Words as bytes, big-endian. -/
def wordBytes (l : List Word) : List Byte := l.flatMap fun w => beBytes w.toNat 4

/-! ## SHA-1 -/

/-- One step of SHA-1: number of the step, schedule word, working variables a to e. -/
def sha1Step (v : List Word) (tw : Word × Nat) : List Word :=
  match v with
  | [a, b, c, d, e] =>
    let f : Word × Word :=
      if tw.2 < 20 then ((b &&& c) ||| (~~~b &&& d), 0x5A827999)
      else if tw.2 < 40 then (b ^^^ c ^^^ d, 0x6ED9EBA1)
      else if tw.2 < 60 then ((b &&& c) ||| (b &&& d) ||| (c &&& d), 0x8F1BBCDC)
      else (b ^^^ c ^^^ d, 0xCA62C1D6)
    [a.rotateLeft 5 + f.1 + e + f.2 + tw.1, a, b.rotateLeft 30, c, d]
  | _ => v

/-- SHA-1 of one block from a chaining value. -/
def sha1Block (h : List Word) (b : List Byte) : List Word :=
  let ws := (shaSched (fun ws => (ws.getD 2 0 ^^^ ws.getD 7 0 ^^^ ws.getD 13 0 ^^^ ws.getD 15 0).rotateLeft 1) 64
    (blockWords b).reverse).reverse
  List.zipWith (· + ·) h (ws.zipIdx.foldl sha1Step h)

/-- SHA-1. -/
def sha1 (m : List Byte) : List Byte :=
  wordBytes ((pieces 64 (m.length + 3) (shaPad m)).foldl sha1Block
    [0x67452301, 0xEFCDAB89, 0x98BADCFE, 0x10325476, 0xC3D2E1F0])

/-! ## SHA-256 -/

/-- The constants of SHA-256: constant t in bits [32t+31:32t]. -/
def sha256Table : Nat :=
  0xc67178f2bef9a3f7a4506ceb90befffa8cc7020884c8781478a5636f748f82ee682e6ff35b9cca4f4ed8aa4a391c0cb334b0bcb52748774c1e376c0819a4c116106aa070f40e3585d6990624d192e819c76c51a3c24b8b70a81a664ba2bfe8a192722c8581c2c92e766a0abb650a735453380d134d2c6dfc2e1b213827b70a851429296706ca6351d5a79147c6e00bf3bf597fc7b00327c8a831c66d983e515276f988da5cb0a9dc4a7484aa2de92c6f240ca1cc0fc19dc6efbe4786e49b69c1c19bf1749bdc06a780deb1fe72be5d74550c7dc3243185be12835b01d807aa98ab1c5ed5923f82a459f111f13956c25be9b5dba5b5c0fbcf71374491428a2f98

/-- One step of SHA-256: schedule word, number of the step, working variables a to h. -/
def sha256Step (v : List Word) (tw : Word × Nat) : List Word :=
  match v with
  | [a, b, c, d, e, f, g, h] =>
    let t1 := h + (e.rotateRight 6 ^^^ e.rotateRight 11 ^^^ e.rotateRight 25) + ((e &&& f) ^^^ (~~~e &&& g))
      + BitVec.ofNat 32 (sha256Table >>> (32 * tw.2)) + tw.1
    let t2 := (a.rotateRight 2 ^^^ a.rotateRight 13 ^^^ a.rotateRight 22) + ((a &&& b) ^^^ (a &&& c) ^^^ (b &&& c))
    [t1 + t2, a, b, c, d + t1, e, f, g]
  | _ => v

/-- SHA-256 of one block from a chaining value. -/
def sha256Block (h : List Word) (b : List Byte) : List Word :=
  let s0 (x : Word) : Word := x.rotateRight 7 ^^^ x.rotateRight 18 ^^^ (x >>> 3)
  let s1 (x : Word) : Word := x.rotateRight 17 ^^^ x.rotateRight 19 ^^^ (x >>> 10)
  let ws := (shaSched (fun ws => s1 (ws.getD 1 0) + ws.getD 6 0 + s0 (ws.getD 14 0) + ws.getD 15 0) 48
    (blockWords b).reverse).reverse
  List.zipWith (· + ·) h (ws.zipIdx.foldl sha256Step h)

/-- SHA-256. -/
def sha256 (m : List Byte) : List Byte :=
  wordBytes ((pieces 64 (m.length + 3) (shaPad m)).foldl sha256Block
    [0x6A09E667, 0xBB67AE85, 0x3C6EF372, 0xA54FF53A, 0x510E527F, 0x9B05688C, 0x1F83D9AB, 0x5BE0CD19])

/-- HMAC with hash f; keys here are never longer than a block. -/
def hmac (f : List Byte → List Byte) (key m : List Byte) : List Byte :=
  let k := fitTo 64 key
  f (k.map (· ^^^ 0x5C) ++ f (k.map (· ^^^ 0x36) ++ m))

end Sys2Proof.Machine
end

