-- ==== Sys2Proof/Machine/RimeKeys.lean ====
section
/-! DEFINITION. Root keys, derivation, key check values and the protection of packets and sectors (R408, R413-R418, R420,
R428, R430). -/

namespace Sys2Proof.Machine

/-! ## Root keys (R413) -/

/-- Root n is present. -/
def rootHere (s : State) (n : Nat) : Bool :=
  if n < 4 then s.ice.stored.roots.any (·.1 == n) else n < 8 && s.rime.volatileRoots
/-- The 256 bits of root n: programmed, or generated at the last device-level reset. -/
def rootKey (s : State) (n : Nat) : List Byte :=
  if n < 4 then ((s.ice.stored.roots.find? (·.1 == n)).map (·.2)).getD []
  else beBytes (Config.rootKey s.rime.rootGen n).toNat 32

/-! ## Modes (R408) -/

/-- SRTP modes. -/
def srtpMode (m : Nat) : Bool := 1 ≤ m && m ≤ 6
/-- Tag bytes of a MODE. -/
def modeTag (m : Nat) : Nat := if m = 1 ∨ m = 3 then 10 else if m = 2 ∨ m = 4 then 4 else if m = 5 ∨ m = 6 then 16 else 0
/-- Cipher key bytes of an SRTP mode. -/
def modeKey (m : Nat) : Nat := if m = 3 ∨ m = 4 ∨ m = 6 then 32 else 16
/-- Master salt bytes of an SRTP mode. -/
def modeSalt (m : Nat) : Nat := if m = 5 ∨ m = 6 then 12 else 14
/-- Bits of working material a derived slot of a mode takes (R415). -/
def modeBits (m : Nat) : Nat := if srtpMode m then 8 * (modeKey m + modeSalt m) else if m = 8 then 512 else 256

/-! ## Derivation (R414, R415) -/

/-- The input of iteration i of the KDF (R414). -/
def kdfInput (i purpose : Nat) (label : List Byte) (slot mode bits : Nat) : List Byte :=
  beBytes i 4 ++ [BitVec.ofNat 8 purpose, 0, BitVec.ofNat 8 label.length] ++ fitTo 32 label ++ beBytes slot 2 ++
    [BitVec.ofNat 8 mode] ++ beBytes bits 4
/-- The counter-mode KDF with AES-CMAC under a root key (R414). -/
def kdf (root : List Byte) (purpose : Nat) (label : List Byte) (slot mode bits : Nat) : List Byte :=
  let ks := roundKeys root
  fitTo (bits / 8) ((nums (ceilDiv bits 128)).flatMap fun i => cmacOf ks (kdfInput (i + 1) purpose label slot mode bits))
/-- The key-encryption key of a slot (R415). -/
def slotKek (root : List Byte) (label : List Byte) (slot mode : Nat) : List Byte := kdf root 2 label slot mode 256
/-- The working material of a slot: derived, or unwrapped; none where the unwrapping fails or gives no master key and salt
of the mode (R415). -/
def slotMaterial (root : List Byte) (slot mode : Nat) (wrapped : Bool) (label value : List Byte) : Option (List Byte) :=
  if !wrapped then some (kdf root 1 label slot mode (modeBits mode))
  else match kwpUnwrap (slotKek root label slot mode) value with
    | some m => if m.length = modeKey mode + modeSalt mode then some m else none
    | none => none
/-- The key check value (R418); the working key of an XTS slot that it is taken under is open (log 77). -/
def keyCheck (mode : Nat) (material : List Byte) : DWord :=
  if mode = 7 ∨ mode = 8 then Config.xtsCheck material
  else BitVec.ofNat 64 (ofBe ((cmac (if srtpMode mode then material.take (modeKey mode) else material)
    (List.replicate 16 0)).take 8))
/-- The halves of XTS material differ (R430). -/
def xtsHalves (material : List Byte) : Bool := material.take (material.length / 2) != material.drop (material.length / 2)

/-! ## SRTP (R415, R420, R428) -/

/-- The session keys of a slot: encryption key, salt, authentication key. -/
structure Session where
  enc  : List Byte
  salt : List Byte
  auth : List Byte
deriving DecidableEq, Repr

/-- The session keys under RFC 3711 with a key derivation rate of zero; a salt of 96 bits is followed by 16 zero bits
(RFC 7714). -/
def sessionOf (mode : Nat) (material : List Byte) : Session :=
  let ks := roundKeys (material.take (modeKey mode))
  let salt := fitTo 14 (material.drop (modeKey mode))
  let out (label n : Nat) : List Byte :=
    ctrStream ks 2 (xorB salt (beBytes (label * 2 ^ 48) 14) ++ [0, 0]) n
  { enc := out 0 (modeKey mode), salt := out 2 (modeSalt mode), auth := if mode ≤ 4 then out 1 20 else [] }

/-- The initial vector of a packet: SSRC and index with the session salt (RFC 3711, RFC 7714). -/
def packetIv (mode : Nat) (k : Session) (head : List Byte) (index : Nat) : List Byte :=
  let ssrc := (head.drop 8).take 4
  if mode ≤ 4 then xorB k.salt (List.replicate 4 0 ++ ssrc ++ beBytes index 6) ++ [0, 0]
  else xorB k.salt ([0, 0] ++ ssrc ++ beBytes index 6)
/-- The text of a packet under its key stream. -/
def packetText (mode : Nat) (k : Session) (head : List Byte) (index : Nat) (text : List Byte) : List Byte :=
  if mode ≤ 4 then xorB text (ctrStream (roundKeys k.enc) 2 (packetIv mode k head index) text.length)
  else gcmText (roundKeys k.enc) (packetIv mode k head index) text
/-- The tag of a header and ciphertext. -/
def packetTag (mode : Nat) (k : Session) (head : List Byte) (index : Nat) (c : List Byte) : List Byte :=
  fitTo (modeTag mode)
    (if mode ≤ 4 then hmac sha1 k.auth (head ++ c ++ beBytes (index / 65536) 4)
     else gcmTag (roundKeys k.enc) (packetIv mode k head index) head c)

/-- A packet protected: header, ciphertext, tag (R420). -/
def srtpProtect (mode : Nat) (material head payload : List Byte) (index : Nat) : List Byte :=
  let k := sessionOf mode material
  let c := packetText mode k head index payload
  head ++ c ++ packetTag mode k head index c
/-- A protected packet opened: whether its tag passes, and its plaintext (R427, R428). -/
def srtpOpen (mode : Nat) (material head body : List Byte) (index : Nat) : Bool × List Byte :=
  let k := sessionOf mode material
  let c := body.take (body.length - modeTag mode)
  (packetTag mode k head index c == body.drop (body.length - modeTag mode), packetText mode k head index c)

end Sys2Proof.Machine
end

