-- ==== Sys2Proof/Machine/RimeOps.lean ====
section
/-! DEFINITION. The Rime array: slots, homes, reservations, requests, dispatch and completion (chapter 13). -/

namespace Sys2Proof.Machine

/-- Rime structures of reach r. -/
def rimeReach (s : State) (r : Nat) : RimeReach := tabGet RimeReach.reset s.rime.reaches r
/-- Change reach r's Rime structures. -/
def modRimeR (s : State) (r : Nat) (f : RimeReach → RimeReach) : State :=
  { s with rime := { s.rime with reaches := tabMod RimeReach.reset s.rime.reaches r f } }

/-- The Rime array is present (R406). -/
def rimeHere (s : State) : Bool := s.dev.variant != .me
/-! ## Homes and reservations (R411, R417, R424) -/

/-- Key slots homed in reach r. -/
def homed (s : State) (r : Nat) : List (Nat × KeySlot) := s.rime.slots.filter fun p => p.2.home == some r
/-- Pinned slots homed in reach r. -/
def pinned (s : State) (r : Nat) : Nat := ((homed s r).filter fun p => p.2.pin).length

/-- Cost of one derivation: AES-256 blocks, AES-128 blocks, hash units (R424). -/
def deriveCost (mode : Nat) (wrapped : Bool) : Nat × Nat × Nat :=
  match mode, wrapped with
  | 1, false | 2, false => (6, 4, 8) | 1, true | 2, true => (30, 4, 8)
  | 3, false | 4, false => (14, 0, 8) | 3, true | 4, true => (47, 0, 8)
  | 5, false => (6, 3, 0) | 5, true => (30, 3, 0) | 6, false => (13, 0, 0) | 6, true => (46, 0, 0)
  | 7, _ => (6, 0, 0) | 8, _ => (12, 0, 0) | 9, _ => (6, 0, 10) | _, _ => (0, 0, 0)

/-- Cost of one packet of a reservation: AES-256 blocks, AES-128 blocks, hash units (R424). -/
def packetCost (sl : KeySlot) (derive : Bool) (bytes : Nat) : Nat × Nat × Nat :=
  let blocks := ceilDiv bytes 16 + if sl.mode = 5 ∨ sl.mode = 6 then 1 else 0
  let big := sl.mode = 3 ∨ sl.mode = 4 ∨ sl.mode = 6
  let hash := if sl.mode ≤ 4 then 4 * (ceilDiv (12 + bytes + 4 + 9) 64 + 1) else 0
  let d := if derive && !sl.pin then deriveCost sl.mode sl.wrapped else (0, 0, 0)
  ((if big then blocks else 0) + d.1, (if big then 0 else blocks) + d.2.1, hash + d.2.2)

/-- Rounds and hash units per second of reach r at STRENGTH st, each times 28,800, a multiple of every packet time in
ticks (R424). -/
def reachLoad (s : State) (r st : Nat) : Nat × Nat :=
  let derive := decide (512 - pinned s r < (homed s r).length - pinned s r)
  (rimeReach s r).resv.foldl (fun t v =>
    let c := packetCost (slotOf s v.slot) derive v.bytes
    let k := 48000 * (28800 / v.ticks)
    (t.1 + (c.2.1 * (10 + st) + c.1 * (14 + st)) * k, t.2 + c.2.2 * k)) (0, 0)

/-- The reach's reservations fit at STRENGTH st (R424). -/
def reachFits (s : State) (r st : Nat) : Bool :=
  let l := reachLoad s r st
  decide (l.1 ≤ 600000000 * 28800) && decide (l.2 ≤ 37500000 * 28800)

/-- A slot is homed in reach r when first named; it stays where it is homed already (R411). -/
def homeSlot (s : State) (k r : Nat) : State :=
  if (slotOf s k).home.isSome then s else modSlot s k fun x => { x with home := some r }

/-- Reserve for one use of slot k by channel c, in the slot's home reach (R424). -/
def reserve (s : State) (c k ticks bytes : Nat) : State :=
  match (slotOf s k).home with
  | none => s
  | some r => modRimeR s r fun x =>
      { x with resv := x.resv ++ [{ owner := c, slot := k, ticks := ticks, bytes := bytes }] }

/-- Channels that hold Floe units and name slot k. -/
def slotUsers (s : State) (k : Nat) : List Nat :=
  (s.media.chans.filter fun p => p.2.st.live && p.2.core.keys.contains k).map (·.1)

/-- Drop channel c's reservations and unhome the slots nothing enabled names any more (R411, R424). -/
def rimeRelease (s : State) (c : Nat) : State :=
  let s := (nums 4).foldl (fun s r => modRimeR s r fun x => { x with resv := x.resv.filter fun v => v.owner != c }) s
  (chanOf s c).core.keys.foldl (fun s k =>
    if srtpMode (slotOf s k).mode && ((slotUsers s k).filter (· != c)).isEmpty then
      modSlot s k fun x => { x with home := none }
    else s) s

/-! ## Requests (R419-R421) -/

/-- A 64-byte request as written to a port (R420). -/
def rimeReqOf (dom : Nat) (l : List Byte) : RimeReq :=
  let n (o k : Nat) : Nat := ofLe ((l.drop o).take k)
  let op := n 0 1 % 16
  { op := op, done := bitsOf (n 0 1) 5 4, weir := bitOf (n 1 1) 0, leg := bitsOf (n 1 1) 1 1, slot := n 2 2 % 2 ^ 14,
    len := n 4 2 % 2 ^ 14, hdr := n 6 1, index := n 8 8, inPtr := n 16 8 % 2 ^ 40, outPtr := n 24 8 % 2 ^ 40,
    kind := n 32 1 % 64, atomic := bitOf (n 33 1) 0, chamber := n 34 2, target := n 36 1, prio := n 37 1 % 16,
    group := n 38 1, tag := BitVec.ofNat 48 (n 40 6),
    rsvd := bitsOf (n 0 1) 7 6 != 0 || bitsOf (n 1 1) 7 2 != 0 || bitsOf (n 2 2) 15 14 != 0
      || bitsOf (n 4 2) 15 14 != 0 || n 7 1 != 0 || n 16 8 / 2 ^ 40 != 0 || n 24 8 / 2 ^ 40 != 0
      || n 32 1 / 64 != 0 || n 33 1 / 2 != 0 || n 37 1 / 16 != 0 || n 39 1 != 0 || n 46 18 != 0,
    from_ := if dom < 96 then 2 else 3, who := dom, seq := 0, pkt := [] }

/-- A request joins reach r's queue under the key its slot holds now; a full queue holds the write (R419, R428). -/
def rimePut (s : State) (r : Nat) (q : RimeReq) : State :=
  modRimeR s r fun x =>
    if x.queue.length < 512 && x.held.isEmpty then { x with queue := x.queue ++ [(q, (slotOf s q.slot).gen)] }
    else { x with held := x.held ++ [q] }

/-- Room in the queue accepts a held write (R419). -/
def rimeRefill (s : State) (r : Nat) : State :=
  match (rimeReach s r).held with
  | [] => s
  | q :: t =>
    if (rimeReach s r).queue.length < 512 then
      modRimeR s r fun x => { x with held := t, queue := x.queue ++ [(q, (slotOf s q.slot).gen)] }
    else s

/-- BADREQ: a reserved bit, OP or DONE, a range, an alignment or malformed routing (R421); the index field is zero where
the request has none (R420). -/
def RimeReq.bad (q : RimeReq) : Bool :=
  let it := mkItem q.kind q.atomic q.prio q.group q.chamber q.target q.outPtr 0
  let srtp := q.op == 1 || q.op == 2
  let xts := q.op == 3 || q.op == 4
  q.rsvd || q.op == 0 || decide (5 < q.op) || decide (1 < q.done)
    || (if xts then q.len != 512 && q.len != 4096 else q.len == 0 || decide (8192 < q.len))
    || (if srtp then decide (q.hdr < 12) || decide (255 < q.hdr) else q.hdr != 0)
    || (if q.op == 1 then decide (2 ^ 48 ≤ q.index) else !xts && q.index != 0)
    || q.inPtr % 4 != 0 || q.outPtr % 64 != 0 || (q.done == 0 && it.bad none)

/-- OP suits the slot's MODE and DIR (R423 MODE; R408, R412). -/
def RimeReq.suits (q : RimeReq) (k : KeyOld) : Bool :=
  match q.op with
  | 1 => srtpMode k.mode && k.dir == 0
  | 2 => srtpMode k.mode && k.dir == 1
  | 3 | 4 => k.mode == 7 || k.mode == 8
  | _ => k.mode == 9

/-- The slot under the key of generation g, present or earlier (R417, R428). -/
def KeySlot.under (k : KeySlot) (g : Nat) : KeyOld :=
  if g = k.gen then
    { st := k.st, mode := k.mode, dir := k.dir, wrapped := k.wrapped, root := k.root, label := k.label, value := k.value,
      home := k.home, hot := k.hot }
  else (k.olds.find? fun p => p.1 == g).elim KeyOld.reset (·.2)
/-- Set the index and replay state of the key of generation g. -/
def KeySlot.setHot (k : KeySlot) (g : Nat) (h : Hot) : KeySlot :=
  if g = k.gen then { k with hot := h }
  else { k with olds := k.olds.map fun p => if p.1 = g then (g, { p.2 with hot := h }) else p }
/-- Latch the key of generation g SPENT (R425). -/
def KeySlot.spend (k : KeySlot) (g : Nat) : KeySlot :=
  if g = k.gen then { k with st := .spent }
  else { k with olds := k.olds.map fun p => if p.1 = g then (g, { p.2 with st := .spent }) else p }

/-- The highest accepted index. -/
def Hot.top (h : Hot) : Option Nat := h.sh.map fun q => h.roc * 65536 + q

/-- The index estimated for sequence q (RFC 3711 Appendix A, as R427 names it). -/
def Hot.guess (h : Hot) (q : Nat) : Nat :=
  let v := match h.sh with
    | none => h.roc
    | some l =>
      if l < 32768 then (if 32768 + l < q then (h.roc + 2 ^ 32 - 1) % 2 ^ 32 else h.roc)
      else if q < l - 32768 then (h.roc + 1) % 2 ^ 32 else h.roc
  v * 65536 + q

/-- An estimated index is refused: 128 or more below the highest accepted, or its window bit is set (R427). -/
def Hot.replayed (h : Hot) (i : Nat) : Bool :=
  match h.top with
  | none => false
  | some t => i ≤ t && (decide (128 ≤ t - i) || h.win.getLsbD (t - i))

/-- A tag has passed: ROC, s_h and the window take the index (R427). -/
def Hot.accept (h : Hot) (i : Nat) : Hot :=
  match h.top with
  | none => { h with roc := i / 65536, sh := some (i % 65536), win := 1 }
  | some t =>
    if t < i then { h with roc := i / 65536, sh := some (i % 65536), win := (h.win <<< (i - t)) ||| 1 }
    else { h with win := h.win ||| (1 <<< (t - i)) }

/-- The sequence number in the packet (R427): read from memory, or known to the requesting manager. -/
def reqSeq (s : State) (q : RimeReq) : Nat := if q.from_ = 0 then q.seq else ofBe (memRead s (q.inPtr + 2) 2)

/-- Some request on slot k under generation g is queued or unfinished in reach r. -/
def outstanding (x : RimeReach) (k g : Nat) : Bool :=
  x.queue.any (fun p => p.1.slot == k && p.2 == g) || x.jobs.any (fun j => j.req.slot == k && j.gen == g)

/-- Forget what earlier keys left once no request needs it (R417, R428). -/
def rimeTidy (s : State) (r k : Nat) : State :=
  let g0 := (slotOf s k).gen
  let gone (g : Nat) : Bool := g != g0 && !outstanding (rimeReach s r) k g
  let s := modRimeR s r fun x => { x with cache := x.cache.filter fun e => !(e.1 == k && gone e.2) }
  modSlot s k fun x => { x with olds := x.olds.filter fun p => !gone p.1 }

/-- The entry of (slot, key) becomes the most recently used; the least recently used unpinned one beyond 512 goes
(R417). -/
def cacheUse (s : State) (r k g : Nat) : State :=
  let c := (k, g) :: (rimeReach s r).cache.filter fun e => e != (k, g)
  let c := if c.length ≤ 512 then c else
    match c.reverse.find? (fun e => !(slotOf s e.1).pin) with
    | some e => c.erase e
    | none => c
  modRimeR s r fun x => { x with cache := c }

/-- Record the status a request finished with; it is posted in its slot's order (R422, R423). -/
def jobEnd (s : State) (r j status : Nat) (out : List Byte) : State :=
  modRimeR s r fun x =>
    { x with jobs := x.jobs.mapIdx fun i b =>
               if i = j then { b with step := .finished, status := status, out := out } else b }

/-- Count a completion (R423, registers). -/
def rimeTally (s : State) (r status : Nat) : State :=
  modRimeR s r fun x =>
    let x := { x with reqs := sat64 (x.reqs + 1) }
    match status with
    | 1 => { x with authFail := sat32 (x.authFail + 1) }
    | 2 => { x with replay := sat32 (x.replay + 1) }
    | 3 => { x with nonce := sat32 (x.nonce + 1) }
    | 7 => { x with bad := sat32 (x.bad + 1) }
    | _ => x

/-- HWM of slot k under the key of generation g becomes w where that is above it; RIME_REKEY_WARN is posted once a key (R425,
R426). -/
def hwmRaise (s : State) (k g w : Nat) : State :=
  let h := ((slotOf s k).under g).hot
  if h.hwm.any fun v => decide (w ≤ v) then s
  else
    let warn := !h.warned && decide (2 ^ 48 - 2 ^ 20 ≤ w)
    let s := modSlot s k fun x => x.setHot g { h with hwm := some w, warned := h.warned || warn }
    if warn then unitEv s 0x30 (objNo 0x0F k) (k + w * 2 ^ 16) else s

/-- The index check of SRTP_ENC: status, and the state after (R425, R426). -/
def encCheck (s : State) (q : RimeReq) (g : Nat) : Nat × State :=
  let h := ((slotOf s q.slot).under g).hot
  let above := match h.hwm with | some w => decide (w < q.index) | none => true
  if above then (0, hwmRaise s q.slot g q.index)
  else
    (3, alarm (modSlot s q.slot fun k => k.spend g) 0x50 (objNo 0x0F q.slot) (BitVec.ofNat 64 q.slot) noSite)

/-- The entry a slot's hot part has in its reach's hot memory: the number of lower slots homed there (R411, R433; log 163). -/
def hotEntry (s : State) (k : Nat) : Nat :=
  (s.rime.slots.filter fun p => decide (p.1 < k) && p.2.home == (slotOf s k).home).length

/-- Where the cold record of slot k lies, in the table at the top of usable LPDDR5X capacity (R38, R411). -/
def coldAt (s : State) (k : Nat) : Nat := ddrUsable s - 0x200000 + 128 * k
/-- A word of the cold record of slot k is poisoned (R433). -/
def coldBad (s : State) (k : Nat) : Bool := (wordsOf (coldAt s k) 128).any s.fab.ddrPoison.contains
/-- The cold record of slot k is written whole (R43, R412). -/
def coldClean (s : State) (k : Nat) : State :=
  modFab s fun f => { f with ddrPoison := f.ddrPoison.filter fun w => !(wordsOf (coldAt s k) 128).contains w }

/-- Poison in the hot part or the cold record: the slot faults and RIME_UE is raised; with the hot part every cache
entry of the reach goes (R433). -/
def slotFault (s : State) (r k : Nat) (hot : Bool) (site : DWord) : State :=
  let s := modSlot s k fun x => { x with st := .faulted }
  let s := modRimeR s r fun x => { x with ue := sat32 (x.ue + 1), cache := if hot then [] else x.cache }
  if hot then alarm s 0x51 (objNo 0x0F k) 0 site else s

/-- The checks a request passes on leaving the queue, in order: the status that ends it, or 0, the estimated or given
index, and the state after (R421, R419, R423, R425, R427, R433). -/
def rimeCheck (s : State) (r : Nat) (q : RimeReq) (g : Nat) (ue : RimeUe) : Nat × Nat × State :=
  let k := (slotOf s q.slot).under g
  if q.bad || (k.st != .empty && k.home != some r) then (7, 0, s)
  else
    match ue with
    | .hot e => (11, 0, slotFault s r q.slot true (siteStage (96 + 8 * r) 0 e))
    | _ =>
      if k.st = .faulted then (11, 0, s)
      else if k.st = .spent then (4, 0, s)
      else if k.st = .empty then (5, 0, s)
      else if !q.suits k then (6, 0, s)
      else if q.op = 1 then
        let (st, s) := encCheck s q g
        (st, q.index, s)
      else if q.op = 2 then
        let i := k.hot.guess (reqSeq s q)
        let busy := (rimeReach s r).jobs.any fun j =>
          j.req.slot == q.slot && j.gen == g && j.req.op == 2 && j.step != .finished && j.idx == i
        if k.hot.replayed i || busy then (2, i, s) else (0, i, s)
      else (0, q.index, s)

/-- An engine is free for the request: eight AES engines, two hash engines (R407). -/
def engineFree (x : RimeReach) (op : Nat) : Bool :=
  let busy := x.jobs.filter fun j => j.step != .finished && ((j.req.op == 5) == (op == 5))
  busy.length < if op = 5 then 2 else 8

/-- RIME_DISPATCH: the head request leaves the queue (R422, R425, R427, R417, R433). -/
def rimeDispatch (s : State) (r : Nat) (ue : RimeUe) : State :=
  match (rimeReach s r).queue with
  | [] => s
  | (q, g) :: t =>
    let s := modRimeR s r fun x => { x with queue := t }
    let (st, i, s) := rimeCheck s r q g ue
    let hit := (rimeReach s r).cache.contains (q.slot, g)
    let (hit, s) := match ue with
      | .cache _ => if st = 0 && hit then
          (false, modRimeR s r fun x => { x with ue := sat32 (x.ue + 1), cache := x.cache.erase (q.slot, g) })
        else (hit, s)
      | _ => (hit, s)
    let (st, s) := if st = 0 && !hit && (ue == .cold || coldBad s q.slot) then (11, slotFault s r q.slot false noSite) else (st, s)
    let step : RimeStep := if st ≠ 0 then .finished else if hit then .running else .deriving_
    let s := if step = .deriving_ then modRimeR s r fun x => { x with miss := sat32 (x.miss + 1) } else s
    let s := if step = .running then cacheUse s r q.slot g else s
    rimeRefill (modRimeR s r fun x =>
      { x with jobs := x.jobs ++ [{ req := q, gen := g, step := step, idx := i, status := st, out := [] }] }) r

/-- Finished requests whose earlier requests of the same slot have all been posted, with the rest (R422). -/
def postable : List RimeJob → List Nat → List RimeJob × List RimeJob
  | [], _ => ([], [])
  | j :: t, blocked =>
    if j.step == .finished && !blocked.contains j.req.slot then
      let p := postable t blocked
      (j :: p.1, p.2)
    else
      let p := postable t (j.req.slot :: blocked)
      (p.1, j :: p.2)

/-- Output bytes of a request of a slot's mode that ends OK (R420). -/
def outLen (mode : Nat) (q : RimeReq) : Nat :=
  match q.op with
  | 1 => q.hdr + q.len + modeTag mode
  | 5 => 32
  | _ => q.len

/-- The bytes a request reads. -/
def inLenOf (mode : Nat) (q : RimeReq) : Nat :=
  match q.op with
  | 1 => q.hdr + q.len
  | 2 => q.hdr + q.len + modeTag mode
  | _ => q.len

/-- The working material of a slot under one of its keys. -/
def materialOf (s : State) (slot : Nat) (k : KeyOld) : Option (List Byte) :=
  slotMaterial (rootKey s k.root) slot k.mode k.wrapped k.label k.value

/-- What the engine makes of a request's input: whether a tag passes, and its output (R420, R428, R430). -/
def engineOut (s : State) (q : RimeReq) (g idx : Nat) (input : List Byte) : Bool × List Byte :=
  let k := (slotOf s q.slot).under g
  let m := (materialOf s q.slot k).getD []
  match q.op with
  | 1 => (true, srtpProtect k.mode m (input.take q.hdr) (input.drop q.hdr) idx)
  | 2 => srtpOpen k.mode m (input.take q.hdr) (input.drop q.hdr) idx
  | 3 => (true, xts m false idx input)
  | 4 => (true, xts m true idx input)
  | _ => (true, hmac sha256 m input)

end Sys2Proof.Machine
end

