-- ==== Sys2Proof/Machine/SluOps.lean ====
section
/-! DEFINITION. The Sluice: profiles, arithmetic of the stages, contexts, requests and completions (chapter 09). -/

namespace Sys2Proof.Machine

/-! ## Profiles (R275, R276, R288, R290, R291) -/

/-- Rate at a stage's output, from the rate at its input (R276). -/
def Stage.rateOut (g : Stage) (r : Nat) : Nat :=
  match g.kind with | .dec => r / g.ratio | .int => r * g.ratio | _ => r
/-- The rates at the inputs of a chain's stages. -/
def ratesIn : List Stage → Nat → List Nat
  | [], _ => []
  | g :: t, r => r :: ratesIn t (g.rateOut r)
/-- The chain's output rate. -/
def chainRate (l : List Stage) (r : Nat) : Nat := l.foldl (fun r g => g.rateOut r) r
/-- Every stage rate is a whole number of hertz (R276). -/
def ratesWhole : List Stage → Nat → Bool
  | [], _ => true
  | g :: t, r => (g.kind != .dec || r % g.ratio == 0) && ratesWhole t (g.rateOut r)
/-- A stage's reserved rate at input rate r (R288). -/
def Stage.mac (g : Stage) (r : Nat) : Nat :=
  match g.kind with
  | .dcb => r
  | .dec => g.n * g.rateOut r
  | .int => g.n / g.ratio * g.rateOut r
  | .adapt => (2 * g.t + 2) * r
/-- A stage's history need (R288). -/
def Stage.need (g : Stage) : Nat :=
  match g.kind with | .dcb => 0 | .dec => g.n - 1 | .int => ceilDiv g.n g.ratio | .adapt => g.t + 1
/-- Twice a stage's group delay and the rate it is counted at (R291). -/
def Stage.delay2 (g : Stage) (r : Nat) : Nat × Nat :=
  match g.kind with | .dcb => (0, 1) | .dec => (g.n - 1, r) | .int => (g.n - 1, g.rateOut r) | .adapt => (g.t - 1, r)
/-- The settle count U (R291). -/
def settleOf (l : List Stage) (rate : Nat) : Nat :=
  let out := chainRate l rate
  let d := (l.zip (ratesIn l rate)).map fun p => p.1.delay2 p.2
  let f := d.foldl (fun a x => (a.1 * (2 * x.2) + x.1 * out * a.2, a.2 * (2 * x.2))) (0, 1)
  ceilDiv f.1 f.2
/-- A profile with its settle count and reserved rate computed (R299). -/
def mkProfile (rate : Nat) (l : List Stage) : Profile :=
  { rate := rate, stages := l, u := settleOf l rate,
    mac := ((l.zip (ratesIn l rate)).map fun p => p.1.mac p.2).sum }

/-- A FIR or ADAPT stage of a standard profile. -/
def stdStage (kind : StageKind) (ratio n p t coef k : Nat) : Stage :=
  { kind := kind, k := 0, ratio := ratio, n := n, p := p, t := t, coef := coef, shift := (Config.stdShift k).toNat }
/-- The standard profiles 0 to 5 (R290). -/
def stdProfile (k : Nat) : Profile :=
  match k with
  | 0 => mkProfile 48000 [stdStage .adapt 1 0 128 12 0 0]
  | 1 => mkProfile 96000 [stdStage .adapt 1 0 128 12 0 1]
  | 2 => mkProfile 8000 [stdStage .int 6 72 0 0 1536 2]
  | 3 => mkProfile 48000 [stdStage .dec 6 72 0 0 1608 3]
  | 4 => mkProfile 16000 [stdStage .int 3 48 0 0 1680 4]
  | _ => mkProfile 48000 [stdStage .dec 3 48 0 0 1728 5]

/-- Profile p of a lane; the standard ones are there once the Icehouse has loaded them at start-up (R274, R290). -/
def SluLane.prof (l : SluLane) (p : Nat) : Option Profile :=
  if p < 6 then (if l.std then some (stdProfile p) else none) else tabGet none l.profs p
/-- Coefficient word w of a lane, Q1.31 (R274, R290). -/
def SluLane.coef (l : SluLane) (w : Nat) : Int :=
  if w < 1776 then (if l.std then (Config.stdCoef w).toInt else 0) else (tabGet 0 l.coefs w).toInt
/-- Coefficient words a stage uses (R275). -/
def Stage.words (g : Stage) : Nat := match g.kind with | .dcb => 0 | .adapt => g.p * g.t | _ => g.n
/-- Bound contexts of a lane with their numbers. -/
def SluLane.bound (l : SluLane) : List (Nat × Ctx) := l.ctxs.filterMap fun p => p.2.map fun c => (p.1, c)
/-- Reserved rate of a profile number. -/
def SluLane.macOf (l : SluLane) (p : Nat) : Nat := (l.prof p).elim 0 (·.mac)
/-- Reserved rate of a lane in MAC/s (R289). -/
def SluLane.load (l : SluLane) : Nat := (l.bound.map fun p => l.macOf p.2.prof).sum
/-- The most a lane may reserve (R289). -/
def sluLimit : Nat := 1200000000

/-! ## Arithmetic (R277-R281) -/

/-- One term of a FIR sum (R279). -/
def firTerm (x c : Int) : Int := (x * c + 32768) / 65536
/-- The sum of the terms of samples and coefficients taken together. -/
def firAcc (xs : List Int) (cs : List Int) : Int := ((xs.zip cs).map fun p => firTerm p.1 p.2).sum
/-- The output right shift, rounding half up (R279). -/
def firShift (acc : Int) (shift : Nat) : Int := if shift = 0 then acc else (acc + 2 ^ (shift - 1)) / 2 ^ shift
/-- An output saturated to 32 bits, and whether it was (R279). -/
def firOut (q : Int) : Int × Nat := (satS 32 q, b2n (satS 32 q != q))

/-- The DC-blocking stage on one sample (R277, R278). -/
def dcbStep (k : Nat) (frozen : Bool) (d x : Int) : Int × Int × Nat :=
  let y := firOut (x - (d + 2 ^ 23) / 2 ^ 24)
  (if frozen then d else d + (x * 2 ^ 24 - d + 2 ^ (k - 1)) / 2 ^ k, y)

/-- Phase y_i of an ADAPT bank: T taps on samples from the current one back (R281). -/
def adaptPhase (coef : Nat → Int) (g : Stage) (hist : List Int) (i : Nat) : Int :=
  firShift (firAcc hist ((nums g.t).map fun t => coef (g.coef + i * g.t + t))) g.shift

/-- One output of an ADAPT stage at a fraction of the input sample before the newest; phase P is phase 0 of the sample
that follows (R281; log 41). -/
def adaptOut (coef : Nat → Int) (g : Stage) (hist : List Int) (frac : Nat) : Int × Nat :=
  let i := frac * g.p / 2 ^ 32
  let w : Nat := frac * g.p / 2 ^ 16 % 2 ^ 16
  let here := hist.drop 1
  let y0 := adaptPhase coef g here i
  let y1 := if i + 1 < g.p then adaptPhase coef g here (i + 1) else adaptPhase coef g hist 0
  firOut (y0 + ((y1 - y0) * (w : Int) + 2 ^ 15) / 2 ^ 16)

/-- Outputs while the input position lies before the newest sample; n bounds the loop. Gives the position left and the
outputs (R281). -/
def adaptRun (coef : Nat → Int) (g : Stage) (hist : List Int) (step : Nat) : Nat → Nat → Nat × List (Int × Nat)
  | 0, pos => (pos, [])
  | n + 1, pos =>
    if pos < 2 ^ 32 then
      let r := adaptRun coef g hist step n (pos + step)
      (r.1, adaptOut coef g hist pos :: r.2)
    else (pos, [])

/-- A stage takes one input sample: its state after and its outputs, each with whether it saturated (R277-R281). -/
def stageStep (coef : Nat → Int) (g : Stage) (frozen : Bool) (eps : Int) (z : StageSt) (x : Int) :
    StageSt × List (Int × Nat) :=
  match g.kind with
  | .dcb =>
    let r := dcbStep g.k frozen z.dc x
    ({ z with dc := r.1 }, [r.2])
  | .dec =>
    let hist := (x :: z.hist).take g.n
    ({ z with hist := hist, phase := (z.phase + 1) % g.ratio },
     if z.phase = 0 then [firOut (firShift (firAcc hist ((nums g.n).map fun i => coef (g.coef + i))) g.shift)] else [])
  | .int =>
    let m := g.n / g.ratio
    let hist := (x :: z.hist).take m
    ({ z with hist := hist },
     (nums g.ratio).map fun j =>
       firOut (firShift (firAcc hist ((nums m).map fun i => coef (g.coef + j + g.ratio * i))) g.shift))
  | .adapt =>
    let hist := (x :: z.hist).take (g.t + 1)
    let r := adaptRun coef g hist (2 ^ 32 + eps).toNat 3 z.frac
    ({ z with hist := hist, frac := r.1 - 2 ^ 32 }, r.2)

/-- A stage takes several samples: state, outputs, samples saturated. -/
def stageRun (coef : Nat → Int) (g : Stage) (frozen : Bool) (eps : Int) (z : StageSt) : List Int → StageSt × List Int × Nat
  | [] => (z, [], 0)
  | x :: t =>
    let (z, o) := stageStep coef g frozen eps z x
    let (z, o', n) := stageRun coef g frozen eps z t
    (z, o.map (·.1) ++ o', (o.map (·.2)).sum + n)

/-- A chain takes samples: states, outputs, samples saturated (R275). -/
def chainRun (coef : Nat → Int) (frozen : Bool) (eps : Int) : List Stage → List StageSt → List Int →
    List StageSt × List Int × Nat
  | g :: gs, z :: zs, xs =>
    let (z, o, n) := stageRun coef g frozen eps z xs
    let (zs, o', n') := chainRun coef frozen eps gs zs o
    (z :: zs, o', n + n')
  | _, _, xs => ([], xs, 0)

/-! ## Contexts (R274, R292-R296) -/

/-- A start: histories, DC estimate and phases cleared, the count at U (R278, R292). -/
def Ctx.start (p : Profile) (c : Ctx) : Ctx := { c with st := p.stages.map fun _ => StageSt.reset, left := p.u }

/-- A step: histories cleared, DC estimate and phases kept (R292). -/
def Ctx.clearHist (c : Ctx) : Ctx := { c with st := c.st.map fun z => { z with hist := [] } }

/-- A context newly bound to profile p of a lane (R289, R292). -/
def newCtx (p : Profile) (prof kind chamber : Nat) (atomic : Bool) (target : Nat) (owner : Option Nat) : Ctx :=
  ({ prof := prof, kind := kind, chamber := chamber, atomic := atomic, target := target, owner := owner, st := [],
     frozen := false, frzPend := none, left := 0, sat := 0, stepPend := false, sync := [] } : Ctx).start p

/-- Lanes of reach r in which a context of profile p could be bound, most free contexts first, ties to the lowest
(R289): lane numbers. -/
def sluOrder (s : State) (r p : Nat) : List Nat :=
  let free (l : Nat) : Nat := 512 - (laneOf s l).bound.length
  let ls := (numsFrom (4 * r) 4).filter fun l =>
    (laneOf s l).run && ((laneOf s l).prof p).isSome && !(laneOf s l).faulted.contains p && decide (0 < free l)
  ls.foldl (fun t l => t.takeWhile (fun x => decide (free l ≤ free x)) ++ [l] ++ t.dropWhile (fun x => decide (free l ≤ free x))) []

/-- The context R289 picks for profile p in reach r: its device-wide number, or the refusing code. -/
def sluPlace (s : State) (r p : Nat) : Except Nat Nat :=
  match sluOrder s r p with
  | [] => .error 0x0322
  | ls =>
    match ls.find? fun l => decide ((laneOf s l).load + (laneOf s l).macOf p ≤ sluLimit) with
    | none => .error 0x0340
    | some l =>
      match leastFree ((laneOf s l).bound.map (·.1)) 512 with
      | some k => .ok (512 * l + k)
      | none => .error 0x0322

/-- Bind context k, where the lane holds the profile (R289). -/
def sluBind (s : State) (k prof kind chamber : Nat) (atomic : Bool) (target : Nat) (owner : Option Nat) : State :=
  match (laneOf s (k / 512)).prof prof with
  | some p => setCtx s k (some (newCtx p prof kind chamber atomic target owner))
  | none => s

/-- Apply f to every bound context. -/
def modCtxs (s : State) (f : SluLane → Ctx → Ctx) : State :=
  (nums 16).foldl (fun s l => modLane s l fun x =>
    { x with ctxs := x.ctxs.map fun p => (p.1, p.2.map (f x)) }) s

/-- NX_CHAN_START of its owner starts a context (R292). -/
def sluStartOf (s : State) (c : Nat) : State :=
  modCtxs s fun l x => if x.owner = some c then match l.prof x.prof with | some p => x.start p | none => x else x

/-- Free the contexts of channel c (R289). -/
def sluFreeOf (s : State) (c : Nat) : State :=
  (nums 16).foldl (fun s l => modLane s l fun x =>
    { x with ctxs := x.ctxs.filter fun p => !(match p.2 with | some y => y.owner == some c | none => false) }) s

/-- A sync tick is registered and not yet reached (SLU_SYNC_CTRL.PENDING). -/
def syncPending (s : State) : Bool := s.slu.pending && decide (tick48 s < s.slu.tick)

/-- A sync event: ignored and counted while one is pending, else T_s is registered for every bound context (R295, R296).
skip: the edge is registered after the next tick. -/
def syncEvent (s : State) (skip : Bool) : State :=
  if syncPending s then modSlu s fun u => { u with ign := sat32 (u.ign + 1) }
  else
    let t := tick48 s + (if skip then 2 else 1)
    modCtxs (modSlu s fun u => { u with pending := true, tick := t }) fun _ x => { x with sync := x.sync ++ [t] }

/-- ε of a context in 2^-32 (R281): the Basin manager's on a channel's rate adaptation, with 500 ppm more or less while the depth
of an L16 or L24 channel is changing (R228, R229); else 0. -/
def ctxEps (s : State) (x : Ctx) : Int :=
  match x.owner with
  | none => 0
  | some c =>
    if 1 < x.prof then 0
    else
      let b := basinOf s c
      let moving := shifting s (chanOf s c) b
      let e := b.eps + (if !moving then 0 else if b.depth < b.target then -50000 else 50000)
      max (-100000) (min 100000 e) * 2 ^ 32 / 100000000

/-! ## Requests and completions (R282-R286) -/

/-- A 32-byte request (R282). -/
def sluReqOf (l : List Byte) : SluReq :=
  let n (o k : Nat) : Nat := ofLe ((l.drop o).take k)
  { ctx := n 0 2 % 512, step := bitOf (n 2 1) 0, frzSet := bitOf (n 2 1) 1, frz := bitOf (n 2 1) 2, count := n 4 2 % 8192,
    tick := n 8 8, inPtr := n 16 8 % 2 ^ 40, outPtr := n 24 8 % 2 ^ 40,
    rsvd := n 0 2 / 512 != 0 || n 2 1 / 8 != 0 || n 3 1 != 0 || n 4 2 / 8192 != 0 || n 6 2 != 0
      || n 16 8 / 2 ^ 40 != 0 || n 24 8 / 2 ^ 40 != 0 }

/-- A request joins the queue; a full queue or a stopped lane holds the write (R284). -/
def sluPut (s : State) (l : Nat) (q : SluReq) : State :=
  modLane s l fun x =>
    if x.run && x.held.isEmpty && decide (x.queue.length < 256) then { x with queue := x.queue ++ [q] }
    else { x with held := x.held ++ [q] }
/-- Lane l serves a requester of domain dom: one of its own reach, or of the centre (R273; log 181). -/
def sluServes (l dom : Nat) : Bool := (domainReach dom).all fun r => r == l / 4
/-- A running lane accepts held writes while it has room (R284). -/
def SluLane.refill (x : SluLane) : SluLane :=
  if x.run then { x with queue := x.queue ++ x.held.take (256 - x.queue.length),
                         held := x.held.drop (256 - x.queue.length) } else x

/-- Input samples of a request, a poisoned word read as zero, and the number of 64-bit words poisoned (R302; log 39). -/
def sluIn (s : State) (q : SluReq) : List Int × Nat :=
  let bs := memRead s q.inPtr (4 * q.count)
  let bad (w : Nat) : Bool := memPoisoned s (q.inPtr + 8 * w) 8
  let nw := ceilDiv q.count 2
  let ps := (nums nw).filter bad
  ((nums q.count).map fun i =>
     if ps.contains (i / 2) then 0 else (BitVec.ofNat 32 (ofLe ((bs.drop (4 * i)).take 4))).toInt, ps.length)

/-- A request in progress: the context, outputs so far newest first, samples saturated, outputs up to and including the
last one marked UNSETTLED (the mark is widened back to the first, R293), whether a phase reset moved a counter, how many came late, how
many moved one. -/
structure SluRun where
  c     : Ctx
  out   : List Int
  sat   : Nat
  mark  : Nat
  moved : Bool
  late  : Nat
  slip  : Nat
deriving DecidableEq, Repr

/-- Outputs pass: each carries the mark and lowers the count while it is above zero (R292). -/
def SluRun.emit (r : SluRun) (o : List Int) : SluRun :=
  let n := r.out.length + o.length
  let k := min r.c.left o.length
  { r with out := o.reverse ++ r.out, c := { r.c with left := r.c.left - k },
           mark := if k = 0 then r.mark else n - (o.length - k) }

/-- A sync tick ts that has been reached applies at a sample of time t, in 96 kHz ticks: every DEC counter is given 0 (R295, R296). -/
def SluRun.sync1 (stages : List Stage) (u t : Nat) (r : SluRun) (ts : Nat) : SluRun :=
  let moves := (stages.zip r.c.st).any fun p => p.1.kind == .dec && p.2.phase != 0
  let st := if moves then (stages.zip r.c.st).map fun p => if p.1.kind = .dec then { p.2 with phase := 0 } else p.2
            else r.c.st
  { r with c := { r.c with st := st, left := if moves then u else r.c.left },
           moved := r.moved || moves, slip := r.slip + b2n moves, late := r.late + b2n (decide (2 * ts + 96 < t)) }

/-- The sync ticks reached by a sample of time t apply at it, each once (R295, R296). -/
def SluRun.sync (stages : List Stage) (u : Nat) (r : SluRun) (t : Nat) : SluRun :=
  let r' := (r.c.sync.filter fun ts => decide (2 * ts ≤ t)).foldl (SluRun.sync1 stages u t) r
  { r' with c := { r'.c with sync := r.c.sync.filter fun ts => decide (t < 2 * ts) } }

/-- The samples of a request, one after another (R285, R293). -/
def sluLoop (coef : Nat → Int) (p : Profile) (eps : Int) (first : Nat) : Nat → List Int → SluRun → SluRun
  | _, [], r => r
  | i, x :: t, r =>
    let r := r.sync p.stages p.u (first + i * (96000 / p.rate))
    let (st, o, n) := chainRun coef r.c.frozen eps p.stages r.c.st [x]
    let r := { r with c := { r.c with st := st }, sat := r.sat + n }
    sluLoop coef p eps first (i + 1) t (r.emit o)

/-- What precedes the first sample: FREEZE, FRZ_SET and STEP (R292-R294). -/
def Ctx.begin (c : Ctx) (p : Profile) (q : SluReq) : Ctx :=
  let want := if q.frzSet then some q.frz else c.frzPend
  let released := c.frozen && want == some false
  let step := q.step || c.stepPend
  let c := { c with frozen := want.getD c.frozen, frzPend := none, stepPend := false }
  let c := if step then c.clearHist else c
  if step || released then { c with left := p.u } else c

/-- A completion's ARG (R286). -/
def sluArg (n unset : Nat) (sat poison synced err : Bool) : Nat :=
  n + unset * 2 ^ 14 + b2n sat * 2 ^ 28 + b2n poison * 2 ^ 29 + b2n synced * 2 ^ 30 + b2n err * 2 ^ 31

/-- PRIO and GROUP of a context's completions: its channel's, or open values (R286; log 42). -/
def ctxPrio (s : State) (x : Ctx) : Nat × Nat :=
  match x.owner with
  | some c => ((chanOf s c).core.prio, (chanOf s c).core.group)
  | none => ((Config.prio 1).toNat, 0xFF)

/-- Post a completion of lane l (R286). -/
def sluPost (s : State) (l : Nat) (x : Ctx) (q : SluReq) (arg : Nat) : State :=
  let pg := ctxPrio s x
  postItem s (128 + l) (l / 4) (mkItem x.kind x.atomic pg.1 pg.2 x.chamber x.target q.outPtr arg)

/-- The head request is malformed or its profile FAULTED: nothing written, ERR where the context is bound (R283, R302). -/
def sluErr (s : State) (l : Nat) (q : SluReq) (malformed : Bool) : State :=
  let s := if malformed then modLane s l fun x => { x with bad := sat32 (x.bad + 1) } else s
  match ctxOf s (512 * l + q.ctx) with
  | some x => sluPost s l x q (sluArg 0 0 false false false true)
  | none => s

/-- A poisoned coefficient word: a standard one is rewritten while requests wait; another faults every profile that uses
it, with the alarm (R302). -/
def coefUe (s : State) (l w : Nat) : State :=
  let s := modLane s l fun x => { x with ue := sat32 (x.ue + 1) }
  if w < 1776 then modLane s l fun x => { x with rewrite := true }
  else
    let uses (p : Profile) : Bool := p.stages.any fun g => g.kind != .dcb && decide (g.coef ≤ w) && decide (w < g.coef + g.words)
    let hit := (laneOf s l).profs.filterMap fun e => match e.2 with
      | some p => if uses p then some e.1 else none
      | none => none
    let s := modLane s l fun x => { x with faulted := hit.foldl addOnce x.faulted }
    alarm s 0x34 (objNo 7 l) 0 (siteStage (128 + l) 0 w)

end Sys2Proof.Machine
end

