-- ==== Sys2Proof/Machine/QuayOps.lean ====
section
/-! DEFINITION. Quay ports: frames, checksums, the flow table, the frame stores and the gates (chapter 10). -/

namespace Sys2Proof.Machine

/-! ## Checksums (R312, R315) -/

/-- n bits of a reflected CRC with polynomial poly. -/
def crcBits (poly : BitVec 32) : Nat → BitVec 32 → BitVec 32
  | 0, c => c
  | n + 1, c => crcBits poly n (if c.getLsbD 0 then (c >>> 1) ^^^ poly else c >>> 1)
/-- A reflected CRC over bytes with final complement. -/
def crcOf (poly init : BitVec 32) (l : List Byte) : BitVec 32 :=
  ~~~ (l.foldl (fun c b => crcBits poly 8 (c ^^^ b.zeroExtend 32)) init)
/-- IEEE 802.3 CRC-32, the FCS. -/
def crc32 (l : List Byte) : BitVec 32 := crcOf 0xEDB88320 0xFFFFFFFF l
/-- CRC-32C (Castagnoli) with initial value seed. -/
def crc32c (seed : BitVec 32) (l : List Byte) : BitVec 32 := crcOf 0x82F63B78 seed l
/-- Hash bin of a group address: bits [31:20] with bit 31 the coefficient of x^31 (R312). -/
def hashBin (mac : List Byte) : Nat := ((crc32 mac).reverse >>> 20).toNat

/-! ## Frames (R305, R313, R314) -/

/-- The fields of a received frame the classifier reads: VLAN tags outer first, EtherType, IP version or 0, addresses,
UDP ports and payload, and whether it is a PTP message. -/
structure Parsed where
  dst   : List Byte
  vids  : List Nat
  etype : Nat
  ipv   : Nat
  srcIp : Nat
  dstIp : Nat
  udp   : Option (Nat × Nat × List Byte)
  /-- the PTP message, if it is one. -/
  ptp   : Option (List Byte)
deriving DecidableEq, Repr

/-- A time moved by d units, in 64-bit seconds (R382). -/
def timeAdd (t : Nat) (d : Int) : Nat := (((t : Int) + d) % ((2 ^ 64 * unitsPerSec : Nat) : Int)).toNat

/-- n bytes of l from offset o as a big-endian number. -/
def be (l : List Byte) (o n : Nat) : Nat := ofBe ((l.drop o).take n)

/-- VLAN tags, at most n, then the EtherType and what follows it. -/
def peelTags : Nat → List Byte → List Nat × Nat × List Byte
  | 0, l => ([], be l 0 2, l.drop 2)
  | n + 1, l =>
    if (be l 0 2 = 0x8100 ∨ be l 0 2 = 0x88A8) ∧ 6 ≤ l.length then
      let r := peelTags n (l.drop 4)
      (be l 2 2 % 4096 :: r.1, r.2)
    else ([], be l 0 2, l.drop 2)

/-- A UDP datagram: ports and payload. -/
def udpOf (l : List Byte) : Option (Nat × Nat × List Byte) :=
  if l.length < 8 then none else some (be l 0 2, be l 2 2, (l.take (max 8 (be l 4 2))).drop 8)

/-- Read a frame (without FCS). Fragments other than the first carry no UDP header. -/
def parseFrame (l : List Byte) : Parsed :=
  let (vids, et, x) := peelTags 2 (l.drop 12)
  let base : Parsed := { dst := l.take 6, vids := vids, etype := et, ipv := 0, srcIp := 0, dstIp := 0, udp := none,
                         ptp := if et = 0x88F7 then some x else none }
  let fin (ipv src dst proto : Nat) (frag : Bool) (body : List Byte) : Parsed :=
    let u := if proto = 17 && !frag then udpOf body else none
    let msg := match u with | some (_, d, m) => if d = 319 ∨ d = 320 then some m else none | none => none
    { base with ipv := ipv, srcIp := src, dstIp := dst, udp := u, ptp := msg }
  if et = 0x0800 ∧ 20 ≤ x.length ∧ be x 0 1 / 16 = 4 then
    fin 4 (be x 12 4) (be x 16 4) (be x 9 1) (be x 6 2 % 8192 != 0) ((x.take (be x 2 2)).drop (be x 0 1 % 16 * 4))
  else if et = 0x86DD ∧ 40 ≤ x.length ∧ be x 0 1 / 16 = 6 then
    fin 6 (be x 8 16) (be x 24 16) (be x 6 1) false ((x.drop 40).take (be x 4 2))
  else base

/-- An RTP packet (RFC 3550): sequence, timestamp, SSRC, marker, payload type, header, payload with its padding, and the
bytes of padding its last byte gives. -/
structure Rtp where
  seq  : Nat
  ts   : Nat
  ssrc : Word
  marker : Bool
  pt   : Nat
  head : List Byte
  payload : List Byte
  pad  : Nat
deriving DecidableEq, Repr

/-- Read an RTP packet; none where the bytes are not one. -/
def rtpOf (l : List Byte) : Option Rtp :=
  let b0 := be l 0 1
  let h := 12 + 4 * (b0 % 16)
  let h := if bitOf b0 4 then h + 4 + 4 * be l (h + 2) 2 else h
  let pad := if bitOf b0 5 && decide (h < l.length) then be l (l.length - 1) 1 else 0
  if l.length < 12 ∨ b0 / 64 ≠ 2 ∨ l.length < h then none
  else some { seq := be l 2 2, ts := be l 4 4, ssrc := BitVec.ofNat 32 (be l 8 4), marker := bitOf (be l 1 1) 7,
              pt := be l 1 1 % 128, head := l.take h, payload := l.drop h, pad := pad }

/-- The payload of a packet for channel c: without its padding, unless it is still encrypted (R216, R232). -/
def Pkt.clear (s : State) (c : Nat) (p : Pkt) : Pkt :=
  if (rxKey (chanOf s c) p.legB).isSome then p
  else { p with payload := p.payload.take (p.payload.length - p.pad), pad := 0 }

/-! ## The flow table (R314-R316) -/

/-- A flow key (R315). -/
def flowKey (t port vid ipv dst udp src ssrc : Nat) : List Byte :=
  let ip (a : Nat) : List Byte := if ipv = 4 then beBytes a 4 ++ List.replicate 12 0 else beBytes a 16
  [BitVec.ofNat 8 t, BitVec.ofNat 8 port] ++ beBytes vid 2 ++ [BitVec.ofNat 8 ipv, 0] ++ beBytes udp 2 ++ ip dst ++
    ip (if t % 2 = 1 then src else 0) ++ beBytes (if 2 ≤ t then ssrc else 0) 4 ++ List.replicate 4 0

/-- SEED_b (R315). -/
def flowSeed (b : Nat) : BitVec 32 :=
  match b with | 0 => 0xFFFFFFFF | 1 => 0x0F1E2D3C | 2 => 0x8A5B6C7D | _ => 0x5E1DA3C7
/-- A key's candidate in bank b (R315). -/
def flowCand (key : List Byte) (b : Nat) : Nat := (crc32c (flowSeed b) key).toNat % 16384

/-- Entries in use, with their numbers. -/
def flowUsed (s : State) : List (Nat × FlowEntry) := s.net.flow.filterMap fun p => p.2.map fun e => (p.1, e)
/-- The entry of a key. -/
def flowFind (s : State) (key : List Byte) : Option (Nat × FlowEntry) := (flowUsed s).find? fun p => p.2.key == key
/-- The entry that lies in a place. -/
def flowAt (s : State) (b i : Nat) : Option (Nat × FlowEntry) :=
  (flowUsed s).find? fun p => p.2.bank == b && p.2.idx == i

/-- A place of the table, and the moves that reach it: entry number with its new bank and index, first move first. -/
abbrev FlowPath := (Nat × Nat) × List (Nat × Nat × Nat)

/-- What may follow a place whose entry is to move: the first free candidate, or the occupied ones (R316). -/
def flowNext (s : State) (p : FlowPath) : Option FlowPath × List FlowPath :=
  match flowAt s p.1.1 p.1.2 with
  | none => (none, [])
  | some (n, e) =>
    let nxt := ((nums 4).filter (· != p.1.1)).map fun b => (b, flowCand e.key b)
    let path (c : Nat × Nat) : FlowPath := (c, p.2 ++ [(n, c)])
    match nxt.find? fun c => (flowAt s c.1 c.2).isNone with
    | some c => (some (path c), [])
    | none => (none, nxt.map path)

/-- Breadth-first search over chains, n moves deep (R316). -/
def flowSearch (s : State) : Nat → List FlowPath → Option (List (Nat × Nat × Nat))
  | 0, _ => none
  | n + 1, level =>
    let r := level.map (flowNext s)
    match r.findSome? (·.1) with
    | some p => some p.2
    | none => flowSearch s n (r.map (·.2)).flatten

/-- The place of a new key and the moves that free it; none where R316 finds no chain. -/
def flowPlan (s : State) (key : List Byte) : Option ((Nat × Nat) × List (Nat × Nat × Nat)) :=
  let cands := (nums 4).map fun b => (b, flowCand key b)
  match cands.find? fun c => (flowAt s c.1 c.2).isNone with
  | some c => some (c, [])
  | none =>
    match flowSearch s 4 (cands.map fun c => (c, [])) with
    | some ms => match ms with
      | (n, _, _) :: _ => match flowOf s n with
        | some e => some ((e.bank, e.idx), ms)
        | none => none
      | [] => none
    | none => none

/-- Set flow entry number n. -/
def setFlow (s : State) (n : Nat) (e : Option FlowEntry) : State :=
  { s with net := { s.net with flow := tabSet none s.net.flow n e } }

/-- Insert a key: its number, or the refusing code (R316, R342). -/
def flowInsert (s : State) (key : List Byte) (act : FlowAct) (tag : Nat) : Except Nat (Nat × State) :=
  if (flowFind s key).isSome then .error 0x019B
  else
    match flowPlan s key, leastFree ((flowUsed s).map (·.1)) 65536 with
    | some (c, ms), some n =>
      let s := ms.foldl (fun s m => match flowOf s m.1 with
        | some e => setFlow s m.1 (some { e with bank := m.2.1, idx := m.2.2 })
        | none => s) s
      .ok (n, setFlow s n (some { key := key, act := act, tag := tag, bank := c.1, idx := c.2, poison := false }))
    | _, _ => .error 0x0350

/-- The keys of a UDP frame on port n: types 3, 2, 1, 0 that have an entry on the port (R314); a datagram that is not
RTP forms no SSRC key. -/
def flowKeys (s : State) (n : Nat) (p : Parsed) : List (List Byte) :=
  match p.udp with
  | none => []
  | some (_, dport, m) =>
    let vid := p.vids.headD 0x1000
    let r := rtpOf m
    let has (t : Nat) : Bool := (flowUsed s).any fun e => e.2.key.take 2 == [BitVec.ofNat 8 t, BitVec.ofNat 8 n]
    ([3, 2, 1, 0].filter fun t => has t && (decide (t < 2) || r.isSome)).map fun t =>
      flowKey t n vid p.ipv p.dstIp dport p.srcIp (r.elim 0 (·.ssrc.toNat))

/-- What a lookup comes to: no entry, an entry with its number, or a candidate read poisoned, by bank and index. -/
inductive Lookup where
  | miss
  | hit (k : Nat) (e : FlowEntry)
  | bad (b i : Nat)
deriving DecidableEq, Repr

/-- Look keys up in order. All four candidates of a key are read: one of them poisoned ends the lookup (R314, R315, R319). ue: the key,
by place, and the bank whose candidate the read finds poisoned now. -/
def flowProbe (s : State) (ue : Option (Nat × Nat)) : Nat → List (List Byte) → Lookup
  | _, [] => .miss
  | j, key :: t =>
    match (nums 4).find? fun b => ue == some (j, b) || (flowAt s b (flowCand key b)).any (fun e => e.2.poison) with
    | some b => .bad b (flowCand key b)
    | none => match flowFind s key with
      | some (k, e) => .hit k e
      | none => flowProbe s ue (j + 1) t

/-- The lookup of a frame on port n. -/
def flowLookup (s : State) (n : Nat) (p : Parsed) (ue : Option (Nat × Nat)) : Lookup := flowProbe s ue 0 (flowKeys s n p)

/-! ## The receive store and hand-off (R308-R310, R321) -/

/-- Cells of a frame of length L, FCS included (R308). -/
def cellsOf (len : Nat) : Nat := ceilDiv (len + 32) 256
/-- Cells of a port's receive store; its transmit store (R47). -/
def rxCells (s : State) : Nat := partSize s 0 / 4 / 256
def txCells (s : State) : Nat := partSize s 1 / 4 / 256
/-- Cells in use. -/
def rxUsed (p : Port) : Nat := (p.store.map (·.cells)).sum
/-- The k lowest numbers from i on that are not in use; the first argument bounds the search. -/
def freeCells (used : List Nat) : Nat → Nat → Nat → List Nat
  | 0, _, _ => []
  | _, _, 0 => []
  | n + 1, i, k + 1 => if used.contains i then freeCells used n (i + 1) (k + 1) else i :: freeCells used n (i + 1) k
/-- The cells a frame of k takes in port p's share: the lowest free ones (R308; log 182). -/
def takeCells (p : Port) (k : Nat) : List Nat :=
  let used := (p.store.map (·.cellAt)).flatten
  freeCells used (used.length + k) 0 k
/-- The Névé words of a stored frame of port n, by Canal address and length of each cell's part: 32 bytes of header, then the frame
(R47, R308). -/
def frameSpans (s : State) (n : Nat) (f : Stored_) : List (Nat × Nat) :=
  let base := 0x1000000000 + partBase s 0 + n * (partSize s 0 / 4)
  f.cellAt.mapIdx fun j c => (base + 256 * c, min 256 (32 + f.frame.bytes.length - 256 * j))

/-- Live channels a receive stream feeds (R321). -/
def rxMembers (s : State) (n : Nat) : List Nat :=
  let p := (rxsOf s n).p
  (s.media.chans.filter fun c => c.2.core.rxSrc == .stream n && c.2.st.live
    && (decide (p.nch ≤ 1) || p.map.contains c.1)).map (·.1)

/-- Bytes of one sample of a linear payload, 0 for the others. -/
def sampleBytes (c : Codec) : Nat :=
  match c with | .l16 => 2 | .l24 => 3 | .aes3 => 8 | .g711u | .g711a => 1 | _ => 0

/-- Every n-th group of w bytes from group j on. -/
def deinterleave (w n j : Nat) (l : List Byte) : List Byte :=
  if w = 0 ∨ n ≤ 1 then l
  else ((nums (l.length / (w * n))).map fun i => (l.drop (w * (n * i + j))).take w).flatten

/-- The managers that take a packet of stream n, one for each reach that holds a member (R310, R321). -/
def takersOf (s : State) (n : Nat) : List Nat := ((rxMembers s n).map (mgrOf s)).eraseDups

/-- Post work items to managers (R306). -/
def postArr (s : State) (l : List (Nat × List (Nat × Pkt))) : State := modMedia s fun m => { m with arr := m.arr ++ l }

/-- Hand a packet of receive stream n to its members' managers, one work item each, which takes its own members' samples (R321). -/
def handOn (s : State) (n : Nat) (p : Pkt) : State :=
  let x := (rxsOf s n).p
  let part (c : Nat) : Pkt :=
    let p := p.clear s c
    { p with payload := deinterleave (sampleBytes (chanOf s c).core.codec) x.nch ((x.map.idxOf? c).getD 0) p.payload }
  postArr s ((takersOf s n).map fun r => (r, ((rxMembers s n).filter fun c => mgrOf s c == r).map fun c => (c, part c)))

/-- Work items waiting at manager r, and at Weir unit u. -/
def arrOf (s : State) (r : Nat) : List (Nat × List (Nat × Pkt)) := s.media.arr.filter fun a => a.1 == r
/-- Work items a unit's input takes before it withholds acknowledge: those of one Canal flume, body and head (R48, R68; log 183). -/
def unitRoom : Nat := 36
/-- Manager r withholds acknowledge (R198, R218). -/
def mgrFull (s : State) (r : Nat) : Bool := decide (unitRoom ≤ (arrOf s r).length)

/-- The classifier of port n still holds what it has to post: a work item past a unit's room, a frame a DMA engine has not taken, or
a message for the Timebase (R309, R452). -/
def postHeld (s : State) (n : Nat) : Bool :=
  let mine (p : Pkt) : Bool := p.frame.any fun f => f.1 == n
  ((nums 4).any fun r => ((arrOf s r).drop unitRoom).any fun a => a.2.any fun x => mine x.2)
    || (nums 4).any (fun u => ((tabGet [] s.net.weirIn u).drop unitRoom).any fun a => mine a.pkt)
    || (portOf s n).dma.any (fun d => d.frame.isSome) || !(flumeOf s (392 + n)).held.isEmpty

/-- Frame id of port n. -/
def storedOf (s : State) (n id : Nat) : Option Stored_ := (portOf s n).store.find? fun f => f.id == id
/-- Change a stored frame. -/
def modStored (s : State) (n id : Nat) (f : Stored_ → Stored_) : State :=
  modPort s n fun p => { p with store := p.store.map fun x => if x.id = id then f x else x }

/-- Consumer t of a stored frame has finished its copy (R310). -/
def takerDone (s : State) (n id t : Nat) : Bool :=
  if t < 4 then !(arrOf s t).any fun a => a.2.any fun x => x.2.frame == some (n, id)
  else if t = 4 then !(portOf s n).dma.any fun d => d.frame == some id
  else if t = 5 then !(s.net.weirIn.any fun u => u.2.any fun a => a.pkt.frame == some (n, id))
  else !(portOf s n).ptpq.contains id

/-! ## The transmit store (R323-R325) -/

/-- Cells of the transmit store in use by class c. -/
def txUsed (p : Port) (c : Nat) : Nat := ((tabGet [] p.txq c).map (·.cells)).sum

/-- k cells are free for class c: 6 and 7 have their reserve and may use the remainder too (R324; log 47). -/
def txRoom (s : State) (n c k : Nat) : Bool :=
  let p := portOf s n
  let res := p.cfg.txRes
  let ovr (u : Nat) : Nat := u - res
  let u (x : Nat) : Nat := txUsed p x + if x = c then k else 0
  let shared := ((nums 6).map u).sum + ovr (u 6) + ovr (u 7)
  decide (shared ≤ txCells s - 2 * res)

/-- Queue a frame at the tail of its class. -/
def txQueue (s : State) (n : Nat) (f : TxFrame) : State :=
  modPort s n fun p => { p with txq := tabSet [] p.txq f.cls (tabGet [] p.txq f.cls ++ [f]) }

/-- Held producers go on in order while there is room for them; one that finds none holds those of its class behind it (R324, R325).
stuck: the classes held so far. -/
def txAdmit (s : State) (n : Nat) (stuck : List Nat) : List TxFrame → State
  | [] => s
  | f :: t =>
    if !stuck.contains f.cls && txRoom s n f.cls f.cells then
      txAdmit (txQueue (modPort s n fun p => { p with txHeld := p.txHeld.erase f }) n f) n stuck t
    else txAdmit s n (f.cls :: stuck) t

/-- A producer's frame is held for room in a transmit store (R324). -/
def txWaits (s : State) (dom : Nat) : Bool := (nums 4).any fun n => (portOf s n).txHeld.any fun f => f.prod == some dom

/-- A producer writes a frame: into the store, or held for room (R324). -/
def txPut (s : State) (n : Nat) (f : TxFrame) : State :=
  if !(portOf s n).txHeld.any (fun x => x.cls == f.cls) && txRoom s n f.cls f.cells then txQueue s n f
  else modPort s n fun p => { p with txHeld := p.txHeld ++ [f] }

/-- A frame of bytes (without FCS) for class c: short ones padded (R305, R337). -/
def mkTx (c : Nat) (l : List Byte) : TxFrame :=
  let l := l ++ List.replicate (60 - l.length) 0
  { cls := c, bytes := l, tsReq := false, oneStep := false, tsId := 0, csum := false, inst := none,
    cells := cellsOf (l.length + 4), heldOnce := false, prot := none, prod := none }

/-! ## Headers of media frames (R320, R351) -/

/-- One's complement sum of 16-bit words. -/
def sum16 (l : List Byte) : Nat :=
  let rec go : List Byte → Nat
    | a :: b :: t => a.toNat * 256 + b.toNat + go t
    | [a] => a.toNat * 256
    | [] => 0
  let n := go l
  let n := n % 65536 + n / 65536
  let n := n % 65536 + n / 65536
  n % 65536 + n / 65536
/-- The Internet checksum of bytes. -/
def inetSum (l : List Byte) : Nat := 65535 - sum16 l

/-- An address's bytes. -/
def ipBytes (ipv a : Nat) : List Byte := beBytes a (if ipv = 4 then 4 else 16)

/-- A UDP datagram with or without its checksum. -/
def udpBytes (ipv src dst sport dport : Nat) (sum : Bool) (l : List Byte) : List Byte :=
  let len := 8 + l.length
  let hd := beBytes sport 2 ++ beBytes dport 2 ++ beBytes len 2
  let pseudo := ipBytes ipv src ++ ipBytes ipv dst ++ beBytes 17 2 ++ beBytes len 2
  let c := inetSum (pseudo ++ hd ++ [0, 0] ++ l)
  hd ++ (if sum then beBytes (if c = 0 then 65535 else c) 2 else [0, 0]) ++ l

/-- An Ethernet, IP and UDP frame around an RTP packet, from port n (R320). The source address, the IPv4 identification
and whether a UDP checksum over IPv4 is sent are open (log 48). -/
def streamFrame (n : Nat) (p : TxPar) (h : Hdr) (rtp : List Byte) : List Byte :=
  let tag := match h.vid with | some v => beBytes 0x8100 2 ++ beBytes (h.pcp * 8192 + v) 2 | none => []
  let udp := udpBytes p.ipv h.srcIp h.dstIp h.srcUdp h.dstUdp (p.ipv != 4 || Config.udpSum) rtp
  let eth := beBytes h.dstMac 6 ++ beBytes (Config.srcMac n).toNat 6 ++ tag
  if p.ipv = 4 then
    let hd (c : Nat) : List Byte := [0x45, BitVec.ofNat 8 (p.dscp * 4)] ++ beBytes (20 + udp.length) 2
      ++ beBytes (Config.ipIdent n).toNat 4 ++ [BitVec.ofNat 8 p.ttl, 17] ++ beBytes c 2 ++ ipBytes 4 h.srcIp
      ++ ipBytes 4 h.dstIp
    eth ++ beBytes 0x0800 2 ++ hd (inetSum (hd 0)) ++ udp
  else
    eth ++ beBytes 0x86DD 2 ++ beBytes (6 * 2 ^ 28 + p.dscp * 2 ^ 22) 4 ++ beBytes udp.length 2
      ++ [17, BitVec.ofNat 8 p.ttl] ++ ipBytes 6 h.srcIp ++ ipBytes 6 h.dstIp ++ udp

/-- The headers leg B carries (R351). -/
def TxPar.legB (p : TxPar) : Hdr :=
  { dstMac := p.b.dstMac.getD p.a.dstMac, vid := p.b.vid.getD p.a.vid, pcp := p.b.pcp.getD p.a.pcp,
    srcIp := p.b.srcIp.getD p.a.srcIp, dstIp := p.b.dstIp.getD p.a.dstIp, srcUdp := p.b.srcUdp.getD p.a.srcUdp,
    dstUdp := p.b.dstUdp.getD p.a.dstUdp }

/-- Longest frame of a transmit stream whose payload is n bytes, FCS included (R305, R342). -/
def frameLen (p : TxPar) (n : Nat) : Nat :=
  let vlan (h : Hdr) : Nat := if h.vid.isSome then 4 else 0
  max 64 (14 + max (vlan p.a) (if p.weir then vlan p.legB else 0) + (if p.ipv = 4 then 20 else 40) + 8 + 12 + n + 4)

/-! ## Gates (R326-R329) -/

/-- Rate of a port in Gb/s by SPEED (R304). -/
def gbps (speed : Nat) : Nat := match speed with | 1 => 10 | 2 => 25 | 3 => 50 | 4 => 100 | _ => 0

/-- t_need of a frame of length L in 2^-16 ns, rounded up (R327). -/
def tNeed (len r : Nat) : Nat := ceilDiv (((len + 8) * 8 * 5 + 64 * r) * 65536) (5 * r)

/-- Nanoseconds in units. -/
def nsU (n : Nat) : Nat := n * 65536

/-- Entry of a list of intervals at position x of the cycle: number, mask, time to its end. -/
def entryAt : List (BitVec 8 × Nat) → Nat → Nat → Option (Nat × BitVec 8 × Nat)
  | [], _, _ => none
  | (m, d) :: t, i, x => if x < nsU d then some (i, m, nsU d - x) else entryAt t (i + 1) (x - nsU d)

/-- Entry of a gate list at time t. -/
def Gate.at_ (g : Gate) (t : Nat) : Option (Nat × BitVec 8 × Nat) :=
  entryAt g.entries 0 ((t + nsU g.cycle - g.base % nsU g.cycle) % nsU g.cycle)

/-- The mask open at t and the time until it may change, reading over a pending change (R326-R328). -/
def gateNow (p : Port) (t : Nat) : BitVec 8 × Nat :=
  match p.gatePend with
  | some (g, at_) =>
    if at_ ≤ t then match g.at_ t with | some (_, m, d) => (m, d) | none => (0xFF, 1)
    else match p.gate with
      | none => (0xFF, at_ - t)
      | some o => match o.at_ t with | some (_, m, d) => (m, min d (at_ - t)) | none => (0xFF, at_ - t)
  | none =>
    match p.gate with
    | none => (0xFF, 0)
    | some o => match o.at_ t with | some (_, m, d) => (m, d) | none => (0xFF, 0)

/-- Class c's gate is open from t for need units without a break; n bounds the intervals walked (R327). -/
def openFor (p : Port) (c : Nat) : Nat → Nat → Nat → Bool
  | 0, _, _ => false
  | n + 1, t, need =>
    let (m, d) := gateNow p t
    m.getLsbD c && (d = 0 || need ≤ d || openFor p c n (t + d) (need - d))

/-- The gate test of R327. -/
def gateTest (p : Port) (c len t : Nat) : Bool := openFor p c 512 t (tNeed len (gbps p.cfg.speed))

/-- Longest run of intervals in which class c is open, adjacent open entries counting as one (R329); none = always
open. The list is walked twice, so that a run across the end of the cycle counts whole. -/
def longestOpen (l : List (BitVec 8 × Nat)) (c : Nat) : Option Nat :=
  if l.all fun e => e.1.getLsbD c then none
  else
    let r := (l ++ l).foldl (fun (a : Nat × Nat) e =>
      if e.1.getLsbD c then (a.1 + e.2, max a.2 (a.1 + e.2)) else (0, a.2)) (0, 0)
    some r.2

/-- The gate rules in their order: the first code that fails (R329). Without a link there is no rate and no t_need
(log 49). -/
def gateRules (g : Gate) (maxFrame speed : Nat) : Option Nat :=
  if (g.entries.map (·.2)).sum ≠ g.cycle then some 0x0190
  else if g.entries.isEmpty || decide (256 < g.entries.length)
      || !g.entries.all (fun e => decide (64 ≤ e.2) && decide (e.2 ≤ 1000000000)) then some 0x0191
  else if g.cycle < 1000 ∨ 1000000000 < g.cycle then some 0x0192
  else if decide (0 < gbps speed) && !(nums 8).all (fun c => match longestOpen g.entries c with
      | none => true
      | some n => decide (tNeed maxFrame (gbps speed) ≤ nsU n)) then some 0x0193
  else none

end Sys2Proof.Machine
end

