-- ==== Sys2Proof/Machine/QuayRx.lean ====
section
/-! DEFINITION. The receive side of the Quay ports: MAC, classifier, release and receive rings (chapter 10). -/

namespace Sys2Proof.Machine

/-- Port n exists, is not fenced and runs (R303, R490). -/
def portRuns (s : State) (n : Nat) : Bool := decide (n < 4) && !s.dev.inReset && !s.dev.quayFenced.contains n

/-! ## The receive MAC (R305-R307, R311, R330, R331) -/

/-- FCS of a frame is right. -/
def fcsOk (l : List Byte) : Bool := leBytes (crc32 (l.take (l.length - 4))).toNat 4 == l.drop (l.length - 4)

/-- The destination is the broadcast address. -/
def isBcast (l : List Byte) : Bool := be l 0 6 == 2 ^ 48 - 1
/-- The destination is a group address. -/
def isGroup (l : List Byte) : Bool := bitOf (be l 0 1) 0

/-- The address filters (R311, R312). -/
def rxAccept (c : PortCfg) (l : List Byte) : Bool :=
  c.promisc || (isBcast l && c.bcast) || c.uc.any (fun e => e.2 == be l 0 6 + 2 ^ 48)
    || (isGroup l && (c.mcAll || c.bins.contains (hashBin (l.take 6))))

/-- A PAUSE frame with quanta q, whose end is at instant t (R330). -/
def pauseFrame (s : State) (n q t : Nat) : State :=
  let p := portOf s n
  let s := portCount s n 10 1
  if !p.cfg.pauseRx then s
  else if q = 0 then modPort s n fun p => { p with paused := none }
  else
    let s := if p.paused.isNone then portCount s n 23 1 else s
    modPort s n fun p => { p with paused := some (t + ceilDiv (q * 512 * 65536) (max 1 (gbps p.cfg.speed))) }

/-- The bytes of a list as flume words of eight, zero-padded, n words to an item. -/
def toItems (n : Nat) : Nat → List Byte → List FItem
  | 0, _ => []
  | k + 1, l =>
    { words := (nums n).map fun i => ⟨BitVec.ofNat 64 (ofLe ((l.drop (8 * i)).take 8)), false⟩, side := 0 }
      :: toItems n k (l.drop (8 * n))

/-- Items a frame takes in flume 384 + n: a header and its data (R306). -/
def frameItems (l : List Byte) : List FItem :=
  toItems 8 1 (leBytes l.length 8) ++ toItems 8 (ceilDiv l.length 64) l

/-- Counts of a frame that passes step 3 (R340). -/
def rxCounts (s : State) (n : Nat) (l : List Byte) : State :=
  let s := portCount (portCount s n 0 1) n 1 l.length
  if isBcast l then portCount s n 8 1 else if isGroup l then portCount s n 9 1 else s

/-- FRAME_RECEIVE (R305-R307, R311, R330, R331): a frame of bytes l, FCS included, ends dt units from now; its delimiter
crossed at raw stamp raw of domain dom, and corr and uncorr FEC code words were corrected or uncorrectable meanwhile. -/
def execFrameReceive (n : Nat) (l : List Byte) (raw : Nat) (dom : Bool) (dt corr uncorr : Nat) (s : State) : Out :=
  let c := (portOf s n).cfg
  if !portRuns s n || !c.rxEn || !c.link then .next s
  else
    let s := portCount (portCount s n 4 corr) n 5 uncorr
    if !fcsOk l then fin (portCount s n 2 1)
    else if l.length < 64 ∨ c.maxFrame < l.length then fin (portCount s n 3 1)
    else if be l 12 2 = 0x8808 ∧ be l 14 2 = 0x0001 then fin (pauseFrame s n (be l 16 2) (s.tb.sel + dt))
    else if be l 12 2 = 0x8808 ∧ be l 14 2 = 0x0101 then fin (portCount s n 11 1)
    else if !rxAccept c l then fin (portCount s n 6 1)
    else
      let s := rxCounts s n l
      let i := 384 + n
      match (flumeOf s i).pushUnit (flumeB i) (frameItems l) with
      | none => fin (portCount s n 7 1)
      | some f =>
        let x : RxFrame := { bytes := l, stamp := timeAdd raw (-(c.corrRx.toNat * 256 : Nat)), dom := b2n dom }
        fin (modPort (setFlume s i f) n fun p => { p with rxq := p.rxq ++ [x] })

/-! ## The receive classifier (R308-R310, R313-R319) -/

/-- Pop k items of flume i: the items as delivered and the state after; none unless all stand there. -/
def popItems (s : State) (i : Nat) (ecc : Nat → List Ecc) : Nat → Option (List FItem × State)
  | 0 => some ([], s)
  | k + 1 =>
    match popItems s i ecc k with
    | none => none
    | some (xs, s) =>
      match popFlume s i (ecc k) with
      | none => none
      | some (x, s) => some (xs ++ [x], s)

/-- Receive ring k of port n takes wire frames: enabled, in WIRE mode (R318). -/
def wireRing (s : State) (g : Nat) : Bool := (dmaOf s g).en && !(dmaOf s g).channel

/-- Store a frame for its consumers; one with none is released at once (R310). -/
def storeFrame (s : State) (n : Nat) (f : Stored_) : State :=
  if f.takers.isEmpty then s else modPort s n fun p => { p with store := p.store ++ [f] }

/-- Request DMA engine 2n for host ring k, or discard the frame (R318). -/
def toHost (s : State) (n k : Nat) (f : Stored_) : State :=
  let g := n * 32 + k
  if !wireRing s g then portCount s n 16 1
  else
    let s := storeFrame s n { f with takers := [4] }
    modPort s n fun p => { p with dma := p.dma ++ [{ ring := g, frame := some f.id, data := [] }] }

/-- The RTP packet of a stored frame, as a manager takes it (R216, R306). -/
def rtpPkt (n : Nat) (f : Stored_) (p : Parsed) : Option Pkt :=
  match p.udp with
  | none => none
  | some (_, _, m) =>
    (rtpOf m).map fun r =>
      { seq := r.seq, ts := r.ts, ssrc := r.ssrc, marker := r.marker, pt := r.pt, rxTime := f.frame.stamp / 65536,
        legB := n % 2 == 1, frame := some (n, f.id), poison := f.poison,
        head := r.head, payload := r.payload, pad := r.pad }

/-- A copy joins the arrivals of its Weir unit; one of leg A goes before the leg B copy of its sequence that arrived at the same
instant (R350; log 186). -/
def weirQueue (l : List WeirIn) (a : WeirIn) : List WeirIn :=
  let twin (b : WeirIn) : Bool :=
    b.stream == a.stream && b.pkt.seq == a.pkt.seq && b.pkt.rxTime == a.pkt.rxTime && b.pkt.legB && !a.pkt.legB
  l.takeWhile (fun b => !twin b) ++ a :: l.dropWhile fun b => !twin b

/-- Follow a flow entry's action (R318, R319, R321). A datagram of a media stream that is no RTP packet is counted and
goes no further (log 50). -/
def flowAct (s : State) (n : Nat) (f : Stored_) (p : Parsed) (e : FlowEntry) : State :=
  let f := { f with tag := e.tag, hit := true }
  match e.act with
  | .drop => portCount s n 15 1
  | .host k => toHost (portCount s n 14 1) n k f
  | .stream x =>
    let s := portCount s n 13 1
    match rtpPkt n f p with
    | none => s
    | some q => handOn (storeFrame s n { f with takers := takersOf s x }) x { q with legB := false }
  | .weir x =>
    let s := portCount s n 13 1
    match rtpPkt n f p with
    | none => s
    | some q =>
      let s := storeFrame s n { f with takers := [5] }
      let u := (rxsOf s x).p.port
      modNet s fun t => { t with weirIn := tabSet [] t.weirIn u (weirQueue (tabGet [] t.weirIn u) { stream := x, pkt := q }) }

/-- The Timebase takes a PTP message through flume 392 + n (R313). -/
def toTimebase (s : State) (n : Nat) (f : Stored_) (msg : List Byte) : State :=
  let s := storeFrame (portCount s n 12 1) n { f with ptp := true, takers := [6] }
  let s := modPort s n fun p => { p with ptpq := p.ptpq ++ [f.id] }
  pushFlume s (392 + n) (toItems 4 (ceilDiv msg.length 32) msg)

/-- A poisoned flow word: the frame is dropped and counted, the alarm raised, the entry rewritten later (R319, R343). -/
def flowUe (s : State) (n b i : Nat) : State :=
  let s := portCount s n 18 1
  match flowAt s b i with
  | some (e, x) => alarm (setFlow s e (some { x with poison := true })) 0x38 (objNo 0x0C e) 0 (siteStage (180 + b) 0 i)
  | none => alarm s 0x38 0 0 (siteStage (180 + b) 0 i)

/-- What the classifier does with a frame it has stored: a PTP message, a flow entry's action, or the default ring
(R313). ue: the candidate the lookup finds poisoned. -/
def classify (s : State) (n : Nat) (f : Stored_) (ue : Option (Nat × Nat)) : State :=
  let p := parseFrame (f.frame.bytes.take (f.frame.bytes.length - 4))
  match p.ptp with
  | some m => toTimebase s n f m
  | none =>
    match flowLookup s n p ue with
    | .hit _ e => flowAct s n f p e
    | .bad b i => flowUe s n b i
    | .miss => toHost s n (portOf s n).cfg.defRing f

/-- Words of a stored frame's cells are written afresh: those written whole are good again (R43). -/
def cleanCells (s : State) (n : Nat) (f : Stored_) : State :=
  let ws := ((frameSpans s n f).map fun p => fullWords (p.1 - 0x1000000000) p.2).flatten
  modFab s fun x => { x with nevePoison := x.nevePoison.filter fun w => !ws.contains w }

/-- FRAME_CLASSIFY (R306, R309, R310, R313-R319): the head frame of flume 384 + n is popped once the store has its cells and the
frame before it has been posted, stored and sent on; a word delivered poisoned poisons the stored frame. -/
def execFrameClassify (n : Nat) (ecc : List (List Ecc)) (ue : Option (Nat × Nat)) (s : State) : Out :=
  let p := portOf s n
  match p.rxq with
  | [] => .next s
  | x :: t =>
    let cells := cellsOf x.bytes.length
    if !portRuns s n || decide (rxCells s < rxUsed p + cells) || postHeld s n then .next s
    else
      match popItems s (384 + n) (fun k => ecc.getD k []) (frameItems x.bytes).length with
      | none => .next s
      | some (items, s) =>
        let bad := items.any fun i => i.words.any (·.poison)
        let f : Stored_ :=
          { id := p.nextId, frame := x, cells := cells, cellAt := takeCells p cells, takers := [], tag := 0, hit := false,
            ptp := false, poison := bad }
        fin (classify (cleanCells (modPort s n fun p => { p with rxq := t, nextId := p.nextId + 1 }) n f) n f ue)

/-- FLOW_ENTRY_REWRITE (R319): the Icehouse rewrites entry e from its own copy. -/
def execFlowEntryRewrite (e : Nat) (s : State) : Out :=
  match flowOf s e with
  | some x => if x.poison && s.dev.iceRuns then fin (setFlow s e (some { x with poison := false })) else .next s
  | none => .next s

/-- FRAME_RELEASE (R310): consumer t of frame id has its copy; the last one releases the cells. -/
def execFrameRelease (n id t : Nat) (s : State) : Out :=
  match storedOf s n id with
  | none => .next s
  | some f =>
    if !f.takers.contains t || !takerDone s n id t then .next s
    else
      let rest := f.takers.erase t
      if rest.isEmpty then fin (modPort s n fun p => { p with store := p.store.filter fun x => x.id != id })
      else fin (modStored s n id fun x => { x with takers := rest })

/-! ## Receive rings (R332-R336, R339) -/

/-- Buffer bytes of BUFSZ (R333). -/
def bufBytes (b : Nat) : Nat := match b with | 0 => 2048 | 1 => 4096 | _ => 9216
/-- Descriptors of a ring (R332). -/
def DmaRing.size (r : DmaRing) : Nat := 2 ^ r.log2
/-- The available count (R332). -/
def DmaRing.avail (r : DmaRing) : Nat := (r.tail + r.size - r.head) % r.size
/-- Bus address of descriptor k from HEAD on. -/
def DmaRing.desc (r : DmaRing) (k : Nat) : Nat := r.base.toNat + 32 * ((r.head + k) % r.size)

/-- Write bytes to host memory. -/
def hostWrite (s : State) (a : Nat) (l : List Byte) : State := { s with hostMem := writeBytes s.hostMem a l }

/-- Bytes [31:16] of the receive descriptor k of n (R333). -/
def rxDesc (f : Stored_) (stamped : Bool) (len bsz k n : Nat) : List Byte :=
  let vlan := !(parseFrame f.frame.bytes).vids.isEmpty
  let flags := b2n (k == 0) + 2 * b2n (k + 1 == n) + 4 * b2n stamped + 8 * f.frame.dom + 16 * b2n (stamped && vlan)
    + 32 * b2n f.ptp + 64 * b2n f.hit
  let ns := f.frame.stamp / 65536
  leBytes (if k + 1 = n then len - k * bsz else bsz) 2 ++ leBytes (if k = 0 then len else 0) 2 ++ leBytes flags 1
    ++ leBytes 0 1 ++ leBytes f.tag 2 ++ leBytes (ns % 1000000000) 4 ++ leBytes (ns / 1000000000) 4

/-- Buffers written up to the first unowned descriptor, n of them (R334, R336). -/
def rxBuffers (s : State) (bsz : Nat) : Nat → List (Bool × Nat) → List Byte → State
  | 0, _, _ => s
  | _, [], _ => s
  | n + 1, (own, a) :: t, l => if own then rxBuffers (hostWrite s a (l.take bsz)) bsz n t (l.drop bsz) else s

/-- Write-backs: the descriptors after the first, then the first (R334). -/
def rxBack (s : State) (r : DmaRing) (f : Stored_) (stamped : Bool) (len n : Nat) : State :=
  let put (s : State) (k : Nat) : State := hostWrite s (r.desc k + 16) (rxDesc f stamped len (bufBytes r.bufsz) k n)
  put ((numsFrom 1 (n - 1)).foldl put s) 0

/-- Place data in ring g (R334-R336): reserved, written, written back, HEAD past the frame, the vector raised. -/
def rxPlace (s : State) (g : Nat) (f : Stored_) (stamped : Bool) (data : List Byte) (descs : List (Bool × Nat)) :
    State :=
  let r := dmaOf s g
  let n := max 1 (ceilDiv data.length (bufBytes r.bufsz))
  if r.avail < n then modDma s g fun r => { r with dropNobuf := sat64 (r.dropNobuf + 1), nobuf := true }
  else
    let s := rxBuffers s (bufBytes r.bufsz) n descs data
    if !((nums n).all fun k => (descs.getD k (false, 0)).1) then
      modDma s g fun r => { r with dropDesc := sat64 (r.dropDesc + 1), race := true }
    else
      let s := rxBack s r f stamped data.length n
      let s := modDma s g fun r => { r with head := (r.head + n) % r.size, frames := sat64 (r.frames + 1) }
      raiseMod s (.dmaRing g) r.vector r.modUs

/-- A channel's packet as a frame without stamp, tag or match (R339). -/
def bareFrame (l : List Byte) : Stored_ :=
  { id := 0, frame := { bytes := l, stamp := 0, dom := 0 }, cells := 0, cellAt := [], takers := [], tag := 0, hit := false,
    ptp := false, poison := false }

end Sys2Proof.Machine
end

