-- ==== Sys2Proof/Machine/StreamOps.lean ====
section
/-! DEFINITION. Packets of transmit streams, the two-step queue and one-step insertion (chapters 10, 11, 12). -/

namespace Sys2Proof.Machine

/-! ## Transmit streams (R77, R320, R322, R351, R357) -/

/-- The RTP header of the next packet of stream n whose first sample falls at 48 kHz tick k (R77, R320, R357). -/
def rtpHeader (x : TxStream) (k : Nat) (marker : Bool) (pt : Nat) : List Byte :=
  [0x80, BitVec.ofNat 8 (128 * b2n marker + pt)] ++ beBytes x.seq 2
    ++ beBytes (k * x.p.clock / 48000 + x.p.tsOffset.toNat) 4 ++ beBytes x.p.ssrc.toNat 4

/-- A frame of transmit stream n for port p with leg headers h, from a producer's domain. -/
def mediaFrame (s : State) (n p : Nat) (h : Hdr) (rtp : List Byte) (prot : Bool) (prod : Nat) : TxFrame :=
  let x := (txsOf s n).p
  { mkTx x.cls (streamFrame p x h rtp) with prot := if prot then some n else none, prod := some prod }

/-- The sequence number moves on: the packet has been given its number (R357). -/
def txNext (s : State) (n : Nat) : State :=
  modTxs s n fun x => { x with seq := (x.seq + 1) % 65536, sent := sat64 (x.sent + 1) }

/-- A packet of stream n is queued: on its port, or at the Weir unit to be duplicated (R323, R345, R351). c is the channel
it comes from, prod the domain that writes the frame. -/
def sendRtp (s : State) (n c k prod : Nat) (marker : Bool) (pt : Nat) (payload : List Byte) : State :=
  let x := txsOf s n
  let hd := rtpHeader x k marker pt
  let s := txNext s n
  if x.p.weir then
    let o : WeirOut := { stream := n, chan := c, rtp := hd, payload := payload }
    modNet s fun t => { t with weirOut := tabMod [] t.weirOut x.p.port (· ++ [o]) }
  else txPut s x.p.port (mediaFrame s n x.p.port x.p.a (hd ++ payload) false prod)

/-- Packet time of a stream with several channels, in 48 kHz ticks: its first member's. -/
def asmTicks (s : State) (x : TxStream) : Nat := (chanOf s (x.p.map.headD 0)).core.ptime

/-- Interleave the samples of the members, n of them, w bytes each; a member that has not written gives zeros (R322). -/
def interleave (w n : Nat) (ms : List (List Byte)) : List Byte :=
  ((nums n).map fun i => (ms.map fun l => ((l.drop (w * i)).take w ++ List.replicate w 0).take w).flatten).flatten

/-- The domain that writes an assembled packet: the stream's transmit classifier (R25, R322; log 184). -/
def asmDomain (x : TxStream) : Nat := 173 + 2 * x.p.port

/-- Send the assembly area of packet time k: late members are counted, packets counted for those that wrote (R322). -/
def asmSend (s : State) (n k : Nat) : State :=
  let x := txsOf s n
  let got := (x.asm.find? fun a => a.1 == k).elim [] (·.2)
  let ms := x.p.map.map fun c => (got.find? fun g => g.1 == c).elim [] (·.2)
  let c0 := x.p.map.headD 0
  let ch := chanOf s c0
  let body := interleave (sampleBytes ch.core.codec) (ch.core.ptime * ch.core.rate / 48) ms
  let late := x.p.map.filter fun c => !got.any fun g => g.1 == c
  let s := modTxs s n fun x => { x with asm := x.asm.filter fun a => a.1 != k, asmNext := some (k + asmTicks s x),
                                        late := sat64 (x.late + late.length) }
  let s := got.foldl (fun s g => chanCount s g.1 1) s
  sendRtp s n c0 k (asmDomain x) false x.p.pt body

/-- Complete packet times leave in order (R322); m bounds them. -/
def asmDrain (s : State) (n : Nat) : Nat → State
  | 0 => s
  | m + 1 =>
    let x := txsOf s n
    match x.asmNext with
    | none => s
    | some k =>
      if x.asm.any fun a => a.1 == k && x.p.map.all fun c => a.2.any fun g => g.1 == c then
        asmDrain (asmSend s n k) n m
      else s

/-- Member c of stream n writes its samples for the packet time at tick k (R322). -/
def asmWrite (s : State) (n c k : Nat) (samples : List Byte) : State :=
  let x := txsOf s n
  let gone := match x.asmNext with | some a => decide (k < a) | none => false
  if gone then s
  else
    let old := (x.asm.find? fun a => a.1 == k).elim [] (·.2)
    let area := (k, old.filter (fun g => g.1 != c) ++ [(c, samples)])
    let s := modTxs s n fun x => { x with asm := x.asm.filter (fun a => a.1 != k) ++ [area],
                                          asmNext := some (x.asmNext.getD k) }
    asmDrain s n (x.asm.length + 1)

/-- Channel c's packet for its transmit stream n (R322, R111): its own packet, or its part of a shared one. -/
def txPacket (s : State) (n c k : Nat) (marker : Bool) (pt : Nat) (payload : List Byte) : State :=
  let x := txsOf s n
  if x.st != .enabled then s
  else if 1 < x.p.nch then asmWrite s n c k payload
  else sendRtp (chanCount s c 1) n c k ((chanOf s c).floe.getD 0) marker pt payload

/-- A packet whose Rime request failed is not sent, and counted by its status (R423); its number is spent (log 51). -/
def txFailed (s : State) (n status : Nat) : State :=
  modTxs s n fun x => { x with fails := bump x.fails status }

/-! ## The two-step queue (R390-R394) -/

/-- Port n's two-step queue. -/
def tsqOf (s : State) (n : Nat) : Tsq := tabGet Tsq.reset s.tb.tsq n
/-- Change it. -/
def modTsq (s : State) (n : Nat) (f : Tsq → Tsq) : State :=
  { s with tb := { s.tb with tsq := tabMod Tsq.reset s.tb.tsq n f } }
/-- Entries of a queue (R390, R393). -/
def tsqSize (s : State) : Nat := if s.dev.compatQ48 then 16 else 64

/-- Queue an entry (R390, R392, R393, R391, R394). ue: it reads poisoned. -/
def tsqPut (s : State) (n dom tsId stamp : Nat) (ue : Bool) : State :=
  let q := tsqOf s n
  let s := if ue then alarm (modTsq s n fun q => { q with ue := sat32 (q.ue + 1) }) 0x49 0 0 (siteStage 230 (2 + n) q.entries.length)
    else s
  let full := decide (tsqSize s ≤ q.entries.length)
  if full && !s.dev.compatQ48 then
    modTsq s n fun q => { q with ovf := sat32 (q.ovf + 1), lost := q.lost + 1 }
  else
    let e : TsqEntry :=
      { gap := decide (0 < q.lost), lost := min q.lost 255, domain := dom, ue := ue, seq := q.nextSeq, tsId := tsId,
        time := stamp }
    let s := modTsq s n fun q => { q with nextSeq := (q.nextSeq + 1) % 4, lost := 0 }
    if full then
      modTsq s n fun q =>
        let gone := min 255 ((q.entries.head?.elim 0 (·.lost)) + 1)
        let rest := match q.entries.drop 1 ++ [e] with
          | h :: t => { h with gap := true, lost := gone } :: t
          | [] => []
        { q with entries := rest, ovf := sat32 (q.ovf + 1) }
    else
      let s := modTsq s n fun q => { q with entries := q.entries ++ [e] }
      if q.entries.isEmpty then raiseVec s q.vector else s

/-! ## One-step insertion and checksums (R337, R395, R396) -/

/-- Replace bytes of l from offset o on. -/
def putAt (l : List Byte) (o : Nat) (v : List Byte) : List Byte := l.take o ++ v ++ l.drop (o + v.length)

/-- Offset of the IP header of a frame (no FCS). -/
def ipOffset (l : List Byte) : Nat := 14 + 4 * (parseFrame l).vids.length
/-- Offset of the UDP header of a frame that has one. -/
def udpOffset (l : List Byte) : Option Nat :=
  let p := parseFrame l
  let o := ipOffset l
  match p.udp with
  | none => none
  | some _ => some (if p.ipv = 4 then o + be l o 1 % 16 * 4 else o + 40)

/-- Insert the UDP checksum of a datagram over IPv4 or IPv6 (R337, CSUM). -/
def insertCsum (l : List Byte) : List Byte :=
  match udpOffset l, (parseFrame l).udp with
  | some o, some (sp, dp, m) =>
    let p := parseFrame l
    putAt l o ((udpBytes p.ipv p.srcIp p.dstIp sp dp true m).take 8)
  | _, _ => l

/-- The incremental update of RFC 1624 for bytes changed from old to new (R396; log 56). -/
def rfc1624 (c : Nat) (old new : List Byte) : Nat :=
  let n := 65535 - sum16 (beBytes (65535 - c) 2 ++ old.map (~~~ ·) ++ new)
  if n = 0 then 65535 else n

/-- A PTP message's offset in a frame that carries one (R313). -/
def ptpOffset (l : List Byte) : Option Nat :=
  match (parseFrame l).ptp with
  | none => none
  | some _ => match udpOffset l with | some o => some (o + 8) | none => some (ipOffset l)

/-- The stamp written into a Sync or Delay_Req: originTimestamp, and the fraction added to correctionField (R395,
R396). -/
def oneStep (l : List Byte) (stamp : Nat) : Option (List Byte) :=
  match ptpOffset l with
  | none => none
  | some o =>
    let ty := be l o 1 % 16
    if ty ≠ 0 ∧ ty ≠ 1 then none
    else
      let ns := stamp / 65536
      let corr := beBytes (be l (o + 8) 8 + stamp % 65536) 8
      let org := beBytes (ns / 1000000000) 6 ++ beBytes (ns % 1000000000) 4
      let l' := putAt (putAt l (o + 8) corr) (o + 34) org
      match udpOffset l with
      | none => some l'
      | some u =>
        let c := be l (u + 6) 2
        if c = 0 && (parseFrame l).ipv == 4 then some l'
        else
          let old := (l.drop (o + 8)).take 8 ++ (l.drop (o + 34)).take 10
          some (putAt l' (u + 6) (beBytes (rfc1624 c old (corr ++ org)) 2))

end Sys2Proof.Machine
end

