-- ==== Sys2Proof/Machine/QuayTx.lean ====
section
/-! DEFINITION. The transmit side of the Quay ports: rings, lanes, gates and departure; link events (chapter 10). -/

namespace Sys2Proof.Machine

/-! ## Transmit rings (R337-R339) -/

/-- FIRST and LAST of a descriptor. -/
def TxDesc.first (d : TxDesc) : Bool := d.flags.getLsbD 0
def TxDesc.last (d : TxDesc) : Bool := d.flags.getLsbD 1

/-- The descriptors of the next frame, up to the one marked LAST, and what ends them: 0 LAST found, 1 an unowned one,
2 none available yet. -/
def txRun : List TxDesc → List TxDesc × Nat
  | [] => ([], 2)
  | d :: t =>
    if !d.own then ([], 1)
    else if d.last then ([d], 0)
    else let r := txRun t
         (d :: r.1, r.2)

/-- Write back bytes [23:20] of descriptor k from HEAD on (R337): OWN cleared, ERR where status is not 0. -/
def txBack (s : State) (r : DmaRing) (ds : List TxDesc) (status k : Nat) : State :=
  let fl := (ds[k]?).elim 0 (·.flags)
  hostWrite s (r.desc k + 20) ([fl, BitVec.ofNat 8 (b2n (status != 0))] ++ leBytes status 2)

/-- Write back every descriptor of a frame, the first one last, and move HEAD past them (R337, R338). -/
def txDone (s : State) (g : Nat) (ds : List TxDesc) (status : Nat) : State :=
  let r := dmaOf s g
  let s := (numsFrom 1 (ds.length - 1)).foldl (fun s k => txBack s r ds status k) s
  modDma (txBack s r ds status 0) g fun r => { r with head := (r.head + ds.length) % r.size }

/-- The live channel whose receive source is transmit ring k of port n (R339). -/
def ringChan (s : State) (n k : Nat) : Option Nat :=
  (s.media.chans.find? fun c => c.2.core.rxSrc == .host n k && c.2.st.live).map (·.1)

/-- A descriptor of a CHANNEL-mode ring: its RTP packet goes to the channel's Basin, stamped with the fetch time; bytes
that are no RTP packet go no further (R339; log 55). -/
def bareTx (s : State) (c : Nat) (l : List Byte) : State :=
  match rtpOf l with
  | none => s
  | some r =>
    let p : Pkt :=
      { seq := r.seq, ts := r.ts, ssrc := r.ssrc, marker := r.marker, pt := r.pt, rxTime := nowNs s, legB := false,
        frame := none, poison := false, head := r.head, payload := r.payload, pad := r.pad }
    postArr s [(mgrOf s c, [(c, p.clear s c)])]

/-- The host frame of a run of descriptors in ring r (R323, R325, R337). -/
def hostFrame (r : DmaRing) (ds : List TxDesc) : TxFrame :=
  let l := (ds.map fun d => fitTo d.len d.data).flatten
  let fl := (ds.head?.elim 0 (·.flags))
  { mkTx r.cls l with tsReq := fl.getLsbD 2, oneStep := fl.getLsbD 3, csum := fl.getLsbD 4,
                      tsId := ds.head?.elim 0 (·.tsId) }

/-- Accept a frame, or write it back with its error (R337, R338); a channel's packet waits for its manager (R198). -/
def txTake (s : State) (g : Nat) (ds : List TxDesc) : Out :=
  let r := dmaOf s g
  let n := g / 32
  let len := (ds.map (·.len)).sum
  let order := !((ds.head?.elim false (·.first)) && (ds.drop 1).all (fun d => !d.first))
    || (r.channel && decide (1 < ds.length))
  let bad := ds.any (fun d => d.len == 0 || decide (9216 < d.len))
    || (!r.channel && decide ((portOf s n).cfg.maxFrame - 4 < len))
  let err (st : Nat) : Out :=
    fin (modDma (txDone s g ds st) g fun r => { r with dropDesc := sat64 (r.dropDesc + 1) })
  let good (s : State) : Out :=
    fin (modDma (txDone s g ds 0) g fun r => { r with frames := sat64 (r.frames + 1) })
  if order then err 3
  else if bad then err 1
  else if r.channel then
    match ringChan s n (g % 16) with
    | none => .next s
    | some c => if mgrFull s (mgrOf s c) then .next s else good (bareTx s c ((ds.map fun d => fitTo d.len d.data).flatten))
  else
    let f := hostFrame r ds
    if txRoom s n f.cls f.cells && !(portOf s n).txHeld.any (fun x => x.cls == f.cls) then good (txQueue s n f)
    else .next s

/-- TX_DESCRIPTOR_FETCH (R324, R337-R339): DMA engine 2n + 1 reads ring g's descriptors from HEAD on, as ds gives them.
Host accesses wait under R452; a frame waits for its LAST descriptor and for room in the store. -/
def execTxDescriptorFetch (g : Nat) (ds : List TxDesc) (s : State) : Out :=
  let r := dmaOf s g
  if !portRuns s (g / 32) || g / 16 % 2 = 0 || !hostOk s || !r.en then .next s
  else
    match txRun (ds.take r.avail) with
    | ([], _) => .next s
    | (run, 0) => txTake s g run
    | (run, 1) => fin (modDma (txDone s g run 2) g fun r => { r with race := true })
    | _ => .next s

/-! ## Lanes and departure (R323-R327, R354) -/

/-- Items pass through flume i whole, each word checked as ecc gives (R323). -/
def passItems (s : State) (i : Nat) (ecc : Nat → List Ecc) : Nat → List FItem → State
  | _, [] => s
  | k, x :: t =>
    let f := (flumeOf s i).push (flumeB i) [x]
    let s := setFlume s i (({ f with rSeen := f.rptr } : Flume).emptyClear (flumeB i))
    let s := match popFlume s i (ecc k) with | some (_, s) => s | none => s
    let f := flumeOf s i
    passItems (setFlume s i { f with rSeen := f.rptr }) i ecc (k + 1) t

/-- TX_LANE_MOVE (R323, R325): the head frame of class c moves through flume 388 + n into its lane, which holds two
frames; its cells are released and held producers go on. -/
def execTxLaneMove (n c : Nat) (ecc : List (List Ecc)) (s : State) : Out :=
  let p := portOf s n
  match tabGet [] p.txq c with
  | [] => .next s
  | f :: t =>
    if !portRuns s n || decide (2 ≤ (tabGet [] p.lanes c).length) then .next s
    else
      let s := passItems s (388 + n) (fun k => ecc.getD k []) 0 (frameItems f.bytes)
      let s := modPort s n fun p =>
        { p with txq := tabSet [] p.txq c t, lanes := tabSet [] p.lanes c (tabGet [] p.lanes c ++ [f]) }
      fin (txAdmit s n [] (portOf s n).txHeld)

/-- The device may send protected frames: outside Tandem always, in Tandem while it is alive (R354; log 54). -/
def protOk (s : State) : Bool :=
  !s.dev.tandemEn || (s.dev.devState == .service && s.tdm.aliveFresh)

/-- The start opportunity at time t: the class to start, and the classes whose head the gate defers (R323, R327). -/
def startPick (s : State) (p : Port) (t : Nat) : List Nat → Option Nat × List Nat
  | [] => (none, [])
  | c :: cs =>
    match tabGet [] p.lanes c with
    | [] => startPick s p t cs
    | f :: _ =>
      if f.prot.isSome && !protOk s then startPick s p t cs
      else if !p.cfg.gateEn || gateTest p c (f.bytes.length + 4) t then (some c, [])
      else
        let r := startPick s p t cs
        (r.1, c :: r.2)

/-- Deferred heads are counted once each (R327). -/
def gateHold (s : State) (n : Nat) (cs : List Nat) : State :=
  cs.foldl (fun s c =>
    match tabGet [] (portOf s n).lanes c with
    | f :: t =>
      if f.heldOnce then s
      else modPort (portCount s n 22 1) n fun p =>
        { p with lanes := tabSet [] p.lanes c ({ f with heldOnce := true } :: t) }
    | [] => s) s

/-! ## Transmit time-stamps on their way to the Timebase (R61, R68, R390) -/

/-- A stamp in domain dom with the host's identifier, or for the message engine's instance inst, as the item of flume 396 + n; ue: its
entry in the two-step queue reads poisoned (log 176). -/
def stampItem (dom tsId stamp : Nat) (ue : Bool) (inst : Option Nat) : FItem :=
  { words := [⟨BitVec.ofNat 64 stamp, false⟩,
      ⟨BitVec.ofNat 64 (stamp / 2 ^ 64 % 2 ^ 46 + dom * 2 ^ 46 + tsId * 2 ^ 47 + b2n ue * 2 ^ 63), false⟩],
    side := BitVec.ofNat 2 (inst.elim 0 (· + 1)) }

/-- The Timebase reads a stamp of port n: it goes to the instance that waits for it, or into the two-step queue, poisoned if a word of
it is (R380, R390, R391). -/
def stampTake (s : State) (n : Nat) (i : FItem) : State :=
  match i.words with
  | a :: b :: _ =>
    let w := b.data.toNat
    let stamp := a.data.toNat + w % 2 ^ 46 * 2 ^ 64
    match i.side.toNat with
    | 0 => tsqPut s n (w / 2 ^ 46 % 2) (w / 2 ^ 47 % 2 ^ 16) stamp (w.testBit 63 || a.poison || b.poison)
    | x + 1 => if a.poison || b.poison then s else modClk s x fun c => { c with dreqSent := some stamp }
  | _ => s

/-- What the delimiter's crossing does: the stamp leaves for the instance or the two-step queue through flume 396 + n, or enters the
frame, and the frame takes its checksum (R323, R337, R388-R396). stamp is corrected, dom its domain. -/
def depart (s : State) (n dom stamp : Nat) (ue : Bool) (f : TxFrame) : State × TxFrame :=
  let one := (tsqOf s n).oneStep
  let cs (l : List Byte) : List Byte := if f.csum then insertCsum l else l
  let ign (s : State) : State := modTsq s n fun q => { q with flagIgn := sat32 (q.flagIgn + 1) }
  match f.inst with
  | some x =>
    let own := timeAdd stamp (((clkOf s x).time : Int) - (clkOf s dom).time)
    (pushFlume s (396 + n) [stampItem x 0 own false (some x)], f)
  | none =>
    if one then
      let s := if f.tsReq then ign s else s
      if f.oneStep then
        match oneStep (cs f.bytes) stamp with
        | some l => (s, { f with bytes := cs l })
        | none => (modTsq s n fun q => { q with skip := sat32 (q.skip + 1) }, { f with bytes := cs f.bytes })
      else (s, { f with bytes := cs f.bytes })
    else
      let s := if f.oneStep then ign s else s
      (if f.tsReq then pushFlume s (396 + n) [stampItem dom f.tsId stamp ue none] else s, { f with bytes := cs f.bytes })

/-- FRAME_START (R323, R325-R327, R330, R354, R384, R388): a start opportunity dt units from now; raw is the raw stamp of
the frame that starts, in the domain dom; ue: the entry it leaves in the two-step queue reads poisoned. -/
def execFrameStart (n dt raw : Nat) (dom ue : Bool) (s : State) : Out :=
  let p := portOf s n
  let t := s.tb.sel + dt
  let paused := match p.paused with | some e => decide (t < e) | none => false
  if !portRuns s n || !p.cfg.txEn || !p.cfg.link || p.sending.isSome || paused then .next s
  else
    let (pick, held) := startPick s p t (nums 8).reverse
    let s := gateHold s n held
    match pick with
    | none => fin s
    | some c =>
      match tabGet [] (portOf s n).lanes c with
      | [] => fin s
      | f :: rest =>
        let s := modPort s n fun p => { p with lanes := tabSet [] p.lanes c rest }
        let (s, f) := depart s n (b2n dom) (timeAdd raw (p.cfg.corrTx.toNat * 256 : Nat)) ue f
        fin (modPort s n fun p => { p with sending := some f })

/-- FRAME_SENT (R323, R340): the last byte of the frame in progress is sent. -/
def execFrameSent (n : Nat) (s : State) : Out :=
  match (portOf s n).sending with
  | none => .next s
  | some f =>
    let s := portCount (portCount s n 19 1) n 20 (f.bytes.length + 4)
    let s := if (parseFrame f.bytes).ptp.isSome then portCount s n 21 1 else s
    fin (modPort s n fun p => { p with sending := none })

/-- PAUSE_EXPIRE (R330): dt units from now the pause time has run out. -/
def execPauseExpire (n dt : Nat) (s : State) : Out :=
  match (portOf s n).paused with
  | some e => if e ≤ s.tb.sel + dt then fin (modPort s n fun p => { p with paused := none }) else .next s
  | none => .next s

/-- Show the entry and the mask in force at time t (QUAY_GATE_STATUS). -/
def gateShow (p : Port) (t : Nat) : Port :=
  match p.gate with
  | none => p
  | some g => match g.at_ t with | some (i, m, _) => { p with entry := i, open_ := m } | none => p

/-- GATE_INTERVAL_END (R326): dt units from now an interval has ended; the entry of that instant applies. -/
def execGateIntervalEnd (n dt : Nat) (s : State) : Out :=
  if !portRuns s n || !(portOf s n).cfg.gateEn then .next s
  else fin (modPort s n fun p => gateShow p (s.tb.sel + dt))

/-- GATE_LIST_SWITCH (R328): dt units from now the pending list takes effect. -/
def execGateListSwitch (n dt : Nat) (s : State) : Out :=
  match (portOf s n).gatePend with
  | none => .next s
  | some (g, t) =>
    if !portRuns s n || decide (s.tb.sel + dt < t) then .next s
    else fin (modPort s n fun p =>
      gateShow { p with gate := some g, gatePend := none, cfg := { p.cfg with gateEn := true } } (s.tb.sel + dt))

/-- TX_ASSEMBLY_DEADLINE (R322): packet time j + 1 has ended, dt units from now, for the packet stream n has to send
next. -/
def execTxAssemblyDeadline (n dt : Nat) (s : State) : Out :=
  let x := txsOf s n
  match x.asmNext with
  | none => .next s
  | some k =>
    if x.st ≠ .enabled || decide (ticksOf 48000 (s.tb.sel + dt) < k + 2 * asmTicks s x) then .next s
    else fin (asmDrain (asmSend s n k) n (x.asm.length + 1))

/-! ## Links (R303, R304, R385, R386, R499, R500) -/

/-- Default corrections in 2^-8 ns: receive and transmit, by mode 4·speed + FEC (R385). -/
def stdCorr (m : Nat) : Nat × Nat :=
  match m with
  | 4 => (0x3000, 0x2700) | 10 => (0x3D80, 0x3400) | 14 => (0x4A00, 0x3C80) | 18 => (0x5480, 0x4600)
  | 5 => (0x4500, 0x3380) | 9 => (0x4700, 0x3A80) | 8 => (0x2C00, 0x2580) | _ => (0, 0)
/-- The FEC modes of a speed (R304): 0 none, 1 BASE-R, 2 RS. -/
def fecOk (speed fec : Nat) : Bool := (stdCorr (4 * speed + fec)).1 != 0
/-- The corrections in force for a mode (R385, R386). -/
def corrOf (c : PortCfg) (m : Nat) : Nat × Nat := (tabGet none c.corrs m).getD (stdCorr m)

/-- Method bits of MODE: 0 auto-negotiation, 1 module-directed, 2 forced (R491, R499). -/
def negMethod (c : PortCfg) : Nat :=
  match c.neg.media with | 0 => b2n c.module_ | 1 => 0 | 2 => 1 | _ => 2

/-- Receive and transmit are enabled while the link is up in READY, SERVICE or RECOVERY (R303). -/
def linkStates : List DevState := [.ready, .service, .recovery]

/-- LINK_UP (R303, R385, R491, R500): port n's link comes up at a speed and FEC it may use; train: link training was
used. -/
def execLinkUp (n speed fec : Nat) (train : Bool) (s : State) : Out :=
  let c := (portOf s n).cfg
  if !portRuns s n || c.link || !fecOk speed fec || !c.neg.speeds.contains speed || c.given.contains speed then .next s
  else
    let m := 4 * speed + fec
    let en := linkStates.contains s.dev.devState
    let s := modCfg s n fun c =>
      { c with link := true, speed := speed, fec := fec, corrRx := BitVec.ofNat 24 (corrOf c m).1,
               corrTx := BitVec.ofNat 24 (corrOf c m).2, rxEn := en, txEn := en }
    let mode := speed + 8 * fec + 32 * negMethod c + 128 * b2n train
    fin (if c.given.isEmpty then negSet s (2 + n) .full 0 mode else negSet s (2 + n) .degraded 0x0810 mode)

/-- A port's negotiation starts from the top of SPEEDS (R499, R500). -/
def negRestart (s : State) (n : Nat) : State :=
  let s := modCfg s n fun c => { c with link := false, speed := 0, fec := 0, rxEn := false, txEn := false, given := [] }
  negBegin s (2 + n)

/-- LINK_DOWN (R303, R500): the link goes down; RX_EN and TX_EN clear and negotiation restarts. -/
def execLinkDown (n : Nat) (s : State) : Out :=
  if !portRuns s n || !(portOf s n).cfg.link then .next s else fin (negRestart s n)

/-- Speeds still to try, highest first. -/
def speedsLeft (c : PortCfg) : List Nat :=
  ([4, 3, 2, 1]).filter fun v => c.neg.speeds.contains v && !c.given.contains v

/-- ETH_LINK_TIMEOUT (R500): an attempt ended without a link: the highest speed left is given up, and with none left, no
common ability, or a module that cannot be read the result is FAILED. -/
def execEthLinkTimeout (n : Nat) (e : EthEnd) (s : State) : Out :=
  let c := (portOf s n).cfg
  if !portRuns s n || c.link || (negOf s (2 + n)).st != .pending then .next s
  else
    match e with
    | .noCommon => fin (negSet s (2 + n) .failed 0x0811 0)
    | .module_ => fin (negSet s (2 + n) .failed 0x0813 0)
    | .timeout =>
      match speedsLeft c with
      | [] => fin (negSet s (2 + n) .failed 0x0812 0)
      | v :: t =>
        let s := modCfg s n fun c => { c with given := c.given ++ [v] }
        fin (if t.isEmpty then negSet s (2 + n) .failed 0x0812 0 else s)

/-- ETH_NEG_RETRY (R500): a failed port retries the whole cycle. -/
def execEthNegRetry (n : Nat) (s : State) : Out :=
  if !portRuns s n || (negOf s (2 + n)).st != .failed then .next s else fin (negRestart s n)

/-! ## Ring registers (R14, R332, R336, R342) -/

/-- Ring q exists and its registers answer. -/
def ringLive (s : State) (q : Nat) : Bool := decide (q < 128) && barLive s .host

/-- The engine has no frame in progress for ring q (RING_STATUS.IDLE). -/
def ringIdle (s : State) (q : Nat) : Bool := !(portOf s (q / 32)).dma.any fun d => d.ring == q

/-- RING_TAIL_WRITE (R332): discarded at or above the ring size. -/
def execRingTailWrite (q : Nat) (w : Word) (s : State) : Out :=
  let v := w.toNat % 32768
  if !ringLive s q || decide ((dmaOf s q).size ≤ v) then .next s
  else fin (modDma s q fun r => { r with tail := v })

/-- The check EN runs when set: base, LOG2SIZE and BUFSZ; VECTOR has eight bits and the base no low ones (R342). -/
def ringCheck (r : DmaRing) : Bool :=
  r.base.toNat % 4096 == 0 && 6 ≤ r.log2 && r.log2 ≤ 15 && r.bufsz < 3 && r.vector < 256

/-- RING_CFG_EN_WRITE (R11, R342): a write of RING_CFG; MODE, CLASS, VECTOR, BUFSZ and LOG2SIZE are written only while
the ring is stopped. -/
def execRingCfgEnWrite (q : Nat) (w : Word) (s : State) : Out :=
  if !ringLive s q then .next s
  else
    let n := w.toNat
    let stopped := !(dmaOf s q).en && ringIdle s q
    let s := modDma s q fun r => { r with modUs := bitsOf n 15 6 }
    let s := if stopped then modDma s q fun r =>
        { r with channel := bitOf n 30, cls := bitsOf n 26 24, vector := bitsOf n 23 16, bufsz := bitsOf n 5 4,
                 log2 := bitsOf n 3 0 }
      else s
    if !bitOf n 31 then fin (modDma s q fun r => { r with en := false })
    else if (dmaOf s q).en then fin s
    else if ringCheck (dmaOf s q) then fin (modDma s q fun r => { r with en := true, reason := 0 })
    else fin (modDma s q fun r => { r with reason := 0x0199 })

/-- RING_STATUS_WRITE (R11, R336): a 1 clears RACE or NOBUF. -/
def execRingStatusWrite (q : Nat) (w : Word) (s : State) : Out :=
  if !ringLive s q then .next s
  else fin (modDma s q fun r => { r with race := r.race && !w.getLsbD 30, nobuf := r.nobuf && !w.getLsbD 29 })

/-- The three counters of a ring. -/
def DmaRing.count (r : DmaRing) (k : Nat) : Nat :=
  match k with | 0 => r.frames | 1 => r.dropNobuf | _ => r.dropDesc
/-- Clear one. -/
def DmaRing.zero (r : DmaRing) (k : Nat) : DmaRing :=
  match k with
  | 0 => { r with frames := 0 }
  | 1 => { r with dropNobuf := 0 }
  | _ => { r with dropDesc := 0 }

/-- The high half as a register. -/
def hiWord (n : Nat) : Word := BitVec.ofNat 32 (n / 2 ^ 32)

/-- A read of counter k of ring q: the low half latches and clears the pair; the high half reads what was latched (R14). -/
def ringCount (s : State) (q k : Nat) (hi : Bool) : Nat × State :=
  let r := dmaOf s q
  if hi then (hiRead (tabGet none r.hi k) (r.count k / 2 ^ 32), modDma s q fun r => { r with hi := tabSet none r.hi k none })
  else (r.count k % 2 ^ 32, modDma s q fun r => { r.zero k with hi := tabSet none r.hi k (some (hiWord (r.count k))) })

/-- RING_COUNT_READ (R14). -/
def execRingCountRead (q k : Nat) (hi : Bool) (s : State) : Out :=
  if !ringLive s q || decide (3 ≤ k) then fin (returned s 0)
  else
    let (v, s) := ringCount s q k hi
    fin (returned s v)

/-- QUAY_COUNTER_READ (R14, R340): a host read of a half of counter k clears as R14 says; the mirror (mir) reads the
same pair and clears nothing, its latch kept at 32 + k. -/
def execQuayCounterRead (a : Agent) (n k : Nat) (hi mir : Bool) (s : State) : Out :=
  if !barLive s a || decide (4 ≤ n) || decide (24 ≤ k) then fin (returned s 0)
  else
    let p := portOf s n
    let v := tabGet 0 p.ctr k
    let j := if mir then 32 + k else k
    if hi then
      let s := modPort s n fun p => { p with ctrHi := tabSet none p.ctrHi j none }
      fin (returned s ((tabGet none p.ctrHi j).elim (v / 2 ^ 32) (·.toNat)))
    else
      let s := modPort s n fun p =>
        { p with ctrHi := tabSet none p.ctrHi j (some (hiWord v)), ctr := if mir then p.ctr else tabSet 0 p.ctr k 0 }
      fin (returned s (v % 2 ^ 32))

end Sys2Proof.Machine
end

