-- ==== Sys2Proof/Machine/Quay.lean ====
section
/-! DEFINITION. The commands of the Quay ports and the flow table (chapter 10). -/

namespace Sys2Proof.Machine

/-! ## NX_QUAY_SET (R329, R341, R342, R386, R389, R499) -/

/-- Channels that name transmit stream n as their sink. -/
def txMembers (s : State) (n : Nat) : List (Nat × Chan) :=
  s.media.chans.filter fun c => c.2.st != .free && c.2.core.txSink == .stream n

/-- Largest payload of stream n's packets as its channels are defined, authentication tag included (R97, R342). -/
def txBytes (s : State) (n : Nat) : Nat :=
  let one (c : Nat × Chan) : Nat := c.2.core.payload c.2.core.ptime + max (tagBytes s c.2.core.keyTx) (tagBytes s c.2.core.keyTxB)
  max 1 (txsOf s n).p.nch * ((txMembers s n).map one).foldl max 0

/-- Stream n sends on port p. -/
def txUsesPort (x : TxPar) (p : Nat) : Bool := if x.weir then x.port / 2 == p / 2 else x.port == p

/-- Frames of every enabled transmit stream of port p fit in MAX_FRAME (R342). -/
def framesFit (s : State) (p maxFrame : Nat) : Bool :=
  s.net.txs.all fun x => x.2.st != .enabled || !txUsesPort x.2.p p
    || decide (frameLen x.2.p (txBytes s x.1) ≤ maxFrame)

/-- Apply one setting. -/
def PortCfg.quaySet (c : PortCfg) : QuaySet → PortCfg
  | .maxFrame n => { c with maxFrame := n }
  | .pauseRx b => { c with pauseRx := b }
  | .txRes n => { c with txRes := n }
  | .defRing n => { c with defRing := n }
  | .oneStep _ => c
  | .media n => { c with neg := { c.neg with media := n } }
  | .speeds l => { c with neg := { c.neg with speeds := l } }
  | .fecPref n => { c with neg := { c.neg with fec := n } }
  | .corr v f r t =>
    let c := { c with corrs := tabSet none c.corrs (4 * v + f) (some (r, t)) }
    if c.link && c.speed == v && c.fec == f then
      { c with corrRx := BitVec.ofNat 24 r, corrTx := BitVec.ofNat 24 t }
    else c

/-- A value in its range; ranges without a code of their own give 0x0106 (log 22). -/
def QuaySet.inRange : QuaySet → Bool
  | .txRes n => n ≤ 1024
  | .defRing n => n < 16
  | .media n => n < 4
  | .fecPref n => n < 4
  | .speeds l => l.all fun v => decide (1 ≤ v) && decide (v ≤ 4)
  | .corr v f r t => fecOk v f && decide (r < 2 ^ 24) && decide (t < 2 ^ 24)
  | _ => true

/-- A time-stamp correction, which is legal in SERVICE too (R341). -/
def QuaySet.isCorr : QuaySet → Bool
  | .corr _ _ _ _ => true
  | _ => false

/-- The negotiation rules of R499 in their order: the first code that fails (R513). -/
def negRules (n : NegPar) : Option Nat :=
  if n.speeds.isEmpty then some 0x01F0
  else if n.media = 3 ∧ n.speeds.eraseDups.length ≠ 1 then some 0x01F1
  else if n.media = 3 ∧ n.fec = 0 then some 0x01F2
  else if (n.fec = 1 && n.speeds.contains 1) || (decide (2 ≤ n.fec) && n.speeds.any (decide <| 3 ≤ ·)) then some 0x01F3
  else none

/-- The gate lists in force and pending pass R329 for a MAX_FRAME: the first code that fails. -/
def gatesOk (p : Port) (maxFrame : Nat) : Option Nat :=
  let one (g : Gate) : Option Nat := gateRules g maxFrame p.cfg.speed
  match p.gate.bind one with
  | some c => some c
  | none => p.gatePend.bind fun g => one g.1

/-- NX_QUAY_SET: ranges, MAX_FRAME and the gate rules, the negotiation rules, then the settings; changed negotiation
parameters restart the negotiation. -/
def nxQuaySet (l : List QuaySet) (h : NxHdr) (s : State) : NxRes :=
  let n := h.idx
  let p := portOf s n
  let c := l.foldl PortCfg.quaySet p.cfg
  let me := objNo 9 n
  if s.dev.devState ≠ .ready && !l.all QuaySet.isCorr then no 0x0201
  else if !l.all QuaySet.inRange then no 0x0106
  else if c.maxFrame < 1518 ∨ 9600 < c.maxFrame then .refuse 0x0194 me 0
  else if !framesFit s n c.maxFrame then .refuse 0x0194 me 0
  else
    match (if c.maxFrame = p.cfg.maxFrame then none else gatesOk p c.maxFrame) with
    | some code => .refuse code me 0
    | none =>
      match negRules c.neg with
      | some code => .refuse code me 0
      | none =>
        let s := modCfg s n fun _ => c
        let s := l.foldl (fun s x => match x with
          | .oneStep b => modTsq s n fun q => { q with oneStep := b }
          | _ => s) s
        ok (if c.neg = p.cfg.neg then s else negRestart s n)
/-- The catalogue row of NxQuaySet. -/
def spNxQuaySet : NxSpec :=
  { opcode := 0x0701, cls := 9, states := rs }
def execNxQuaySet (b : Nat) (f : Fmt) (l : List QuaySet) (s : State) : Out :=
  runNx spNxQuaySet b f (.nxQuaySet b f l) (nxQuaySet l) s

/-! ## Filters, gates, statistics -/

/-- Apply one filter setting (R311). -/
def PortCfg.filterSet (c : PortCfg) : FilterSet → PortCfg
  | .uc i m => { c with uc := tabSet 0 c.uc i (m.elim 0 (· + 2 ^ 48)) }
  | .bins l => { c with bins := l.eraseDups }
  | .promisc b => { c with promisc := b }
  | .mcAll b => { c with mcAll := b }
  | .bcast b => { c with bcast := b }
/-- In range. -/
def FilterSet.inRange : FilterSet → Bool
  | .uc i m => decide (i < 16) && m.all (· < 2 ^ 48)
  | .bins l => l.all (· < 4096)
  | _ => true

/-- NX_QUAY_FILTER (R311, R312). -/
def nxQuayFilter (l : List FilterSet) (h : NxHdr) (s : State) : NxRes :=
  if !l.all FilterSet.inRange then no 0x0106
  else ok (modCfg s h.idx fun c => l.foldl PortCfg.filterSet c)
/-- The catalogue row of NxQuayFilter. -/
def spNxQuayFilter : NxSpec :=
  { opcode := 0x0702, cls := 9, states := rs }
def execNxQuayFilter (b : Nat) (f : Fmt) (l : List FilterSet) (s : State) : Out :=
  runNx spNxQuayFilter b f (.nxQuayFilter b f l) (nxQuayFilter l) s

/-- The first cycle start of g at least 1 ms after now (R328). -/
def Gate.first (g : Gate) (now : Nat) : Nat :=
  g.base + ceilDiv (now + nsU 1000000 - g.base) (nsU g.cycle) * nsU g.cycle

/-- NX_QUAY_GATE (R328, R329): the new list waits for its first cycle start, in place of any list pending. -/
def nxQuayGate (entries : List (BitVec 8 × Nat)) (cycle base : Nat) (h : NxHdr) (s : State) : NxRes :=
  let g : Gate := { entries := entries, cycle := cycle, base := base }
  let p := portOf s h.idx
  match gateRules g p.cfg.maxFrame p.cfg.speed with
  | some c => .refuse c (objNo 9 h.idx) 0
  | none => ok (modPort s h.idx fun p => { p with gatePend := some (g, g.first s.tb.sel) })
/-- The catalogue row of NxQuayGate. -/
def spNxQuayGate : NxSpec :=
  { opcode := 0x0703, cls := 9, states := rs }
def execNxQuayGate (b : Nat) (f : Fmt) (entries : List (BitVec 8 × Nat)) (cycle base : Nat) (s : State) : Out :=
  runNx spNxQuayGate b f (.nxQuayGate b f entries cycle base)
    (nxQuayGate entries cycle base) s

/-- NX_QUAY_STATS (R340, R611): the 24 counters in their order. -/
def nxQuayStats (h : NxHdr) (s : State) : NxRes :=
  let r := replyOf [(nums 24).map fun k => .ctr (tabGet 0 (portOf s h.idx).ctr k)]
  .done (if h.clear then modPort s h.idx fun p => { p with ctr := [] } else s) r 0
/-- The catalogue row of NxQuayStats. -/
def spNxQuayStats : NxSpec :=
  { opcode := 0x0706, cls := 9, states := rsr, audit := false, counts := true }
def execNxQuayStats (b : Nat) (f : Fmt) (s : State) : Out :=
  runNx spNxQuayStats b f (.nxQuayStats b f)
    nxQuayStats s

/-! ## Flow entries (R315, R316, R318, R342) -/

/-- Key fields are valid: TYPE, PORT, VID, IPV, with unmatched fields zero (R342, 0x0195). -/
def keyValid (t port vid ipv dst udp src ssrc : Nat) : Bool :=
  let ip (a : Nat) : Bool := decide (a < if ipv = 4 then 2 ^ 32 else 2 ^ 128)
  decide (t < 4) && decide (port < 4) && decide (vid ≤ 0x1000) && (ipv == 4 || ipv == 6) && ip dst && ip src
    && decide (udp < 65536) && (t % 2 == 1 || src == 0) && (decide (2 ≤ t) || ssrc == 0)

/-- Actions NX_FLOW_ADD may give (R318). -/
def hostAct : FlowAct → Bool
  | .host k => decide (k < 16)
  | .drop => true
  | _ => false

/-- NX_FLOW_ADD (R316, R318, R342): DETAIL is the entry's number. -/
def nxFlowAdd (t port vid ipv dst udp src : Nat) (ssrc : Word) (act : FlowAct) (tag : Nat) (h : NxHdr) (s : State) :
    NxRes :=
  if !hostAct act || decide (65536 ≤ tag) then no 0x0106
  else if !keyValid t port vid ipv dst udp src ssrc.toNat || port != h.idx then .refuse 0x0195 (objNo 9 h.idx) 0
  else
    match flowInsert s (flowKey t port vid ipv dst udp src ssrc.toNat) act tag with
    | .error c => .refuse c (objNo 9 h.idx) 0
    | .ok (n, s) => .done s [] n
/-- The catalogue row of NxFlowAdd. -/
def spNxFlowAdd : NxSpec :=
  { opcode := 0x0704, cls := 9, states := rs }
def execNxFlowAdd (b : Nat) (f : Fmt) (t port vid ipv dst udp src : Nat) (ssrc : Word) (act : FlowAct) (tag : Nat)
    (s : State) : Out :=
  runNx spNxFlowAdd b f (.nxFlowAdd b f t port vid ipv dst udp src ssrc act tag)
    (nxFlowAdd t port vid ipv dst udp src ssrc act tag) s

/-- NX_FLOW_DEL (R316, R318). -/
def nxFlowDel (h : NxHdr) (s : State) : NxRes := ok (setFlow s h.idx none)
/-- The catalogue row of NxFlowDel. -/
def spNxFlowDel : NxSpec :=
  { opcode := 0x0705, cls := 0x0C, states := rs, legal := fun s k => objState s 0x0C k == 1 }
def execNxFlowDel (b : Nat) (f : Fmt) (s : State) : Out :=
  runNx spNxFlowDel b f (.nxFlowDel b f) nxFlowDel s

end Sys2Proof.Machine
end

