-- ==== Sys2Proof/Machine/Streams.lean ====
section
/-! DEFINITION. The commands of receive and transmit streams (chapters 10, 11). -/

namespace Sys2Proof.Machine

/-! ## Parameters (R320, R347, R351) -/

/-- Apply one receive parameter. -/
def RxPar.set (p : RxPar) : RxSet → RxPar
  | .port n => { p with port := n } | .weir b => { p with weir := b } | .ktype n => { p with ktype := n }
  | .vid n => { p with vid := n } | .ipv n => { p with ipv := n } | .dstIp n => { p with dstIp := n }
  | .dstUdp n => { p with dstUdp := n } | .srcIp n => { p with srcIp := n } | .ssrc w => { p with ssrc := w }
  | .pt n => { p with pt := n } | .clock n => { p with clock := n } | .nch n => { p with nch := n }
  | .map l => { p with map := l } | .tsOffset w => { p with tsOffset := w } | .skew n => { p with skew := n }
  | .wptime n => { p with wptime := n }

/-- In range (R320); key fields, SKEW and WPTIME are judged at enable. -/
def RxSet.inRange : RxSet → Bool
  | .port n => n < 4
  | .pt n => n < 128
  | .clock n => [8000, 16000, 48000, 96000].contains n
  | .nch n => 1 ≤ n && n ≤ 64
  | _ => true

/-- Change a header of leg A. -/
def TxPar.setA (p : TxPar) (f : Hdr → Hdr) : TxPar := { p with a := f p.a }
/-- Change a header of leg B. -/
def TxPar.setB (p : TxPar) (f : HdrB → HdrB) : TxPar := { p with b := f p.b }

/-- Apply one transmit parameter. -/
def TxPar.set (p : TxPar) : TxSet → TxPar
  | .port n => { p with port := n } | .weir b => { p with weir := b } | .ipv n => { p with ipv := n }
  | .dstMac false n => p.setA fun h => { h with dstMac := n }
  | .dstMac true n => p.setB fun h => { h with dstMac := some n }
  | .vid false v => p.setA fun h => { h with vid := v } | .vid true v => p.setB fun h => { h with vid := some v }
  | .pcp false n => p.setA fun h => { h with pcp := n } | .pcp true n => p.setB fun h => { h with pcp := some n }
  | .srcIp false n => p.setA fun h => { h with srcIp := n }
  | .srcIp true n => p.setB fun h => { h with srcIp := some n }
  | .dstIp false n => p.setA fun h => { h with dstIp := n }
  | .dstIp true n => p.setB fun h => { h with dstIp := some n }
  | .srcUdp false n => p.setA fun h => { h with srcUdp := n }
  | .srcUdp true n => p.setB fun h => { h with srcUdp := some n }
  | .dstUdp false n => p.setA fun h => { h with dstUdp := n }
  | .dstUdp true n => p.setB fun h => { h with dstUdp := some n }
  | .dscp n => { p with dscp := n } | .ttl n => { p with ttl := n } | .ssrc w => { p with ssrc := w }
  | .pt n => { p with pt := n } | .clock n => { p with clock := n } | .nch n => { p with nch := n }
  | .map l => { p with map := l } | .cls n => { p with cls := n } | .tsOffset w => { p with tsOffset := w }

/-- In range (R320). -/
def TxSet.inRange : TxSet → Bool
  | .port n => n < 4
  | .ipv n => n == 4 || n == 6
  | .dstMac _ n => n < 2 ^ 48
  | .vid _ v => v.all (· < 4095)
  | .pcp _ n => n < 8
  | .srcIp _ n | .dstIp _ n => n < 2 ^ 128
  | .srcUdp _ n | .dstUdp _ n => n < 65536
  | .dscp n => n < 64
  | .ttl n => 1 ≤ n && n ≤ 255
  | .pt n => n < 128
  | .clock n => [8000, 16000, 48000, 96000].contains n
  | .nch n => 1 ≤ n && n ≤ 64
  | .cls n => n < 8
  | _ => true

/-- Settings name a protected stream (R356). -/
def rxWeir (l : List RxSet) : Bool := l.any fun | .weir b => b | _ => false
/-- Settings name a protected stream. -/
def txWeir (l : List TxSet) : Bool := l.any fun | .weir b => b | _ => false

/-! ## Receive streams -/

/-- NX_RXS_DEFINE (R320, R341). -/
def nxRxsDefine (l : List RxSet) (h : NxHdr) (s : State) : NxRes :=
  if !l.all RxSet.inRange then no 0x0106
  else ok (modRxs s h.idx fun _ => { RxStream.reset with st := .defined, p := l.foldl RxPar.set RxPar.reset })
/-- The catalogue row of NxRxsDefine. -/
def spNxRxsDefine (l : List RxSet) : NxSpec :=
  { opcode := 0x0801, cls := 0x0A, states := rs, legal := fun s k => (rxsOf s k).st == .free,
    prot := fun _ _ => rxWeir l }
def execNxRxsDefine (b : Nat) (f : Fmt) (l : List RxSet) (s : State) : Out :=
  runNx (spNxRxsDefine l) b f (.nxRxsDefine b f l) (nxRxsDefine l) s

/-- NX_RXS_SET (R320, R341). -/
def nxRxsSet (l : List RxSet) (h : NxHdr) (s : State) : NxRes :=
  if !l.all RxSet.inRange then no 0x0106
  else ok (modRxs s h.idx fun x => { x with p := l.foldl RxPar.set x.p })
/-- The catalogue row of NxRxsSet. -/
def spNxRxsSet (l : List RxSet) : NxSpec :=
  { opcode := 0x0802, cls := 0x0A, states := rs, legal := fun s k => (rxsOf s k).st == .defined,
    prot := fun s k => (rxsOf s k).p.weir || rxWeir l }
def execNxRxsSet (b : Nat) (f : Fmt) (l : List RxSet) (s : State) : Out :=
  runNx (spNxRxsSet l) b f (.nxRxsSet b f l) (nxRxsSet l) s

/-- Ports on which a receive stream takes a flow entry (R321, R344). -/
def rxPorts (p : RxPar) : List Nat := if p.weir then [p.port / 2 * 2, p.port / 2 * 2 + 1] else [p.port]
/-- The flow key of a receive stream on a port. -/
def rxKeyOn (p : RxPar) (port : Nat) : List Byte := flowKey p.ktype port p.vid p.ipv p.dstIp p.dstUdp p.srcIp p.ssrc.toNat

/-- MAP holds NCH distinct channels, where NCH is above 1 (R342, 0x0198). -/
def mapOk (nch : Nat) (map : List Nat) : Bool :=
  decide (nch ≤ 1) || (map.length == nch && map.eraseDups.length == nch && map.all (· < 8192))

/-- Bytes of a packet of a stream with several channels, from its members as they are defined (R342, 0x0196). -/
def mapBytes (s : State) (nch : Nat) (map : List Nat) (ticks : Chan → Nat) : Nat :=
  nch * ((map.map fun c => (chanOf s c).core.payload (ticks (chanOf s c))).foldl max 0)

/-- Contexts in use in Weir unit u (R345). -/
def weirUsed (s : State) (u : Nat) : List Nat :=
  (s.net.rxs.filterMap fun x => if x.2.p.port = u then x.2.ctxNo else none)
    ++ s.net.txs.filterMap fun x => if x.2.p.port = u then x.2.ctxNo else none
/-- A free context of unit u. -/
def weirFree (s : State) (u : Nat) : Option Nat := leastFree (weirUsed s u) 4096

/-- WPTIME is a packet time of R96, in 48 kHz ticks. -/
def wptimeOk (t : Nat) : Bool := [6, 12, 16, 48, 192, 480, 960, 1440, 1920, 2400, 2880].contains t

/-- Insert the stream's flow entries on its ports: their numbers, or the refusing code. -/
def insertAll (s : State) (n : Nat) (p : RxPar) : List Nat → Except Nat (List Nat × State)
  | [] => .ok ([], s)
  | q :: t =>
    match flowInsert s (rxKeyOn p q) (if p.weir then .weir n else .stream n) 0 with
    | .error c => .error c
    | .ok (e, s) => match insertAll s n p t with
      | .error c => .error c
      | .ok (es, s) => .ok (e :: es, s)

/-- NX_RXS_ENABLE (R321, R342, R345, R367). -/
def nxRxsEnable (h : NxHdr) (s : State) : NxRes :=
  let n := h.idx
  let p := (rxsOf s n).p
  let me := objNo 0x0A n
  checked
    [(keyValid p.ktype p.port p.vid p.ipv p.dstIp p.dstUdp p.srcIp p.ssrc.toNat, 0x0195, me),
     (decide (p.nch ≤ 1) || decide (mapBytes s p.nch p.map Chan.rxTicks ≤ 8192), 0x0196, me),
     (mapOk p.nch p.map, 0x0198, me), ((rxPorts p).all fun q => (flowFind s (rxKeyOn p q)).isNone, 0x019B, me)]
    (match insertAll s n p (rxPorts p) with
    | .error c => .refuse c me 0
    | .ok (es, t) =>
      checked [(!p.weir || (decide (1 ≤ p.skew) && decide (p.skew ≤ 150) && wptimeOk p.wptime), 0x01A0, me),
               (!p.weir || (weirFree s p.port).isSome, 0x0360, me)]
        (ok (modRxs t n fun x =>
          { x with st := .enabled, flows := es, ctx := { WeirCtx.reset with lastA := s.tb.sel, lastB := s.tb.sel },
                   ctxNo := if p.weir then weirFree s p.port else none })))
/-- The catalogue row of NxRxsEnable. -/
def spNxRxsEnable : NxSpec :=
  { opcode := 0x0803, cls := 0x0A, states := rs, legal := fun s k => (rxsOf s k).st == .defined,
    prot := fun s k => (rxsOf s k).p.weir }
def execNxRxsEnable (b : Nat) (f : Fmt) (s : State) : Out :=
  runNx spNxRxsEnable b f (.nxRxsEnable b f) nxRxsEnable s

/-- The live channel that names receive stream n (R342, 0x019C). -/
def rxNamed (s : State) (n : Nat) : Option Nat :=
  (s.media.chans.find? fun c => c.2.st.live && c.2.core.rxSrc == .stream n).map (·.1)
/-- The live channel that names transmit stream n. -/
def txNamed (s : State) (n : Nat) : Option Nat :=
  (s.media.chans.find? fun c => c.2.st.live && c.2.core.txSink == .stream n).map (·.1)

/-- NX_RXS_DISABLE (R341, R342, R479): its flow entries are deleted and its context freed. -/
def nxRxsDisable (h : NxHdr) (s : State) : NxRes :=
  let n := h.idx
  checked [((rxNamed s n).isNone, 0x019C, objNo 1 ((rxNamed s n).getD 0))]
    (ok (modRxs ((rxsOf s n).flows.foldl (fun s e => setFlow s e none) s) n fun x =>
      { x with st := .defined, flows := [], ctxNo := none, ctx := WeirCtx.reset }))
/-- The catalogue row of NxRxsDisable. -/
def spNxRxsDisable : NxSpec :=
  { opcode := 0x0804, cls := 0x0A, states := rs, legal := fun s k => (rxsOf s k).st == .enabled,
    prot := fun s k => (rxsOf s k).p.weir }
def execNxRxsDisable (b : Nat) (f : Fmt) (s : State) : Out :=
  runNx spNxRxsDisable b f (.nxRxsDisable b f) nxRxsDisable s

/-- NX_RXS_FREE (R341). -/
def nxRxsFree (h : NxHdr) (s : State) : NxRes := ok (modRxs s h.idx fun _ => RxStream.reset)
/-- The catalogue row of NxRxsFree. -/
def spNxRxsFree : NxSpec :=
  { opcode := 0x0805, cls := 0x0A, states := rs, legal := fun s k => (rxsOf s k).st == .defined,
    prot := fun s k => (rxsOf s k).p.weir }
def execNxRxsFree (b : Nat) (f : Fmt) (s : State) : Out :=
  runNx spNxRxsFree b f (.nxRxsFree b f) nxRxsFree s

/-- The Weir counters in the order of R366. -/
def weirCtrs (t : Tab Nat) : List RVal := (nums 12).map fun k => .ctr (tabGet 0 t k)

/-- NX_RXS_STATS (R316, R366, R611): for a protected stream its counters; then the numbers of its flow entries. -/
def nxRxsStats (h : NxHdr) (s : State) : NxRes :=
  let x := rxsOf s h.idx
  let es : List RVal := x.flows.map fun (e : Nat) => .val e
  let r := replyOf [(if x.p.weir then weirCtrs x.ctr else []) ++ es]
  .done (if h.clear then modRxs s h.idx fun x => { x with ctr := [] } else s) r 0
/-- The catalogue row of NxRxsStats. -/
def spNxRxsStats : NxSpec :=
  { opcode := 0x0806, cls := 0x0A, states := rsr, audit := false, counts := true }
def execNxRxsStats (b : Nat) (f : Fmt) (s : State) : Out :=
  runNx spNxRxsStats b f (.nxRxsStats b f)
    nxRxsStats s

/-! ## Transmit streams -/

/-- NX_TXS_DEFINE (R320, R341). -/
def nxTxsDefine (l : List TxSet) (h : NxHdr) (s : State) : NxRes :=
  if !l.all TxSet.inRange then no 0x0106
  else ok (modTxs s h.idx fun _ => { TxStream.reset with st := .defined, p := l.foldl TxPar.set TxPar.reset })
/-- The catalogue row of NxTxsDefine. -/
def spNxTxsDefine (l : List TxSet) : NxSpec :=
  { opcode := 0x0811, cls := 0x0B, states := rs, legal := fun s k => (txsOf s k).st == .free,
    prot := fun _ _ => txWeir l }
def execNxTxsDefine (b : Nat) (f : Fmt) (l : List TxSet) (s : State) : Out :=
  runNx (spNxTxsDefine l) b f (.nxTxsDefine b f l) (nxTxsDefine l) s

/-- NX_TXS_SET (R320, R341). -/
def nxTxsSet (l : List TxSet) (h : NxHdr) (s : State) : NxRes :=
  if !l.all TxSet.inRange then no 0x0106
  else ok (modTxs s h.idx fun x => { x with p := l.foldl TxPar.set x.p })
/-- The catalogue row of NxTxsSet. -/
def spNxTxsSet (l : List TxSet) : NxSpec :=
  { opcode := 0x0812, cls := 0x0B, states := rs, legal := fun s k => (txsOf s k).st == .defined,
    prot := fun s k => (txsOf s k).p.weir || txWeir l }
def execNxTxsSet (b : Nat) (f : Fmt) (l : List TxSet) (s : State) : Out :=
  runNx (spNxTxsSet l) b f (.nxTxsSet b f l) (nxTxsSet l) s

/-- PAUSE_RX_EN is 0 on both ports of the pair that holds p (R352). -/
def pairUnpaused (s : State) (p : Nat) : Bool :=
  !(portOf s (p / 2 * 2)).cfg.pauseRx && !(portOf s (p / 2 * 2 + 1)).cfg.pauseRx

/-- Every port the stream sends on has room for its longest frame (R342, 0x0194; log 57). -/
def frameFits (s : State) (n : Nat) : Bool :=
  let x := (txsOf s n).p
  (nums 4).all fun q => !txUsesPort x q || decide (frameLen x (txBytes s n) ≤ (portOf s q).cfg.maxFrame)

/-- NX_TXS_ENABLE (R342, R345, R357, R367): the first sequence number is open (log 58). -/
def nxTxsEnable (h : NxHdr) (s : State) : NxRes :=
  let n := h.idx
  let p := (txsOf s n).p
  let me := objNo 0x0B n
  let seq := Config.draw s.free % 65536
  checked
    [(frameFits s n, 0x0194, me),
     (decide (p.nch ≤ 1) || decide (mapBytes s p.nch p.map (fun c => c.core.ptime) ≤ 8192), 0x0196, me),
     (mapOk p.nch p.map, 0x0198, me), (!p.weir || pairUnpaused s p.port, 0x01A2, me),
     (!p.weir || (weirFree s p.port).isSome, 0x0360, me)]
    (ok { modTxs s n fun x =>
            { x with st := .enabled, seq := seq, seqBase := seq, epoch := tick48 s, sent := 0, asm := [],
                     asmNext := none, ctxNo := if p.weir then weirFree s p.port else none }
          with free := s.free + 1 })
/-- The catalogue row of NxTxsEnable. -/
def spNxTxsEnable : NxSpec :=
  { opcode := 0x0813, cls := 0x0B, states := rs, legal := fun s k => (txsOf s k).st == .defined,
    prot := fun s k => (txsOf s k).p.weir }
def execNxTxsEnable (b : Nat) (f : Fmt) (s : State) : Out :=
  runNx spNxTxsEnable b f (.nxTxsEnable b f) nxTxsEnable s

/-- NX_TXS_DISABLE (R341, R342, R479). -/
def nxTxsDisable (h : NxHdr) (s : State) : NxRes :=
  let n := h.idx
  checked [((txNamed s n).isNone, 0x019C, objNo 1 ((txNamed s n).getD 0))]
    (ok (modTxs s n fun x => { x with st := .defined, asm := [], asmNext := none, ctxNo := none }))
/-- The catalogue row of NxTxsDisable. -/
def spNxTxsDisable : NxSpec :=
  { opcode := 0x0814, cls := 0x0B, states := rs, legal := fun s k => (txsOf s k).st == .enabled,
    prot := fun s k => (txsOf s k).p.weir }
def execNxTxsDisable (b : Nat) (f : Fmt) (s : State) : Out :=
  runNx spNxTxsDisable b f (.nxTxsDisable b f) nxTxsDisable s

/-- NX_TXS_FREE (R341). -/
def nxTxsFree (h : NxHdr) (s : State) : NxRes := ok (modTxs s h.idx fun _ => TxStream.reset)
/-- The catalogue row of NxTxsFree. -/
def spNxTxsFree : NxSpec :=
  { opcode := 0x0815, cls := 0x0B, states := rs, legal := fun s k => (txsOf s k).st == .defined,
    prot := fun s k => (txsOf s k).p.weir }
def execNxTxsFree (b : Nat) (f : Fmt) (s : State) : Out :=
  runNx spNxTxsFree b f (.nxTxsFree b f) nxTxsFree s

/-- NX_TXS_STATS (R322, R366, R423, R611): MEMBER_LATE, packets not sent by status 1 to 11, and for a protected stream
the Weir counters. -/
def nxTxsStats (h : NxHdr) (s : State) : NxRes :=
  let x := txsOf s h.idx
  let fails : List RVal := (numsFrom 1 11).map fun k => .ctr (tabGet 0 x.fails k)
  let r := replyOf [[.ctr x.late] ++ fails ++ (if x.p.weir then weirCtrs x.ctr else [])]
  .done (if h.clear then modTxs s h.idx fun x => { x with late := 0, fails := [], ctr := [] } else s) r 0
/-- The catalogue row of NxTxsStats. -/
def spNxTxsStats : NxSpec :=
  { opcode := 0x0816, cls := 0x0B, states := rsr, audit := false, counts := true }
def execNxTxsStats (b : Nat) (f : Fmt) (s : State) : Out :=
  runNx spNxTxsStats b f (.nxTxsStats b f)
    nxTxsStats s

end Sys2Proof.Machine
end

