-- ==== Sys2Proof/Machine/ChanOps.lean ====
section
/-! DEFINITION. Channels: checks at enable, placement, binding and release (chapters 03, 07, 08, 11, 13). -/

namespace Sys2Proof.Machine

/-! ## Ends and uses -/

/-- The ends audio comes from, and those it goes to (R69). -/
def CorePar.sources (p : CorePar) : List PathEnd := [p.rxSrc, p.txSrc]
def CorePar.sinks (p : CorePar) : List PathEnd := [p.rxSink, p.txSink]

/-- The bus a BUS sink names, if one (R252). -/
def busSink (p : CorePar) : Option Nat := p.sinks.findSome? fun | .bus b => some b | _ => none
/-- A path end is on a bus. -/
def PathEnd.isBus : PathEnd → Bool
  | .bus _ => true
  | _ => false

/-- The transmit stream of a channel. -/
def txStream (p : CorePar) : Option Nat := match p.txSink with | .stream n => some n | _ => none

/-- A channel is protected: a stream it names is (R356). -/
def chanProt (s : State) (c : Nat) : Bool :=
  let p := (chanOf s c).core
  (match p.rxSrc with | .stream n => (rxsOf s n).p.weir | _ => false)
    || (match p.txSink with | .stream n => (txsOf s n).p.weir | _ => false)

/-- Frame format of a local port: slots and rate in kHz, given or detected (R112, R505, R506). -/
def Lport.fmt (x : Lport) : Option (Nat × Nat) :=
  if !x.en then none else if x.master then some (x.slots, x.rate) else x.found.map fun f => (f.2.1, f.2.2)
/-- Local port p. -/
def lportOf (s : State) (p : Nat) : Lport := tabGet Lport.reset s.ice.lports p

/-- The object an end names, for DETAIL_OBJ. -/
def PathEnd.obj (sink : Bool) : PathEnd → Word
  | .none => noObj
  | .stream n => objNo (if sink then 0x0B else 0x0A) n
  | .tdm p _ => objNo 0x14 p
  | .bus b => objNo 5 b
  | .host q _ => objNo 9 q

/-- Each rule over the ends, sources then sinks: the first end that fails names the object. -/
def endRules (p : CorePar) (code : Nat) (ok : Bool → PathEnd → Bool) : List (Bool × Nat × Word) :=
  (p.sources.map fun e => (ok false e, code, e.obj false)) ++ p.sinks.map fun e => (ok true e, code, e.obj true)

/-! ## R112 -/

/-- RTP clock that agrees with a codec and RATE (R112, 0x0131): 8 kHz for G.722 and 48 kHz for Opus as their payload formats have it,
else RATE (PRESUMED, log 180). -/
def CorePar.clock (p : CorePar) : Nat :=
  match p.codec with | .g722 => 8000 | .opus => 48000 | _ => p.rate * 1000

/-- Functions configured on a channel, by number as in Config.fnModule. G.729 detects voice by its own Annex B, Opus with DTX by the
detector (R98, R113). -/
def Chan.functions (ch : Chan) : List Nat :=
  let codec := match ch.core.codec with
    | .g711u => 6 | .g711a => 7 | .g726 => 8 | .g729 => 9 | .g722 => 10 | .opus => 11 | .l16 => 12 | .l24 => 13
    | .aes3 => 14
  (if ch.blk.ecOn then [1, 3] else []) ++ (if ch.blk.aecOn then [2, 3] else [])
    ++ (if ch.blk.toneDir = 0 then [] else [4])
    ++ (if (ch.blk.vadOn && ch.core.codec != .g729) || (ch.core.codec == .opus && ch.core.dtx) then [5] else []) ++ [codec]

/-- A user tone lies within 50 Hz and 0.45 × RATE (R112, 0x0135). -/
def toneOk (rate : Nat) (t : ToneDef) : Bool :=
  let f (x : Nat) : Bool := decide (50 ≤ x) && decide (x * 100 ≤ rate * 1000 * 45)
  f t.f1 && (t.f2 == 0 || f t.f2)

/-- Channels other than c that hold Floe units. -/
def others (s : State) (c : Nat) : List Chan := (s.media.chans.filter fun p => p.1 != c && p.2.st.live).map (·.2)

/-- Another enabled channel uses the same slot, ring or transmit stream in the same direction (R112, 0x013D); the members
of a stream with several channels share it. -/
def endFree (s : State) (c : Nat) (sink : Bool) (e : PathEnd) : Bool :=
  let used := (others s c).any fun x => (if sink then x.core.sinks else x.core.sources).contains e
  match e with
  | .tdm _ _ | .host _ _ => !used
  | .stream n => !sink || decide (1 < (txsOf s n).p.nch) || !used
  | _ => true

/-- The rules of R112 in their order. A path with NONE at one end only, and two paths unused, pass (log 178). -/
def rules112 (s : State) (c : Nat) : List (Bool × Nat × Word) :=
  let ch := chanOf s c
  let p := ch.core
  let me := objNo 1 c
  let aes := p.codec == .aes3
  let strOn (sink : Bool) (e : PathEnd) : Bool := match e with
    | .stream n => if sink then (txsOf s n).st == .enabled else (rxsOf s n).st == .enabled
    | _ => true
  let strOk (sink : Bool) (e : PathEnd) : Bool := match e with
    | .stream n =>
      if sink then (txsOf s n).p.clock == p.clock && (txsOf s n).p.pt == p.pt
      else (rxsOf s n).p.clock == p.clock && (rxsOf s n).p.pt == p.pt
    | _ => true
  let me_ := s.dev.variant == .me
  endRules p 0x0130 strOn ++ endRules p 0x0131 strOk ++
  [(!(ch.blk.ecOn && (ch.blk.aecOn || (ch.blk.tail == 256 && p.rate != 8))), 0x0132, me),
   (ptimeOk p.codec p.opus20 p.rate p.ptime, 0x0133, me),
   (!(aes && (ch.blk.vadOn || ch.live.rxGain != 0 || ch.live.txGain != 0 || ch.blk.toneDir != 0 || ch.blk.ecOn
      || ch.blk.aecOn)) && !(p.codec.linear && ch.blk.vadOn), 0x0134, me),
   (ch.live.users.all fun t => toneOk p.rate t.2, 0x0135, me),
   (ch.live.cpPlan.all fun k => (tabGet none s.media.plans k).isSome, 0x0136, objNo 0x15 (ch.live.cpPlan.getD 0)),
   (decide (p.payload p.ptime ≤ 8192), 0x0137, me),
   (!(ch.blk.aecOn && p.rate != 48) && !(ch.blk.ecOn && 16 < p.rate), 0x0138, me),
   (ch.functions.all fun f => s.mods.any fun m => m.modId == (Config.fnModule f).toNat, 0x0139, me)] ++
  endRules p 0x013A (fun _ e => match e with | .bus b => (busOf s b).st != .free | _ => true) ++
  (p.keys.map fun k =>
    (!me_ && (slotOf s k).st != .empty, if me_ then 0x0401 else 0x013B, if me_ then me else objNo 0x0F k)) ++
  endRules p 0x013C (fun _ e => match e with
    | .tdm q k => (lportOf s q).fmt.any fun f => decide (k < f.1) && f.2 == p.rate
    | _ => true) ++
  endRules p 0x013D (endFree s c)

/-! ## R243, R271, R342, R367, R432 -/

/-- The Basin rules of R243 in their order. -/
def rules243 (s : State) (c : Nat) : List (Bool × Nat × Word) :=
  let ch := chanOf s c
  let b := ch.blk
  let me := objNo 1 c
  let depth (d : Nat) : Bool := decide (2 ≤ d) && decide (d ≤ 16000)
  let str := match ch.core.rxSrc with | .stream _ => true | _ => false
  let cd := ch.core.codec
  [(depth b.depth && depth b.depthMin && depth b.depthMax && decide (b.depthMin ≤ b.depth) && decide (b.depth ≤ b.depthMax),
      0x0160, me),
   (ptimeOk cd ch.core.opus20 ch.core.rate b.rxPtime || (ch.core.tdmSrc && b.rxPtime == 6), 0x0161, me),
   (ch.slots != 0, 0x0162, me),
   (!b.epoch || (b.drift == .off && str && (clkOf s s.tb.selDom).servo == .locked), 0x0163, me),
   (!b.adaptive || (cd != .aes3 && !ch.core.tdmSrc && (!cd.linear || b.drift == .sluice)), 0x0164, me),
   ((b.drift != .sluice || cd != .aes3) && (b.drift != .slip || cd == .aes3), 0x0165, me)]

/-- The Junction rules of R271 that need no space, in their order. -/
def rules271 (s : State) (c : Nat) : List (Bool × Nat × Word) :=
  let ch := chanOf s c
  let p := ch.core
  let me := objNo 1 c
  [(!p.ends.any PathEnd.isBus || (p.rate != 96 && p.codec != .aes3), 0x0171, me),
   (!(p.sinks.all PathEnd.isBus), 0x0172, me),
   ((busSink p).all fun b => !onList s b c, 0x0173, objNo 5 ((busSink p).getD 0)),
   ((busSink p).all fun b => !(busOf s b).share, 0x0178, objNo 5 ((busSink p).getD 0))]

/-- The Quay rules of R342 a channel meets: MAP membership and HOST rings (R321, R339). -/
def rules342 (s : State) (c : Nat) : List (Bool × Nat × Word) :=
  let ch := chanOf s c
  let p := ch.core
  let ring (g bytes : Nat) : Bool := (dmaOf s g).channel && decide (12 + bytes ≤ bufBytes (dmaOf s g).bufsz)
  -- a channel in the MAP of an enabled stream must name that stream (R321)
  let rxElse := s.net.rxs.find? fun x => x.2.st == .enabled && decide (1 < x.2.p.nch) && x.2.p.map.contains c
    && p.rxSrc != .stream x.1
  let txElse := s.net.txs.find? fun x => x.2.st == .enabled && decide (1 < x.2.p.nch) && x.2.p.map.contains c
    && p.txSink != .stream x.1
  [(rxElse.isNone, 0x0197, objNo 0x0A (rxElse.elim 0 (·.1))),
   (txElse.isNone, 0x0197, objNo 0x0B (txElse.elim 0 (·.1)))] ++
  endRules p 0x019A (fun sink e => match e with
    | .host q k => if sink then ring (q * 32 + k) (p.payload p.ptime + tagBytes s p.keyTx)
                   else ring (q * 32 + 16 + k) (p.payload ch.blk.rxPtime + tagBytes s p.keyRx)
    | _ => true)

/-- The Rime rules of R432 that need no room, in their order. -/
def rules432 (s : State) (c : Nat) : List (Bool × Nat × Word) :=
  let p := (chanOf s c).core
  let tx := p.keyTx.toList ++ p.keyTxB.toList
  let rx := p.keyRx.toList ++ p.keyRxB.toList
  let key (d k : Nat) : Bool := srtpMode (slotOf s k).mode && (slotOf s k).dir == d
  let nch := (match p.rxSrc with | .stream n => (rxsOf s n).p.nch | _ => 1)
  let nchT := (match p.txSink with | .stream n => (txsOf s n).p.nch | _ => 1)
  let root (k : Nat) : Bool := !(s.dev.tandemEn && chanProt s c) || decide ((slotOf s k).root < 4)
  (tx.map fun k => (!(others s c).any (fun x => x.core.keyTx == some k || x.core.keyTxB == some k), 0x01C3, objNo 0x0F k))
    ++ (rx.map fun k => (key 1 k, 0x01C4, objNo 0x0F k)) ++ (tx.map fun k => (key 0 k, 0x01C4, objNo 0x0F k))
    ++ (rx.map fun k => (decide (nch ≤ 1), 0x01C5, objNo 0x0F k))
    ++ (tx.map fun k => (decide (nchT ≤ 1), 0x01C5, objNo 0x0F k))
    ++ p.keys.map fun k => (root k, 0x01C6, objNo 0x0F k)

/-- The Weir rules of R367 a channel meets, in their order. -/
def rules367 (s : State) (c : Nat) : List (Bool × Nat × Word) :=
  let ch := chanOf s c
  let p := ch.core
  let me := objNo 1 c
  let txw := match p.txSink with | .stream n => (txsOf s n).p.weir | _ => false
  let rxw := match p.rxSrc with | .stream n => if (rxsOf s n).p.weir then some n else none | _ => none
  let str := match p.rxSrc with | .stream _ => true | _ => false
  [(!txw || p.keyTx.isNone || (p.keyTxB.isSome && p.keyTxB != p.keyTx), 0x01A1, me),
   (!(s.dev.tandemEn && chanProt s c && str) || ch.blk.epoch, 0x01A3, me),
   (rxw.all fun n => ch.rxTicks == (rxsOf s n).p.wptime, 0x01A4, objNo 0x0A (rxw.getD 0))]

/-! ## Placement and binding (R71, R76, R114, R211, R252, R255, R257, R424) -/

/-- Floe units reserved on Floe f. -/
def fuUsed (s : State) (f : Nat) : Nat :=
  ((s.media.chans.filter fun p => p.2.st.live && p.2.floe == some f).map fun p => p.2.cost).sum

/-- Floe f runs channel service: service mode, running, not fenced (R114). -/
def servesChannels (s : State) (f : Nat) : Bool := !threadMode s && (floeOf s f).run && !(floeOf s f).fenced

/-- The Floe R114 picks for a cost: the most free units, the lowest number. -/
def placeOn (s : State) (cost : Nat) : Option Nat :=
  let free (f : Nat) : Nat := 9800 - fuUsed s f
  let best := ((nums 96).filter (servesChannels s)).foldl (fun (b : Option Nat) f => match b with
    | none => some f
    | some g => if free g < free f then some f else some g) none
  best.bind fun f => if cost ≤ free f then some f else none

/-- One resource to bind: the state with it, or the refusing code and object. -/
abbrev Bind := Except (Nat × Word) State

/-- The Basin's head and body (R208-R213). -/
def bindBasin (s : State) (c : Nat) : Bind :=
  let ch := chanOf s c
  if !ch.core.usesBasin then .ok (modBasin s c fun b => { Basin.reset with ctr := b.ctr })
  else
    let n := ch.slots
    let z := ch.slotBytes
    match headFit s (headBytes n), poolFit s (n * z) with
      | none, _ => .error (0x0320, objNo 1 c)
      | _, none => .error (0x0321, objNo 1 c)
      | some at_, some base =>
        .ok (modBasin (poolTake s 0 c base (n * z)) c fun b =>
          { Basin.reset with slotsN := n, slotZ := z, body := base, head := headBytes n, headAt := at_, depth := ch.blk.depth,
                             target := ch.blk.depth, ctr := b.ctr })

/-- The source ring of a BUS sink (R257, R259). -/
def bindRing (s : State) (c : Nat) : Bind :=
  match busSink (chanOf s c).core with
  | none => .ok s
  | some _ =>
    let n := sourceRingBytes (frameOf s c)
    match poolFit s n with
    | none => .error (0x0332, objNo 1 c)
    | some base => .ok (poolTake s 3 c base n)

/-- The entry crosspoint of a BUS sink (R252). -/
def bindXp (s : State) (c : Nat) : Bind :=
  match busSink (chanOf s c).core with
  | none => .ok s
  | some b =>
    match freeXp s (busSlice b) with
    | none => .error (0x0330, objNo 5 b)
    | some k =>
      let s' := xpPut s b k c 0x2000 0 (some c)
      if termsFit s' (busSlice b) then .ok s' else .error (0x0331, objNo 5 b)

/-- One Sluice context of profile p for channel c (R229, R255, R289). -/
def bindCtx (s : State) (c f p : Nat) : Bind :=
  match sluPlace s (f / 24) p with
  | .error e => .error (e, objNo 1 c)
  | .ok k => .ok (sluBind s k p (Config.kind 1).toNat c true f (some c))

/-- Sluice profiles a channel needs: rate adaptation, then one for each BUS end at 8 or 16 kHz (R229, R255, R290). -/
def sluNeeds (ch : Chan) : List Nat :=
  let p := ch.core
  let r := p.rate
  let drift := if ch.blk.drift = .sluice && p.usesBasin then [if r = 96 then 1 else 0] else []
  let one (up down : Nat) : List Nat :=
    ((p.sources.filter PathEnd.isBus).map fun _ => down) ++ (p.sinks.filter PathEnd.isBus).map fun _ => up
  drift ++ if r = 8 then one 2 3 else if r = 16 then one 4 5 else []

/-- Reach that homes a transmit key: the Weir unit's on a protected stream, else the Floe's (R411). -/
def txKeyReach (s : State) (c f : Nat) : Nat :=
  match (chanOf s c).core.txSink with
  | .stream n => if (txsOf s n).p.weir then (txsOf s n).p.port else f / 24
  | _ => f / 24

/-- Home one key slot and reserve for its use (R411, R417, R424, R432). -/
def bindKey (s : State) (c k r ticks bytes : Nat) : Bind :=
  let me := objNo 0x0F k
  let new := (slotOf s k).home.isNone
  let n := (homed s r).length
  let pins := pinned s r
  let s' := reserve (homeSlot s k r) c k ticks bytes
  let r' := (slotOf s' k).home.getD r
  if !reachFits s' r' s.rime.strength then .error (0x0370, me)
  else if new && decide (4096 ≤ n) then .error (0x0372, me)
  else if new && (slotOf s k).pin && decide (384 ≤ pins) then .error (0x0373, me)
  else .ok s'

/-- Home and reserve for every key slot of a channel: receive uses, then transmit uses. -/
def bindKeys (s : State) (c f : Nat) : Bind :=
  let ch := chanOf s c
  let p := ch.core
  let rx := (p.keyRx.toList ++ p.keyRxB.toList).map fun k => (k, f / 24, ch.rxTicks, ch.core.payload ch.rxTicks)
  let tx := (p.keyTx.toList ++ p.keyTxB.toList).map fun k => (k, txKeyReach s c f, p.ptime, p.payload p.ptime)
  (rx ++ tx).foldl (fun (t : Bind) u => t.bind fun s => bindKey s c u.1 u.2.1 u.2.2.1 u.2.2.2) (.ok s)

/-- Rings of channel c that another manager holds are DETACHED from now on (R236). -/
def detachRings (s : State) (c : Nat) : State :=
  ((s.media.rings.filter fun p => (p.2.st == .enabled || p.2.st == .rewinding) && p.2.chan == c
      && p.2.mgr != mgrOf s c).map (·.1)).foldl (fun s n => modRing s n fun r => { r with detached := true }) s

/-- Floe units to reserve for channel c: those of its standard functions, and the declared cost at its rate of every loaded module it
uses besides (R113, R152; log 179). -/
def chanCost (s : State) (c : Nat) : Nat :=
  let ch := chanOf s c
  ch.fu + ((s.mods.filter fun m => Config.chanUses c m.modId).map fun m => m.fuCost.getD (byRate ch.core.rate 0 1 2 3) 0).sum

/-- Everything NX_CHAN_ENABLE takes, in order (R76, R114, R211): the channel placed and bound. -/
def bindChan (s : State) (c : Nat) : Bind :=
  let ch := chanOf s c
  match placeOn s (chanCost s c) with
  | none => .error (0x0310, objNo 1 c)
  | some f =>
    let s := modChan s c fun x =>
      { x with floe := some f, cost := chanCost s c, st := .armed, ecArmed := true, ecDisabled := false, plcRun := 0,
               plcPosted := false, pendLive := [], starting := false, ecReset := false }
    let s := modDsp (detachRings s c) c fun _ => Dsp.reset
    (bindBasin s c).bind fun s => (bindXp s c).bind fun s => (bindRing s c).bind fun s =>
      (sluNeeds ch).foldl (fun (t : Bind) p => t.bind fun s => bindCtx s c f p) (.ok s) |>.bind fun s => bindKeys s c f

/-! ## Release (R79, R80, R114, R211, R235, R252, R270, R411) -/

/-- A ring that waited for a boundary that will not come resolves at once (R240). -/
def resolveRings (s : State) (c : Nat) : State :=
  (s.media.rings.filter fun p => p.2.st == .rewinding && p.2.chan == c).foldl (fun s p => resolveRewind s p.1) s

/-- Channel c leaves ARMED, RUNNING or DRAINING for state st: pending live writes apply, its Basin, ring, crosspoint,
contexts, key homes and Floe units are released. -/
def releaseChan (s : State) (c : Nat) (st : ChanSt) : State :=
  let s := rimeRelease s c
  let s := flushBasin s c none
  let s := modBasin s c fun b => { Basin.reset with ctr := b.ctr }
  let s := poolFree (poolFree s 0 c) 3 c
  let s := (s.jct.xps.filter fun p => p.2.entry == some c).foldl (fun s p => xpFree s p.1) s
  let s := modDsp (sluFreeOf s c) c fun d => { d with pkt := none, cap := [], capAt := none, bus := [], txEnd := none }
  let s := modChan s c fun x =>
    { x.applyPend with st := st, floe := none, cost := 0, starting := false, ecReset := false,
                       plcRun := 0, plcPosted := false, ecDisabled := false }
  resolveRings s c

/-- Channel c faults at a site (R79): ARG of the event is the sequence number of the alarm record to come (log 61). -/
def faultChan (s : State) (c : Nat) (site : DWord) : State :=
  if !(chanOf s c).st.live then s
  else
    let s := releaseChan s c .faulted
    let s := alarm s 0x21 (objNo 1 c) 0 site
    chanEv s c 0x21 false false s.nx.seqAlarm

/-- On leaving SERVICE every ARMED, RUNNING or DRAINING channel goes to DEFINED with one CHAN_STATE event (R80), and every
ENABLED bus to DEFINED (R270). -/
def leaveService (s : State) : State :=
  let live := (s.media.chans.filter fun p => p.2.st.live).map (·.1)
  let s := live.foldl (fun s c => chanStateEv (releaseChan s c .defined) c) s
  jctExit s

/-- A channel the tap selection names, in force or sent (R559). -/
def tapped (s : State) (c : Nat) : Bool :=
  (s.tap.table.any fun t => t.entries.any fun e => e.chan == c)
    || (s.tap.sent.any fun q => q.2.1.entries.any fun e => e.chan == c)

end Sys2Proof.Machine
end

