-- ==== Sys2Proof/Machine/Chan.lean ====
section
/-! DEFINITION. The commands of channels and their frame boundaries (chapter 03). -/

namespace Sys2Proof.Machine

/-- Legal in one of the channel states. -/
def chanIn (l : List ChanSt) (s : State) (k : Nat) : Bool := l.contains (chanOf s k).st

/-- A write of a gain other than 0.0 dB. -/
def ParSet.gain : ParSet → Bool
  | .rxGain n | .txGain n => n != 0
  | _ => false

/-- A write of RATE. -/
def ParSet.isRate : ParSet → Bool
  | .rate _ => true
  | _ => false

/-- Settings name a protected stream (R356). -/
def setsProt (s : State) (l : List ParSet) : Bool :=
  l.any fun
    | .rxSrc (.stream n) => (rxsOf s n).p.weir
    | .txSink (.stream n) => (txsOf s n).p.weir
    | _ => false

/-- NX_CHAN_DEFINE (R75, R81, R83, R95). -/
def nxChanDefine (l : List ParSet) (h : NxHdr) (s : State) : NxRes :=
  let ch := defineChan l
  if !l.all ParSet.inRange || !ch.core.keysDiffer then no 0x0106
  else if ch.core.codec == .aes3 && l.any ParSet.gain then .refuse 0x0134 (objNo 1 h.idx) 0
  else ok (modChan s h.idx fun x => { ch with evtLost := x.evtLost })
/-- The catalogue row of NxChanDefine. -/
def spNxChanDefine (l : List ParSet) : NxSpec :=
  { opcode := 0x0101, cls := 1, states := rs, legal := chanIn [.free], prot := fun s _ => setsProt s l }
def execNxChanDefine (b : Nat) (f : Fmt) (l : List ParSet) (s : State) : Out :=
  runNx (spNxChanDefine l) b f (.nxChanDefine b f l) (nxChanDefine l) s

/-- NX_CHAN_SET (R75, R81, R95): in DEFINED at once; in ARMED and RUNNING live parameters wait for the boundary, and a
structural one refuses the whole command; RATE of a tapped channel is refused (R559). -/
def nxChanSet (l : List ParSet) (h : NxHdr) (s : State) : NxRes :=
  let ch := chanOf s h.idx
  if ch.st ≠ .defined && l.any ParSet.structural then no 0x0201
  else if !l.all ParSet.inRange || !(ch.sets l).core.keysDiffer then no 0x0106
  else if tapped s h.idx && l.any ParSet.isRate then .refuse 0x01E9 (objNo 0x13 0) 0
  else if (ch.sets l).core.codec == .aes3 && l.any ParSet.gain then .refuse 0x0134 (objNo 1 h.idx) 0
  else if ch.st = .defined then ok (modChan s h.idx fun x => x.sets l)
  else ok (modChan s h.idx fun x => { x with pendLive := x.pendLive ++ l })
/-- The catalogue row of NxChanSet. -/
def spNxChanSet (l : List ParSet) : NxSpec :=
  { opcode := 0x0102, cls := 1, states := rs, legal := chanIn [.defined, .armed, .running],
    prot := fun s k => chanProt s k || setsProt s l }
def execNxChanSet (b : Nat) (f : Fmt) (l : List ParSet) (s : State) : Out :=
  runNx (spNxChanSet l) b f (.nxChanSet b f l) (nxChanSet l) s

/-- NX_CHAN_ENABLE (R76, R112, R114, R211, R243, R252, R271, R342, R367, R432): the reply gives the entry crosspoint of a
BUS sink. -/
def nxChanEnable (h : NxHdr) (s : State) : NxRes :=
  let c := h.idx
  checked (rules112 s c ++ rules243 s c ++ rules271 s c ++ rules342 s c ++ rules432 s c ++ rules367 s c)
    (match bindChan s c with
    | .error e => .refuse e.1 e.2 0
    | .ok s =>
      let k := (s.jct.xps.find? fun p => p.2.entry == some c).map (·.1)
      .done s (match k with | some k => replyOf [[.val k]] | none => []) 0)
/-- The catalogue row of NxChanEnable. -/
def spNxChanEnable : NxSpec :=
  { opcode := 0x0103, cls := 1, states := [.service], legal := chanIn [.defined], prot := chanProt }
def execNxChanEnable (b : Nat) (f : Fmt) (s : State) : Out :=
  runNx spNxChanEnable b f (.nxChanEnable b f) nxChanEnable s

/-- NX_CHAN_START (R77): it takes effect at the next processing-frame boundary. -/
def nxChanStart (h : NxHdr) (s : State) : NxRes :=
  ok (modChan s h.idx fun x => { x with st := .running, starting := true })
/-- The catalogue row of NxChanStart. -/
def spNxChanStart : NxSpec :=
  { opcode := 0x0104, cls := 1, states := [.service], legal := chanIn [.armed], prot := chanProt }
def execNxChanStart (b : Nat) (f : Fmt) (s : State) : Out :=
  runNx spNxChanStart b f (.nxChanStart b f) nxChanStart s

/-- The end of the processing frame a tick lies in, and of that frame's last packet time (R78, R82). -/
def frameEnd (s : State) (c : Nat) : Nat := (tick48 s / frameOf s c + 1) * frameOf s c

/-- NX_CHAN_STOP (R78, R225): DRAINING; the Basin is emptied and takes no more, and capture ends with the present frame. -/
def nxChanStop (h : NxHdr) (s : State) : NxRes :=
  let c := h.idx
  let s := modDsp s c fun d => { d with txEnd := if (chanOf s c).starting then none else some (frameEnd s c) }
  let s := modBasin (flushBasin s c none) c fun b => { b with on_ := false, anchored := false }
  let s := modChan s c fun x =>
    { x with st := .draining, starting := false, drainAt := roundUp (frameEnd s c) x.core.ptime }
  ok (resolveRings s c)
/-- The catalogue row of NxChanStop. -/
def spNxChanStop : NxSpec :=
  { opcode := 0x0105, cls := 1, states := [.service], legal := chanIn [.running], prot := chanProt }
def execNxChanStop (b : Nat) (f : Fmt) (s : State) : Out :=
  runNx spNxChanStop b f (.nxChanStop b f) nxChanStop s

/-- NX_CHAN_DISABLE (R75, R114, R211). -/
def nxChanDisable (h : NxHdr) (s : State) : NxRes := ok (endIllegal (releaseChan s h.idx .defined))
/-- The catalogue row of NxChanDisable. -/
def spNxChanDisable : NxSpec :=
  { opcode := 0x0106, cls := 1, states := [.service], legal := chanIn [.armed], prot := chanProt }
def execNxChanDisable (b : Nat) (f : Fmt) (s : State) : Out :=
  runNx spNxChanDisable b f (.nxChanDisable b f) nxChanDisable s

/-- NX_CHAN_FREE (R74, R75); refused of a tapped channel (R559). Events not delivered are still told by the next one (R110). -/
def nxChanFree (h : NxHdr) (s : State) : NxRes :=
  if tapped s h.idx then .refuse 0x01E9 (objNo 0x13 0) 0
  else ok (modChan s h.idx fun x => { Chan.reset with evtLost := x.evtLost })
/-- The catalogue row of NxChanFree. -/
def spNxChanFree : NxSpec :=
  { opcode := 0x0107, cls := 1, states := rs, legal := chanIn [.defined], prot := chanProt }
def execNxChanFree (b : Nat) (f : Fmt) (s : State) : Out :=
  runNx spNxChanFree b f (.nxChanFree b f) nxChanFree s

/-- NX_CHAN_CLEAR (R75). -/
def nxChanClear (h : NxHdr) (s : State) : NxRes := ok (modChan s h.idx fun x => { x with st := .defined })
/-- The catalogue row of NxChanClear. -/
def spNxChanClear : NxSpec :=
  { opcode := 0x0108, cls := 1, states := rs, legal := chanIn [.faulted], prot := chanProt }
def execNxChanClear (b : Nat) (f : Fmt) (s : State) : Out :=
  runNx spNxChanClear b f (.nxChanClear b f) nxChanClear s

/-! ## Reading a channel (R83-R111, R215, R611; log 63) -/

/-- A path end as a value: kind in bits [31:24] in the order of R69 (NONE 0), port in [23:16], number below. -/
def PathEnd.val : PathEnd → Nat
  | .none => 0
  | .stream n => 2 ^ 24 + n
  | .tdm p k => 2 * 2 ^ 24 + p * 2 ^ 16 + k
  | .bus b => 3 * 2 ^ 24 + b
  | .host q r => 4 * 2 ^ 24 + q * 2 ^ 16 + r
/-- A key slot as a value, 0xFFFF_FFFF for none. -/
def keyVal (k : Option Nat) : RVal := .val (k.elim (-1) fun n => (n : Int))
/-- Codec numbers in the order of R93. -/
def Codec.no : Codec → Nat
  | .g711u => 0 | .g711a => 1 | .g726 => 2 | .g729 => 3 | .g722 => 4 | .opus => 5 | .l16 => 6 | .l24 => 7 | .aes3 => 8
/-- NLP numbers in the order of R84; DRIFT in the order of R215. -/
def Nlp.no : Nlp → Nat
  | .off => 0 | .suppress => 1 | .comfort => 2
def Drift.no : Drift → Nat
  | .off => 0 | .sluice => 1 | .slip => 2
/-- A user tone as four values, zeros for none. -/
def toneVals (t : Option ToneDef) : List RVal :=
  match t with | some t => [nv t.f1, nv t.f2, nv t.tol, nv t.dur] | none => [nv 0, nv 0, nv 0, nv 0]

/-- The parameters of a channel, block by block in the chapters' order. -/
def chanVals (ch : Chan) : List RVal :=
  let p := ch.core
  let b := ch.blk
  let l := ch.live
  [.flag p.programme, nv p.prio, nv p.group, nv p.codec.no, nv p.rate, nv p.ptime, nv p.pt, nv p.rxSrc.val,
   nv p.rxSink.val, nv p.txSrc.val, nv p.txSink.val, keyVal p.keyRx, keyVal p.keyTx, keyVal p.keyRxB, keyVal p.keyTxB,
   .val l.rxGain, .val l.txGain] ++
  [.flag b.ecOn, nv b.tail, nv l.erlMin, nv l.nlp.no, .flag l.freeze, .flag l.toneDis] ++
  [.flag b.aecOn, nv 256, nv l.resSupp, nv l.aecNlp.no, .flag l.aecFreeze] ++
  [nv p.g726, nv l.opusRate, nv p.complexity, .flag l.opusFec, .flag p.dtx, .flag p.opus20] ++
  [.flag b.vadOn, .val l.thresh, nv l.hangover, nv l.sidInt] ++
  [nv b.toneDir, .flag l.dtmf, keyVal l.cpPlan, .flag l.lineup, .flag l.ans] ++
  ((nums 8).map fun i => toneVals ((l.users.find? fun u => u.1 == i).map (·.2))).flatten ++ [.flag l.gpi] ++
  [.flag b.adaptive, .flag b.epoch, nv b.depth, nv b.depthMin, nv b.depthMax, nv b.rxPtime, nv b.w, nv b.drift.no,
   nv l.adaptQ, nv l.adaptWin, nv l.guard_, nv l.adaptWait]

/-- NX_CHAN_GET (R75). -/
def nxChanGet (h : NxHdr) (s : State) : NxRes := .done s (replyOf [chanVals (chanOf s h.idx)]) 0
/-- The catalogue row of NxChanGet. -/
def spNxChanGet : NxSpec :=
  { opcode := 0x0109, cls := 1, states := rsr, audit := false }
def execNxChanGet (b : Nat) (f : Fmt) (s : State) : Out :=
  runNx spNxChanGet b f (.nxChanGet b f) nxChanGet s

/-- NX_CHAN_STATS (R111): 13 counters and eight smoothed values; CLEAR clears the counters. -/
def nxChanStats (h : NxHdr) (s : State) : NxRes :=
  let ch := chanOf s h.idx
  let r := (nums 13).map (fun k => RVal.ctr (tabGet 0 ch.ctr k)) ++ (nums 8).map fun k => .val (tabGet 0 ch.smooth k)
  .done (if h.clear then modChan s h.idx fun x => { x with ctr := [] } else s) (replyOf [r]) 0
/-- The catalogue row of NxChanStats. -/
def spNxChanStats : NxSpec :=
  { opcode := 0x010A, cls := 1, states := rsr, audit := false, counts := true }
def execNxChanStats (b : Nat) (f : Fmt) (s : State) : Out :=
  runNx spNxChanStats b f (.nxChanStats b f)
    nxChanStats s

/-- NX_EC_RESET (R85, R91): at the next processing-frame boundary. -/
def nxEcReset (h : NxHdr) (s : State) : NxRes := ok (modChan s h.idx fun x => { x with ecReset := true })
/-- The catalogue row of NxEcReset. -/
def spNxEcReset : NxSpec :=
  { opcode := 0x010B, cls := 1, states := [.service], legal := chanIn [.running], prot := chanProt }
def execNxEcReset (b : Nat) (f : Fmt) (s : State) : Out :=
  runNx spNxEcReset b f (.nxEcReset b f) nxEcReset s

/-- NX_TONE_PLAN (R102): loads call-progress plan OBJECT; an empty plan unloads it. -/
def nxTonePlan (l : List PlanTone) (h : NxHdr) (s : State) : NxRes :=
  if 16 < l.length ∨ l.any (fun t => decide (4 < t.cadence.length)) then no 0x0106
  else ok (modMedia s fun m => { m with plans := tabSet none m.plans h.idx (if l.isEmpty then none else some l) })
/-- The catalogue row of NxTonePlan. -/
def spNxTonePlan : NxSpec :=
  { opcode := 0x010C, cls := 0x15, states := [.ready] }
def execNxTonePlan (b : Nat) (f : Fmt) (l : List PlanTone) (s : State) : Out :=
  runNx spNxTonePlan b f (.nxTonePlan b f l) (nxTonePlan l) s

/-- NX_GPI_MAP (R103): loads the whole map, 32 entries at most. -/
def nxGpiMap (l : List (ToneDef × Nat)) (_ : NxHdr) (s : State) : NxRes :=
  if 32 < l.length ∨ l.any (fun e => decide (32 ≤ e.2) || !e.1.ok) then no 0x0106
  else ok (modMedia s fun m => { m with gpiMap := l.mapIdx fun i e => (i, some e) })
/-- The catalogue row of NxGpiMap. -/
def spNxGpiMap : NxSpec :=
  { opcode := 0x010D, cls := 0, states := [.ready] }
def execNxGpiMap (b : Nat) (f : Fmt) (l : List (ToneDef × Nat)) (s : State) : Out :=
  runNx spNxGpiMap b f (.nxGpiMap b f l) (nxGpiMap l) s

/-! ## Boundaries (R77, R78, R81, R82, R85, R88) -/

/-- The audio state as a start takes effect at tick t of the grid: the first frames of both paths begin there (R77, R254). -/
def Dsp.start (d : Dsp) (rate t : Nat) : Dsp :=
  { d with rxNext := t * rate / 48, txTick := t, txEnd := none, cap := [], capAt := none, pkt := none, bus := [] }

/-- PROCESSING_FRAME_BOUNDARY: a tick of channel c's grid: waiting live parameters apply, a start begins, a canceller
reset clears the coefficients. -/
def execProcessingFrameBoundary (c : Nat) (s : State) : Out :=
  let ch := chanOf s c
  if !(ch.st == .armed || ch.st == .running) || tick48 s % frameOf s c != 0 then .next s
  else
    let s := modChan s c fun x =>
      { x.applyPend with starting := false, ecReset := false, ecArmed := x.ecArmed || x.starting || x.ecReset }
    let s := if ch.ecReset then modDsp s c fun d => { d with coefs := [] } else s
    if ch.starting then
      let s := modDsp s c fun d => d.start ch.core.rate (tick48 s)
      fin (modBasin (sluStartOf s c) c fun b =>
        { b with on_ := ch.core.usesBasin, anchored := false, disc := true, early := 0, pos := 0 })
    else fin s

/-- DRAIN_END (R78): the last packet time has ended; ARMED, with a CHAN_STATE event. -/
def execDrainEnd (c : Nat) (s : State) : Out :=
  let ch := chanOf s c
  if ch.st != .draining || decide (tick48 s < ch.drainAt) then .next s
  else fin (chanStateEv (modChan s c fun x => { x.applyPend with st := .armed }) c)

end Sys2Proof.Machine
end

