-- ==== Sys2Proof/Machine/Lkp.lean ====
section
/-! DEFINITION. The events, register accesses and commands of the Lockkeeper (chapter 06). -/

namespace Sys2Proof.Machine

/-! ## Admission, retirement and GOV records -/

/-- The first 8 bytes of a malformed descriptor raise LKP_BADDESC with the producer's island (R174). -/
def badDesc (s : State) (r : Nat) (h : Held) : State :=
  alarm (modReach s r fun x => { x with badDesc := sat32 (x.badDesc + 1) }) 0x28 0 h.it.w0 (siteIsland h.from_.domain)

/-- A poisoned record or item: LKP_POISON and LKP_UE with the site (R176-R178). -/
def lkpPoison (s : State) (r : Nat) (site : DWord) : State :=
  alarm (modReach s r fun x => { x with poison := sat32 (x.poison + 1) }) 0x2A 0 0 site

/-- The site of the first poisoned word of flume i's foremost item (R65, R178). -/
def poisonSite (s : State) (i : Nat) (it : Item) : DWord :=
  let k := match (flumeOf s i).head with
    | x :: _ => x.1
    | [] => 0
  siteStage (flumeDomain i) (0x8000 + i) (flumeStage i k (((nums 4).find? fun n => it.px.getLsbD n).getD 0))

/-- An item leaves its source: judged, then admitted; none when it must wait (R174, R178, R179, R196). -/
def takeItem (s : State) (k : Nat) (inj : Option Nat) (site : DWord) (h : Held) : Option State :=
  if h.it.unroutable then some (lkpPoison s (k / 2) site)
  else if h.it.bad inj then some (badDesc s (k / 2) h)
  else admitHeld s h

/-- The bank that takes from a source. -/
def AdmitSrc.bank : AdmitSrc → Nat
  | .floe f => bankOf f
  | .unit k => k
  | .inject r => 2 * r
/-- The reach whose injection block a source is. -/
def AdmitSrc.injReach : AdmitSrc → Option Nat
  | .inject r => some r
  | _ => none
/-- The flume a source is; none for an injection buffer. -/
def AdmitSrc.flume : AdmitSrc → Option Nat
  | .floe f => some f
  | .unit k => some (bankFlume k)
  | .inject _ => none
/-- The producer of an item of a source. -/
def AdmitSrc.producer (x : FItem) : AdmitSrc → Producer
  | .floe f => .floe f
  | .unit _ => .unit x.producer
  | .inject _ => .inject

/-- The foremost record of a source. -/
def srcHead (s : State) : AdmitSrc → Option FItem
  | .inject r => ((lkpReach s r).inject.head?).map fun it => it.flit 0
  | .floe f => ((flumeOf s f).head.head?).map fun x => x.2
  | .unit k => ((flumeOf s (bankFlume k)).head.head?).map fun x => x.2

/-- The sources of bank k, in the order in which their items are taken: its flumes by index, then its injection buffer (R183;
log 168). -/
def bankSources (k : Nat) : List AdmitSrc :=
  (bankFloes k).map AdmitSrc.floe ++ [.unit k] ++ (if k % 2 = 0 then [.inject (k / 2)] else [])

/-- A source's foremost record is a work item that could be taken now. -/
def srcReady (s : State) (src : AdmitSrc) : Bool :=
  match srcHead s src with
  | none => false
  | some x => x.side == 0 && (takeItem s src.bank src.injReach 0 { it := x.item, from_ := src.producer x }).isSome

/-- The bank takes from this source now: no retire record waits, and no source before it has an item that can be taken
(R183). -/
def admitTurn (s : State) (src : AdmitSrc) : Bool :=
  let k := src.bank
  !retireWaits s k && ((bankSources k).takeWhile (· != src)).all fun x => !srcReady s x

/-- What the code check found in the words of an injection buffer's foremost entry (R172, R178; log 160). -/
def injectEcc (s : State) (r : Nat) (ecc : List Ecc) : State :=
  ecc.foldl (fun s e => match e with
    | .corrected bit => hwFault s 0 (siteBit (156 + 2 * r) 4 (lkpReach s r).injAt bit)
    | _ => s) s

/-- The injection buffer's foremost entry, as read, and the state without it. -/
def popInject (s : State) (r : Nat) (ecc : List Ecc) : Option (FItem × State) :=
  match (lkpReach s r).inject with
  | [] => none
  | it :: t =>
    let x := it.flit 0
    some ({ x with words := checkWords x.words ecc },
      modReach (injectEcc s r (ecc.take 4)) r fun y => { y with inject := t, injAt := (y.injAt + 1) % 64 })

/-- A source's foremost record leaves it. -/
def srcPop (s : State) (src : AdmitSrc) (ecc : List Ecc) : Option (FItem × State) :=
  match src with
  | .inject r => popInject s r ecc
  | .floe f => popFlume s f ecc
  | .unit k => popFlume s (bankFlume k) ecc

/-- Where a poisoned item of a source was found. -/
def srcSite (s : State) (src : AdmitSrc) (it : Item) : DWord :=
  match src.flume with
  | some i => poisonSite s i it
  | none => siteStage (156 + src.bank) 4 (lkpReach s (src.bank / 2)).injAt

/-- An admission attempt's end: the source is no longer held, or is newly held and counted in LKP_HOLD (R196). -/
def admitted (s : State) (src : AdmitSrc) (r : Nat) : Option State → Out
  | some t => fin (lkpRun (modLkp t fun l => { l with holding := l.holding.filter (· != src) }) r)
  | none =>
    if s.lkp.holding.contains src then .next s
    else fin (modReach (modLkp s fun l => { l with holding := l.holding ++ [src] }) r fun x =>
      { x with hold := sat32 (x.hold + 1) })

/-- The reach an item is admitted in; the taking bank's where its TARGET is not valid. -/
def itemReach (it : Item) (k : Nat) : Nat := (targetReach it.target).getD (k / 2)

/-- WORK_ITEM_ADMIT (R179, R183, R190, R196): a bank takes the foremost work item of a source, once it can be admitted. Boundaries
reached by then fall first. -/
def execWorkItemAdmit (src : AdmitSrc) (ecc : List Ecc) (s : State) : Out :=
  let s := towNow s
  if 8 ≤ src.bank || !admitTurn s src then .next s
  else match srcPop s src ecc with
    | none => .next s
    | some (x, t) =>
      if x.side != 0 then .next s
      else admitted s src (itemReach x.item src.bank)
        (takeItem t src.bank src.injReach (srcSite s src x.item) { it := x.item, from_ := src.producer x })

/-- The bank retires the oldest item of Floe f from its own record; its chamber is freed in the bank that keeps it, unless an item of
it waits there (R176, R181, R182). -/
def bankRetire (s : State) (f : Nat) : State :=
  match slotRecs (lkpBank s (bankOf f)) f with
  | [] => s
  | x :: t =>
    modBank (modBank s (bankOf f) fun b => { b with slots := tabSet [] b.slots f t }) x.bank fun b =>
      { b with heldCh := if x.atomic && !b.chq.any (fun h => h.it.chamber == x.chamber) then b.heldCh.erase x.chamber
                         else b.heldCh }

/-- RETIRE_RECORD (R176): the bank takes a retire record and frees the chamber from its own record. -/
def execRetireRecord (f : Nat) (ecc : List Ecc) (s : State) : Out :=
  match popFlume s f ecc with
  | none => .next s
  | some (x, s') =>
    if x.side != 1 || decide (96 ≤ f) then .next s
    else
      let k := bankOf f
      let it := x.item
      let site := poisonSite s f it
      match slotRecs (lkpBank s k) f with
      | [] =>
        let t := if it.px != 0 then lkpPoison s' (k / 2) site else s'
        fin (lkpRun (alarm t 0x29 0 0 (siteIsland (156 + k))) (k / 2))
      | c :: _ =>
        let t := if it.px != 0 then lkpPoison s' (k / 2) site
          else if it.chamber != c.chamber then alarm s' 0x29 0 0 (siteIsland (156 + k)) else s'
        fin (lkpRun (bankRetire t f) (k / 2))

/-- The GOV record of a flume item, poisoned fields zero (R175, R177). -/
def govOf (f : Nat) (it : Item) : GovRec :=
  { rtype := if it.px.getLsbD 0 then 0 else 0x80, chamber := if it.px.getLsbD 0 then 0 else it.chamber,
    floe := if it.px.getLsbD 0 then 0 else f,
    pc := if it.px.getLsbD 1 then 0 else fld it.w1 11 0, mask := if it.px.getLsbD 2 then 0 else it.w2, merges := 0 }

/-- GOV_EVENT_RECORD (R177): into the queue of 16, or merged into the Floe's pending record. The pending record is kept
under the Floe's number, whatever its FLOE field reads. -/
def execGovEventRecord (f : Nat) (ecc : List Ecc) (s : State) : Out :=
  match popFlume s f ecc with
  | none => .next s
  | some (x, s') =>
    if x.side != 2 || decide (96 ≤ f) then .next s
    else
      let k := bankOf f
      let g := govOf f x.item
      let s' := if x.item.px != 0 then lkpPoison s' (k / 2) (poisonSite s f x.item) else s'
      let b := lkpBank s' k
      if b.govQ.length < 16 then fin (modBank s' k fun b => { b with govQ := b.govQ ++ [g] })
      else if b.govPend.any (fun p => p.1 == f) then
        let upd (p : Nat × GovRec) : Nat × GovRec :=
          if p.1 = f then (p.1, { p.2 with mask := p.2.mask ||| g.mask, merges := p.2.merges + 1 }) else p
        fin (modReach (modBank s' k fun b => { b with govPend := b.govPend.map upd }) (k / 2) fun x =>
          { x with govMerged := sat32 (x.govMerged + 1) })
      else fin (modBank s' k fun b => { b with govPend := b.govPend ++ [(f, g)] })

/-- The 32 bytes of a GOV record, then its merge count (R175, R177, R536). -/
def GovRec.bytes (g : GovRec) : List Byte :=
  leBytes g.rtype 1 ++ leBytes 0 3 ++ leBytes g.chamber 2 ++ leBytes g.floe 1 ++ leBytes 0 1 ++ leBytes g.pc 2
    ++ leBytes 0 6 ++ leBytes g.mask.toNat 8 ++ leBytes 0 8 ++ leBytes g.merges 4

/-- GOV_QUEUE_TAKE (R177): the Icehouse takes and logs a record; a pending record enters the space. -/
def execGovQueueTake (k : Nat) (s : State) : Out :=
  if !s.dev.iceRuns then .next s
  else match (lkpBank s k).govQ with
    | [] => .next s
    | g :: t =>
      let s := modBank s k fun b => match b.govPend with
        | [] => { b with govQ := t }
        | p :: ps => { b with govQ := t ++ [p.2], govPend := ps }
      fin (logRec s 2 6 0 g.bytes)

/-- TOWPATH_TICK (R189, R193): every boundary the selected time has reached since the latest one falls now. -/
def execTowpathTick (s : State) : Out :=
  if s.dev.inReset || decide (s.tb.sel / towPeriod s ≤ s.lkp.boundary) then .next s
  else fin (towNow s)

/-! ## Host injection (R199) -/

/-- LKP_INJ_DATA_WRITE (R199): one word of the injection descriptor. -/
def execLkpInjDataWrite (r n : Nat) (w : Word) (s : State) : Out :=
  if !barLive s .host || decide (4 ≤ r) || decide (8 ≤ n) then .next s
  else fin (modReach s r fun x => { x with injData := tabSet 0 x.injData n w })

/-- LKP_INJ_PUSH (R199): the held descriptor enters the buffer, or is discarded and counted. -/
def execLkpInjPush (r : Nat) (w : Word) (s : State) : Out :=
  if !barLive s .host || decide (4 ≤ r) || !w.getLsbD 0 then .next s
  else
    let x := lkpReach s r
    let dw (n : Nat) : DWord := (tabGet 0 x.injData (2 * n + 1)) ++ (tabGet 0 x.injData (2 * n))
    if x.inject.length < 64 then
      fin (modReach s r fun x => { x with inject := x.inject ++ [{ w0 := dw 0, w1 := dw 1, w2 := dw 2, w3 := dw 3,
                                                                   px := 0 }] })
    else fin (modReach s r fun x => { x with injDrop := sat32 (x.injDrop + 1) })

/-- LKP_INJ_DROP_READ (R199): returns and clears the count. -/
def execLkpInjDropRead (r : Nat) (s : State) : Out :=
  if !barLive s .host then fin (returned s 0)
  else fin (returned (modReach s r fun x => { x with injDrop := 0 }) (lkpReach s r).injDrop)

/-! ## Reads through the Canal window (R206, R14) -/

/-- LKP_PEAK_READ (R206): the depth and PEAK of pound or group queue n, PEAK cleared. -/
def execLkpPeakRead (r : Nat) (group : Bool) (n : Nat) (s : State) : Out :=
  let x := lkpReach s r
  if group then
    fin (returned (modReach s r fun x => { x with groupPeak := tabSet 0 x.groupPeak n 0 })
      (tabGet 0 x.groupPeak n * 2 ^ 16 + (x.gq n).length))
  else
    fin (returned (modReach s r fun x => { x with poundPeak := tabSet 0 x.poundPeak n 0 })
      (tabGet 0 x.poundPeak n * 2 ^ 16 + (x.pound n).length))

/-- LKP_COUNT_READ (R206): count 0 HOLD, 1 TOW_LATE, 2 BADDESC, 3 POISON, 4 GOV_MERGED, cleared by the read. -/
def execLkpCountRead (r n : Nat) (s : State) : Out :=
  let x := lkpReach s r
  match n with
  | 0 => fin (returned (modReach s r fun x => { x with hold := 0 }) x.hold)
  | 1 => fin (returned (modReach s r fun x => { x with towLate := 0 }) x.towLate)
  | 2 => fin (returned (modReach s r fun x => { x with badDesc := 0 }) x.badDesc)
  | 3 => fin (returned (modReach s r fun x => { x with poison := 0 }) x.poison)
  | 4 => fin (returned (modReach s r fun x => { x with govMerged := 0 }) x.govMerged)
  | _ => .next s

/-- LKP_DISP_READ (R14, R206): the low half; the high half is latched and the pair cleared. The high halves are read as registers
(regRead). -/
def execLkpDispRead (r : Nat) (group : Bool) (s : State) : Out :=
  let x := lkpReach s r
  let hi (n : Nat) : Option Word := some (BitVec.ofNat 32 (n / 2 ^ 32))
  if group then
    fin (returned (modReach s r fun x => { x with gdisp := 0, gdispHi := hi x.gdisp }) (x.gdisp % 2 ^ 32))
  else fin (returned (modReach s r fun x => { x with disp := 0, dispHi := hi x.disp }) (x.disp % 2 ^ 32))

/-! ## Commands (R188, R195, R204-R206) -/

/-- Items in the delay lists of reach r. -/
def towDepth (s : State) (r : Nat) : Nat := ((nums 4).map fun n => ((lkpReach s r).list n).length).sum
/-- Items in the pounds of reach r. -/
def poundDepth (s : State) (r : Nat) : Nat := ((nums 16).map fun p => ((lkpReach s r).pound p).length).sum
/-- Items in the group queues of reach r. -/
def groupDepth (s : State) (r : Nat) : Nat := ((nums 8).map fun g => ((lkpReach s r).gq g).length).sum
/-- Items in the work slots of the Floes, by the banks' records. -/
def slotItems (s : State) : Nat := ((nums 96).map fun f => (slotRecs (lkpBank s (bankOf f)) f).length).sum
/-- Thread descriptors held in pounds, the chamber queue and the delay lists (R204). -/
def threadItems (s : State) : Nat := ((nums 4).map fun r => poundDepth s r + towDepth s r).sum + (chqAll s).length
/-- Items held in pounds, group queues, the chamber queue and the delay lists. -/
def heldItems (s : State) : Nat :=
  ((nums 4).map fun r => poundDepth s r + groupDepth s r + towDepth s r).sum + (chqAll s).length

/-- Set the mode of the Lockkeeper and of every Floe at one instant (R204). -/
def setMode (s : State) (thread : Bool) : State :=
  (nums 96).foldl (fun s f => modFloe s f fun x => { x with threadMode := thread })
    (modLkp s fun l => { l with thread := thread })

/-- The switch of R204: refusal code and the number it gives, if it is refused. -/
def modeRefusal (s : State) (thread : Bool) : Option (Nat × Nat) :=
  if thread then
    if s.lkp.thread || heldItems s = 0 then none else some (0x0151, heldItems s)
  else
    let n := threadItems s + slotItems s
    if !s.lkp.thread || n = 0 then none else some (0x0150, n)

/-- NX_LKP_MODE (R204). mode: 0 service, 1 thread; another value is refused with 0x0106 (log 22). -/
def nxLkpMode (mode : Nat) (_ : NxHdr) (s : State) : NxRes :=
  if 1 < mode then no 0x0106
  else match modeRefusal s (mode == 1) with
    | some (c, n) => .refuse c noObj n
    | none => ok (setMode s (mode == 1))
/-- The catalogue row of NxLkpMode. -/
def spNxLkpMode : NxSpec :=
  { opcode := 0x0301, cls := 0, states := [.ready] }
def execNxLkpMode (b : Nat) (f : Fmt) (mode : Nat) (s : State) : Out :=
  runNx spNxLkpMode b f (.nxLkpMode b f mode) (nxLkpMode mode) s

/-- NX_LKP_GROUP (R188, R206): weights by group, and CEIL. -/
def nxLkpGroup (ws : List (Nat × Nat)) (ceil : Option Nat) (_ : NxHdr) (s : State) : NxRes :=
  if ws.any fun w => 8 ≤ w.1 then no 0x0106
  else
    checked [(ws.all (fun w => 1 ≤ w.2 && w.2 ≤ 255) && (match ceil with | some c => 10 ≤ c && c ≤ 90 | none => true),
              0x0153, noObj)]
      (ok (modLkp s fun l => { l with weights := ws.foldl (fun t w => tabSet 1 t w.1 w.2) l.weights,
                                      ceil := ceil.getD l.ceil }))
/-- The catalogue row of NxLkpGroup. -/
def spNxLkpGroup : NxSpec :=
  { opcode := 0x0302, cls := 0, states := rs }
def execNxLkpGroup (b : Nat) (f : Fmt) (ws : List (Nat × Nat)) (ceil : Option Nat) (s : State) : Out :=
  runNx spNxLkpGroup b f (.nxLkpGroup b f ws ceil) (nxLkpGroup ws ceil) s

/-- NX_LKP_TICK (R195, R206): the next boundary is the first of the new period after the latest boundary reached (R189). -/
def nxLkpTick (t : Nat) (_ : NxHdr) (s : State) : NxRes :=
  let n := ((nums 4).map (towDepth s)).sum
  if n ≠ 0 then .refuse 0x0152 noObj n
  else if t < 1 ∨ 64 < t then no 0x0154
  else
    let p := t * 250 * 65536
    ok (modLkp s fun l => { l with tick := t, boundary := max (s.tb.sel / p) (l.boundary * towPeriod s / p) })
/-- The catalogue row of NxLkpTick. -/
def spNxLkpTick : NxSpec :=
  { opcode := 0x0303, cls := 0, states := [.ready] }
def execNxLkpTick (b : Nat) (f : Fmt) (t : Nat) (s : State) : Out :=
  runNx spNxLkpTick b f (.nxLkpTick b f t) (nxLkpTick t) s

/-- Remove every item from pounds, group queues, the chamber queue and the delay lists (R205). -/
def lkpPurge (s : State) : State :=
  let s := (nums 4).foldl (fun s r => modReach s r fun x => { x with pounds := [], groups := [], tow := [] }) s
  (nums 8).foldl (fun s k => modBank s k fun b =>
    { b with heldCh := [], chq := [], rr := 0, deficit := [], window := [] }) s

/-- NX_LKP_PURGE (R205): the reply gives the items removed from each structure: by reach, its pounds, group queues and delay lists;
then the chamber queue. -/
def nxLkpPurge (_ : NxHdr) (s : State) : NxRes :=
  let one (r : Nat) : List RVal :=
    let x := lkpReach s r
    ((nums 16).map fun p => .val (x.pound p).length) ++ ((nums 8).map fun g => .val (x.gq g).length)
      ++ (nums 4).map fun n => .val (x.list n).length
  .done (lkpPurge s) (replyOf [((nums 4).map one).flatten ++ [.val (chqAll s).length]]) 0
/-- The catalogue row of NxLkpPurge. -/
def spNxLkpPurge : NxSpec :=
  { opcode := 0x0304, cls := 0, states := [.ready] }
def execNxLkpPurge (b : Nat) (f : Fmt) (s : State) : Out :=
  runNx spNxLkpPurge b f (.nxLkpPurge b f) nxLkpPurge s

/-- NX_LKP_STATS (R206, R111): the registers of the reach's window in their order, PEAK and DEPTH as values of their own; CLEAR
clears the peaks and counters. -/
def nxLkpStats (h : NxHdr) (s : State) : NxRes :=
  let x := lkpReach s h.idx
  let vals : List RVal := [.val (b2n s.lkp.thread), .val s.lkp.ceil, .val s.lkp.tick]
    ++ ((nums 8).map fun g => .val (weightOf s g))
    ++ ((nums 16).map fun p => [.val (tabGet 0 x.poundPeak p : Nat), .val (x.pound p).length]).flatten
    ++ ((nums 8).map fun g => [.val (tabGet 0 x.groupPeak g : Nat), .val (x.gq g).length]).flatten
    ++ [.val (chqAll s).length, .val (towDepth s h.idx), .ctr x.hold, .ctr x.towLate, .ctr x.badDesc, .ctr x.poison,
        .ctr x.govMerged, .ctr x.disp, .ctr x.gdisp]
  let clr (x : LkpReach) : LkpReach :=
    { x with poundPeak := [], groupPeak := [], hold := 0, towLate := 0, badDesc := 0, poison := 0, govMerged := 0,
             disp := 0, gdisp := 0 }
  .done (if h.clear then modReach s h.idx clr else s) (replyOf [vals]) 0
/-- The catalogue row of NxLkpStats. -/
def spNxLkpStats : NxSpec :=
  { opcode := 0x0305, cls := 3, states := rsr, audit := false, counts := true }
def execNxLkpStats (b : Nat) (f : Fmt) (s : State) : Out :=
  runNx spNxLkpStats b f (.nxLkpStats b f)
    nxLkpStats s

end Sys2Proof.Machine
end

