-- ==== Sys2Proof/Machine/IceOps.lean ====
section
/-! DEFINITION. What the Icehouse does beneath the commands: flash writes under the hold-up check, the Ablation step,
fences, and the changes of device state (chapters 16, 17). -/

namespace Sys2Proof.Machine

/-- Change the flash part. -/
def modFlash (s : State) (f : Flash → Flash) : State := modIce s fun i => { i with flash := f i.flash }
/-- Change the stored items. -/
def modStored_ (s : State) (f : Stored → Stored) : State := modIce s fun i => { i with stored := f i.stored }
/-- Change the sensors and background activities. -/
def modSense (s : State) (f : Sense → Sense) : State := modIce s fun i => { i with sense := f i.sense }

/-! ## Flash and hold-up (R540-R545) -/

/-- t_max of an operation in µs (R544). -/
def HoldParams.time (h : HoldParams) : FlashKind → Nat
  | .page => h.tPage
  | .erase4 => h.tErase4
  | .erase64 => h.tErase64

/-- C times (V² − VMIN²), 0 at or below VMIN, scaled by 10^20: C in µF, V = HOLDUP_SENSE × HDIV. -/
def holdSquare (s : State) : Nat :=
  let h := s.ice.hold
  h.c * ((s.ice.sense.holdup * h.hdiv) ^ 2 - (h.vmin * 1000) ^ 2)

/-- The energy test of R544: e ≥ margin × p_hold × t_max. -/
def holdEnergy (s : State) (k : FlashKind) : Bool :=
  let h := s.ice.hold
  decide (2 * h.margin * h.pHold * h.time k * 10 ^ 8 ≤ holdSquare s)

/-- The hold-up check: PWRFAIL_N high and the energy enough (R544). -/
def holdupOk (s : State) (k : FlashKind) : Bool := !s.ice.flash.pwrLow && holdEnergy s k

/-- The number of a flash operation in FLASH_DEFER. -/
def FlashKind.no : FlashKind → Nat
  | .page => 0 | .erase4 => 1 | .erase64 => 2

/-- A deferred operation: HOLDUP_LOW and the FLASH_DEFER record with V in 0.1 mV and E in mJ (R536, R544). -/
def holdupLow (s : State) (k : FlashKind) : State :=
  let v := s.ice.sense.holdup * s.ice.hold.hdiv / 1000
  let s := alarm s 9 0 0 noSite
  logRec s 0xB 6 0 (leBytes k.no 1 ++ leBytes v 4 ++ leBytes (holdSquare s / (2 * 10 ^ 17)) 4)

/-- Operations of a write (R541, R544, R546); the number for stored items is the model's choice (log 66). -/
def flashPlan (blocks : Nat) (j : FlashJob) : List FlashOp :=
  let op (k : FlashKind) (n : Nat) (last : Bool) : FlashOp := { kind := k, job := j, left := n, final := last, retry := false }
  match j with
  | .sector .. => [op .erase4 1 false, op .page 16 true]
  | .boot _ _ => [op .page 1 true]
  | .fw _ => ((nums blocks).map fun _ => [op .erase64 1 false, op .page 256 true]).flatten
  | .fwVoid _ => [op .erase64 1 true]
  | _ => [op .erase4 1 false, op .page 1 true]

/-- The head operation starts, or is deferred (R544, R545). -/
def flashStart (s : State) : State :=
  let f := s.ice.flash
  match f.queue with
  | [] => s
  | o :: _ =>
    if f.busy || !s.dev.iceRuns then s
    else if holdupOk s o.kind then modFlash s fun f => { f with busy := true }
    else holdupLow s o.kind

/-- Ask for a write: its operations join the queue. -/
def flashAsk (s : State) (blocks : Nat) (j : FlashJob) : State :=
  let s' := modFlash s fun f => { f with queue := f.queue ++ flashPlan blocks j }
  if s.ice.flash.queue.isEmpty then flashStart s' else s'

/-- The write at the head of the queue begins again from its first operation (R545). -/
def flashAgain (blocks : Nat) : List FlashOp → List FlashOp
  | [] => []
  | o :: t => flashPlan blocks o.job ++ t.dropWhile fun x => x.job == o.job

/-- What the last operation of a write leaves stored (R541, R545-R549). -/
def jobDone (s : State) : FlashJob → State
  | .sector r sec n comp enc =>
    let b := tabGet Batch.reset s.ice.flash.batches r
    let x : Sector := { region := r, gen := b.gen, first := b.seq, recs := b.recs.take n, comp := comp, enc := enc }
    let b' : Batch := { recs := b.recs.drop n, seq := b.seq + n, gen := b.gen + 1 }
    modFlash s fun f => { f with sectors := tabSet none f.sectors sec (some x), batches := tabSet Batch.reset f.batches r b' }
  | .boot a t => modStored_ s fun x => { x with active := a, tries := t }
  | .config p => modStored_ s fun x => { x with log := p }
  | .hold h => modStored_ s fun x => { x with hold := h }
  | .fence l => modStored_ s fun x => { x with ddrFence := l }
  | .vAbl v => modStored_ s fun x => { x with vAbl := v }
  | .fw _ => modFlash s fun f => { f with fwDone := f.fwDone + 65536 }
  | .fwVoid k => modStored_ s fun x => { x with verified := x.verified.filter (· != k) }

/-- An erase of a log sector empties and counts it (R527, R540). -/
def eraseDone (s : State) (o : FlashOp) : State :=
  match o.kind, o.job with
  | .page, _ => s
  | _, .sector _ sec _ _ _ =>
    modFlash s fun f => { f with sectors := tabSet none f.sectors sec none, erases := tabMod 0 f.erases sec (· + 1) }
  | _, _ => s

/-- The operation in progress has completed and verified. -/
def flashOpOk (s : State) : State :=
  match s.ice.flash.queue with
  | [] => s
  | o :: t =>
    let q := if o.left ≤ 1 then t else { o with left := o.left - 1, retry := false } :: t
    let s := eraseDone (modFlash s fun f => { f with queue := q, busy := false }) o
    if o.left ≤ 1 && o.final then jobDone s o.job else s

/-! ## Ablation (R525-R527) -/

/-- V_ABL rises by one STEP, at most to +60 mV, for island d; a step within 10 s of the last waits (R526). -/
def ablStep (s : State) (d : Nat) : State :=
  let x := s.ice.sense
  if x.vrMode = 2 ∨ x.step = 0 ∨ 600 ≤ x.vAbl then s
  else if x.ablAt.any fun t => decide (s.tb.sel < t + 10 * unitsPerSec) then
    modSense s fun x => { x with ablWant := some (x.ablWant.getD d) }
  else
    let v := min 600 (x.vAbl + x.step)
    let s := modSense s fun x => { x with vAbl := v, ablAt := some s.tb.sel, ablWant := none, ablLimit := decide (600 ≤ v) }
    let s := logRec s 0xA 6 0 (leBytes x.vAbl 4 ++ leBytes v 4 ++ leBytes d 4)
    let s := if 600 ≤ v then alarm s 7 0 (BitVec.ofNat 64 v) noSite else s
    flashAsk s 0 (.vAbl v)

/-! ## Fences (R146, R490) -/

/-- The Icehouse fences Floe f: stopped, its items retired as FAILED, its channels faulted (R146). -/
def fenceFloe (s : State) (f : Nat) (site : DWord) : State :=
  if (floeOf s f).fenced then s
  else
    let s := modFloe s f fun x =>
      { x with fenced := true, run := false, cur := none, nxt := none, started := false, stall := .none, xfers := [] }
    let s := (nums 2).foldl (fun s _ => bankRetire s f) s
    let s := logRec (alarm s 0x20 (objNo 2 (0x10000 + f)) 0 site) 5 5 (objNo 2 (0x10000 + f)) (leBytes site.toNat 8)
    let cs := (s.media.chans.filter fun c => c.2.floe == some f).map (·.1)
    lkpRun (cs.foldl (fun s c => faultChan s c site) s) (f / 24)

/-- A Quay port is fenced: cleared from DEV_UNITS, its entry DISABLED (R303, R490). -/
def fencePort (s : State) (n : Nat) : State :=
  let s := modDev s fun d => { d with quayFenced := addOnce d.quayFenced n }
  let s := modCfg s n fun c => { c with rxEn := false, txEn := false, link := false, speed := 0, fec := 0 }
  logRec (negSet s (2 + n) .disabled 0 0) 5 5 (objNo 9 n) (leBytes (siteIsland (212 + 2 * n)).toNat 8)

/-! ## Tandem outside SERVICE (R354, R511; log 67) -/

/-- ALIVE_OUT stops, drills end, and the Tandem object reads OFF. -/
def tdmStop (s : State) : State :=
  modTdm s fun t => { t with st := .off, aliveFresh := false, drill := none, lifted := [] }

/-! ## Device states (R471, R472, R509, R517-R519) -/

/-- The tick counts move with the selected time after a step (R399). -/
def tickMove (s : State) : State :=
  let rates := [1, 2, 4, 6, 12]
  modTb s fun t => { t with ticks := rates.foldl (fun k i => tabSet 0 k i (ticksOf (8000 * i) t.sel)) t.ticks }

/-- The slew is over: the selected time is the selected domain's, and a slew that a switch began or joined posts
TB_SWITCH_DONE (R379). -/
def slewDone (s : State) (switch : Bool) : State :=
  let x := s.tb.selDom
  let post := switch || s.tb.slewSwitch
  let s := modTb s fun t => { t with sel := (clkOf s x).time, slewing := false, slewRate := 0, slewRem := 0, slewSwitch := false }
  if post then unitEv s 0x11 (objNo 0x0E x) x else s

/-- Outside SERVICE the selected time steps to the selected domain's where they differ by more than 1 ns, and a slew ends
(R371). -/
def selSnap (s : State) : State :=
  let d := (clkOf s s.tb.selDom).time
  if s.dev.devState = .service ∨ (!s.tb.slewing ∧ s.tb.sel ≤ d + 65536 ∧ d ≤ s.tb.sel + 65536) then s
  else tickMove (slewDone s false)

/-- What leaving the present state does: R80, R270, ALIVE_OUT (R511), the selected time (R371). -/
def leaveState (s : State) : State := if s.dev.devState = .service then tdmStop (leaveService s) else s

/-- The first entry to READY of activated firmware: FW_EVENT, and the OTP floor rises to its security version (R547;
log 116). -/
def fwFirst (s : State) : State :=
  let v := s.ice.stored.secVer.getD s.ice.slot 0
  let s := logRec s 9 5 0 (leBytes s.ice.slot 1 ++ leBytes v 4)
  modStored_ s fun x => { x with fresh := false, otpFloor := max x.otpFloor v }

/-- READY entry: receive and transmit of ports whose link is up are enabled (R303), TRIES is cleared (R488). -/
def readyEntry (s : State) : State :=
  let s := (nums 4).foldl (fun s n =>
    let c := (portOf s n).cfg
    if c.link && !s.dev.quayFenced.contains n then modCfg s n fun c => { c with rxEn := true, txEn := true } else s) s
  let s := if s.ice.stored.fresh ∧ s.ice.slot = s.ice.stored.active then fwFirst s else s
  if s.ice.stored.tries = 0 then s else flashAsk s 0 (.boot s.ice.stored.active 0)

/-- SERVICE entry: partitions set under R45 take effect, and Junction blocks count from now (R256). -/
def serviceEntry (s : State) : State :=
  let s := match s.fab.partsNext with
    | some p => modFab s fun f => { f with parts := p, partsNext := none }
    | none => s
  modJct s fun x => { x with block := some (tick48 s / 6) }

/-- HALTED entry (R518): Floes stopped, Quay transmitters and TDM outputs disabled, PPS outputs low. -/
def haltedEntry (s : State) : State :=
  let s := (nums 96).foldl (fun s f => modFloe s f fun x => { x with run := false }) s
  let s := (nums 4).foldl (fun s n => modCfg s n fun c => { c with rxEn := false, txEn := false }) s
  modTb s fun t => { t with clkA := { t.clkA with outHigh := false }, clkB := { t.clkB with outHigh := false } }

/-- What entering a state does. -/
def enterState (s : State) : DevState → State
  | .ready => readyEntry s
  | .service => serviceEntry s
  | .halted => haltedEntry s
  | _ => s

/-- Firmware blocks still to be written are dropped once their command has ended (R473). -/
def fwTidy (s : State) : State :=
  if s.nx.long.any fun l => l.hdr.opcode == 0x0D05 then s
  else modFlash s fun f => { f with queue := f.queue.filter fun o => match o.job with | .fw _ => false | _ => true,
                                    busy := f.busy && !(match f.queue.head? with
                                      | some o => (match o.job with | .fw _ => true | _ => false) | none => false) }

/-- The device changes state: one DEV_STATE event and log record, and long commands that lost their states end (R472,
R473, R536). -/
def setDevState (s : State) (d : DevState) : State :=
  let old := s.dev.devState
  if d = old then s
  else
    let s := leaveState s
    let s := modDev s fun x => { x with devState := d, rcvDone := false, recovering := none }
    let s := enterState (selSnap s) d
    let s := logRec (unitEv s 1 0 (d.no + 256 * old.no)) 6 5 0 (leBytes d.no 1 ++ leBytes old.no 1)
    fwTidy (endIllegal s)

/-- A fault sends the device to HALTED (R517). -/
def halt (s : State) : State := setDevState s .halted

/-- Steps 1 and 2 of R519 and the entry to RECOVERY for a condition, named by its alarm code; step 3 is the row of the
unit that raised it. Only a device in SERVICE enters RECOVERY (R471; log 68). -/
def recover (s : State) (cond : Nat) : State :=
  if s.dev.devState ≠ .service then s
  else
    let s := setDevState s .recovery
    let s := lkpPurge (setMode s true)
    modDev s fun d => { d with recovering := some cond }

/-! ## Words found corrected or uncorrectable (R43, R135, R146, R517) -/

/-- 24 h in units of 2^-16 ns. -/
def dayTime : Nat := 86400 * unitsPerSec

/-- Times within the last 24 h. -/
def lastDay (s : State) (l : List Nat) : List Nat := l.filter fun t => decide (s.tb.elapsed < t + dayTime)

/-- Memory errors found enter the counts, and more than 16 uncorrectable data words in 24 h fence the Floe (R135, R146). -/
def noteErrors (s : State) (f ue ce : Nat) : State :=
  if ue = 0 ∧ ce = 0 then s
  else
    let s := modFloe s f fun x => { x with dmUe := min 255 (x.dmUe + ue), dmCe := min 255 (x.dmCe + ce) }
    let s := if ue = 0 then s else modFmem s f fun m =>
      { m with ueTimes := lastDay s m.ueTimes ++ List.replicate ue s.tb.elapsed }
    if 16 < (fmemOf s f).ueTimes.length ∧ 0 < ue then fenceFloe s f (siteIsland f) else s

/-- The fence list with writes still waiting. -/
def fenceList (s : State) : List Nat :=
  s.ice.flash.queue.foldl (fun l o => match o.job with | .fence l' => l' | _ => l) s.ice.stored.ddrFence

/-- The LPDDR5X channel that holds Canal address a (R496). -/
def ddrChan (s : State) (a : Nat) : Nat :=
  let n := s.fab.live.length
  if n = 0 then 0 else (s.fab.live.getD (a / 256 % n) (0, 0)).1

/-- Uncorrectable LPDDR5X words: 16 on one channel within 1 s raise DDR_UE, lead to RECOVERY and put the channel on the
fence list (R498, R517). -/
def ddrBad (s : State) (w : Nat) : State :=
  let c := ddrChan s (8 * w)
  let s := modFab s fun f => { f with ddrPoison := addOnce f.ddrPoison w }
  let ts := (tabGet [] s.ice.sense.ddrUe c).filter (fun t => decide (s.tb.elapsed < t + unitsPerSec)) ++ [s.tb.elapsed]
  let full := decide (16 ≤ ts.length)
  let s := modSense s fun x => { x with ddrUe := tabSet [] x.ddrUe c (if full then [] else ts) }
  if !full then s
  else
    let s := alarm s 0x14 0 (BitVec.ofNat 64 c) (siteIsland (222 + c))
    if s.dev.devState ≠ .service then s
    else flashAsk (recover s 0x14) 0 (.fence (addOnce (fenceList s) c))

/-- A Floe's instruction word found uncorrectable outside a fetch is rewritten, or the second time within 24 h fences it (R136,
R146). -/
def imemBad (s : State) (f w : Nat) : State :=
  let old := (fmemOf s f).imFailed.filter fun p => decide (s.tb.elapsed < p.2 + dayTime)
  if old.any fun p => p.1 == w then fenceFloe s f (siteStage f 0 w)
  else modFloe (modFmem s f fun m => { m with imFailed := old ++ [(w, s.tb.elapsed)] }) f fun x => { x with imUe := min 255 (x.imUe + 1) }

/-- A word that must be counted where it is met: Névé's, with its alarm (R43). -/
def neveUeAt (s : State) (o : Nat) : State :=
  alarm (modFab s fun f => { f with neveUe := sat32 (f.neveUe + 1) }) 0x12 0 0 (neveSite o)

/-- What a code check finds in the memory word at Canal word address w, when it is read: a corrected bit of Névé is counted and
recorded with its site; an uncorrectable word gains its poison bit, which the read then meets (R43, R133, R135, R517; log
160). -/
def wordFound (s : State) (w : Nat) : Ecc → State
  | .ok => s
  | .corrected bit =>
    match canalWhere s (8 * w) with
    | .neve o =>
      if s.fab.nevePoison.contains (o / 8) then s
      else hwFault (modFab s fun f => { f with neveCe := sat32 (f.neveCe + 1) }) 0 (neveBit o bit)
    | .floe f o =>
      if !floeStopped s f ∨ 0x50000 ≤ o ∨ (fmemOf s f).poison.contains (o / 8) then s
      else if o < 0x40000 then noteErrors s f 0 1
      else modFloe s f fun x => { x with imCe := min 255 (x.imCe + 1) }
    | _ => s
  | .bad =>
    match canalWhere s (8 * w) with
    | .neve o => modFab s fun f => { f with nevePoison := addOnce f.nevePoison (o / 8) }
    | .ddr o => if s.fab.ddrPoison.contains (o / 8) then s else ddrBad s (o / 8)
    | .floe f o =>
      if !floeStopped s f ∨ 0x50000 ≤ o ∨ (fmemOf s f).poison.contains (o / 8) then s
      else if o < 0x40000 then noteErrors (modFmem s f fun m => { m with poison := addOnce m.poison (o / 8) }) f 1 0
      else imemBad s f (o / 8 - 32768)
    | _ => s

/-- What the code checks of a read of [a, a + n) find; errs names words by Canal word address (R43). -/
def memFind (s : State) (a n : Nat) (errs : List (Nat × Ecc)) : State :=
  (errs.filter fun e => (wordsOf a n).contains e.1).foldl (fun s e => wordFound s e.1 e.2) s

/-- What the reads made for the merge of a write of [a, a + n) find: the words written in part; an uncorrectable one of Névé is
counted as any read's (R43, R135). -/
def mergeFind (s : State) (a n : Nat) (errs : List (Nat × Ecc)) : State :=
  let part := (wordsOf a n).filter fun w => !(fullWords a n).contains w
  (errs.filter fun e => part.contains e.1).foldl (fun s e =>
    let fresh : Option Nat := match canalWhere s (8 * e.1), e.2 with
      | .neve o, .bad => if s.fab.nevePoison.contains (o / 8) then none else some o
      | _, _ => none
    let s := wordFound s e.1 e.2
    match fresh with | some o => neveUeAt s o | none => s) s

/-! ## Reading a stored frame (R43, R310) -/

/-- A consumer reads a stored frame of port n: what the code checks find is counted, and whether a word is poisoned. -/
def frameRead (s : State) (n : Nat) (f : Stored_) (errs : List (Nat × Ecc)) : Bool × State :=
  let sp := frameSpans s n f
  let s := sp.foldl (fun s p => memFind s p.1 p.2 errs) s
  (f.poison || sp.any (fun p => memPoisoned s p.1 p.2), sp.foldl (fun s p => neveReadUe s p.1 p.2) s)

/-- The same for the frame a packet lies in; a packet of no frame tells by itself. -/
def pktRead (s : State) (p : Pkt) (errs : List (Nat × Ecc)) : Bool × State :=
  match p.frame with
  | none => (p.poison, s)
  | some (n, id) => match storedOf s n id with
    | none => (p.poison, s)
    | some f => let r := frameRead s n f errs; (p.poison || r.1, r.2)

end Sys2Proof.Machine
end

