-- ==== Sys2Proof/Machine/Basin.lean ====
section
/-! DEFINITION. The events and commands of Basins and replay rings (chapter 07). -/

namespace Sys2Proof.Machine

/-! ## Arrival and playout -/

/-- The request a Basin manager makes for an accepted SRTP packet (R216, R232, R420). -/
def basinReq (s : State) (c k : Nat) (p : Pkt) : RimeReq :=
  let ch := chanOf s c
  let weir := match ch.core.rxSrc with | .stream n => (rxsOf s n).p.weir | _ => false
  { op := 2, done := 1, weir := weir, leg := b2n p.legB, slot := k, len := p.payload.length - tagBytes s (some k),
    hdr := p.head.length, index := 0, inPtr := 0, outPtr := (basinOf s c).addr p.seq + 64, kind := 0, atomic := false,
    chamber := 0, target := 0, prio := 0, group := 0xFF, tag := 0, rsvd := false, from_ := 0, who := c, seq := p.seq,
    pkt := p.head ++ p.payload }

/-- A word of Basin c's head is poisoned (R208, R246). -/
def headHurt (s : State) (c : Nat) : Bool :=
  let b := basinOf s c
  (numsFrom ((partBase s 2 + b.headAt) / 8) (b.head / 8)).any s.fab.nevePoison.contains

/-- A channel whose Basin head has a poisoned word faults, at the manager's head access path (R79, R246). -/
def headFault (s : State) (c : Nat) : State := faultChan s c (siteMacro (168 + mgrOf s c) 0)

/-- Manager r's member c takes its packet: classified, one to decrypt going on to Rime; a poisoned Basin head faults the channel
(R216, R232, R246). -/
def takePkt (s : State) (r c : Nat) (p : Pkt) : State :=
  if headHurt s c then headFault s c
  else
    match arrive s c p with
    | (.discarded, s) => s
    | (.accepted, s) =>
      match rxKey (chanOf s c) p.legB with
      | some k => rimePut s r (basinReq s c k p)
      | none => s

/-- PACKET_ARRIVAL (R216, R310, R321): the oldest work item of manager r, whose members take their packets in turn; one whose frame
reads poisoned from the receive store is discarded and counted once. errs: what the read of the frame finds. While the manager cannot
post, its input is held (R218). -/
def execPacketArrival (x : UnitRead) (s : State) : Out :=
  let r := x.no
  let errs := x.errs
  match arrOf s r with
  | [] => .next s
  | a :: _ =>
    if unitStalled s (168 + r) then .next s
    else
      let s := modMedia s fun m => { m with arr := m.arr.erase a }
      match a.2.head? with
      | none => fin s
      | some q =>
        let (bad, s) := pktRead s q.2 errs
        if bad || a.2.any (fun x => x.2.poison) then fin (match q.2.frame with | some (n, _) => portCount s n 17 1 | none => s)
        else fin (a.2.foldl (fun s x => takePkt s r x.1 x.2) s)

/-- The timestamp-step limit of R221: DEPTH_MAX and W packet times. -/
def stepLimit (s : State) (ch : Chan) : Nat := ch.blk.depthMax * 6 * tsClock s ch / 48000 + ch.blk.w * tsStep s ch

/-- Silence signalled (R221). -/
def Basin.signalled (b : Basin) : Bool := b.silence || b.lastSid

/-- What the position is (R221). -/
inductive Verdict where
  | resync (x : Slot) | silent | present (x : Slot) | missing
deriving DecidableEq, Repr

/-- The decision of R221 at a playout instant. -/
def verdict (s : State) (c : Nat) : Verdict :=
  let ch := chanOf s c
  let b := basinOf s c
  let due : Bool := b.slots.any fun p => p.2.st == .ready && decide (tsDiff p.2.ts b.x ≤ 0)
  match (if b.ready b.next then b.slot b.next else none) with
  | some e =>
    let d := tsDiff e.ts b.x
    if !b.signalled && decide ((stepLimit s ch : Int) < d.natAbs) then .resync e
    else if decide ((tsStep s ch : Int) < d) && (e.marker || b.signalled) then .silent
    else .present e
  | none => if b.signalled && !due then .silent else .missing

/-- After a position: the next instant, the expected timestamp, and once a second the steering of R229. -/
def advance (s : State) (c : Nat) (x : Nat) : State :=
  let ch := chanOf s c
  let s := modBasin s c fun b => { b with instant := b.instant + spacing ch b, x := x % 2 ^ 32 }
  let s := gradual s c
  let sec := nowNs s / 1000000000
  if ch.blk.drift = .sluice ∧ (basinOf s c).lastSec < sec then
    modBasin (steer s c) c fun b => { b with lastSec := sec }
  else s

/-- A position of the present NEXT without a slot. -/
def emptyPos (b : Basin) (status : Nat) : Pos :=
  { status := status, seq := b.next, ts := b.x, disc := b.disc, stretch := false, auth := false, bodyUe := false,
    fecNext := false, ptr := 0, slot := none }

/-- A missing position of the present NEXT: the entry behind it serves FEC where it is ready (R223). -/
def missingPos (b : Basin) : Pos :=
  let n1 := (b.next + 1) % 65536
  { emptyPos b 2 with fecNext := b.ready n1, ptr := if b.ready n1 then b.addr n1 else 0 }

/-- Hand over silent (R221, R228). -/
def playSilent (s : State) (c : Nat) : State :=
  let b := basinOf s c
  let s := bsnCount (handOver s c (emptyPos b 1)) c 6
  let s := modBasin s c fun b => { b with silence := true, silentFor := b.silentFor + 1 }
  depthAtSilence (advance s c (b.x + tsStep s (chanOf s c))) c

/-- Hand over missing: NEXT advances, the entry there is gone (R221, R223, R232, R233); ue: the slot's copy was poisoned
(R222). -/
def playMissing (s : State) (c : Nat) (ue : Bool) : State :=
  let b := basinOf s c
  let auth : Bool := match b.slot b.next with | some x => x.st == .failed && x.seq == b.next | none => false
  let prov : Bool := match b.slot b.next with | some x => x.st == .provisional && x.seq == b.next | none => false
  let p := { missingPos b with auth := auth, bodyUe := ue }
  let s := bsnCount (handOver s c p) c 5
  let s := if ue then bsnCount s c 9 else s
  let s := if prov then bsnCount s c 7 else s
  let s := modBasin s c fun b =>
    { b.dropSlot b.next with next := (b.next + 1) % 65536, hist := b.hist <<< 1, silence := false, silentFor := 0 }
  advance s c (b.x + tsStep s (chanOf s c))

/-- Hand over present (R221, R222). -/
def playPresent (s : State) (c : Nat) (x : Slot) : State :=
  let b := basinOf s c
  let a := b.addr b.next
  if memPoisoned s a b.slotZ then playMissing s c true
  else
    let p := { emptyPos b 0 with seq := x.seq, ts := x.ts, ptr := a, slot := some (a, x) }
    let s := handOver s c p
    let s := modBasin s c fun b =>
      { b.dropSlot b.next with next := (b.next + 1) % 65536, hist := (b.hist <<< 1) ||| 1, silence := false,
                               lastSid := x.sid, silentFor := if x.sid then b.silentFor + 1 else 0 }
    advance s c (x.ts + tsStep s (chanOf s c))

/-- Hand over one inserted position (R228, R230). -/
def playStretch (s : State) (c : Nat) : State :=
  let b := basinOf s c
  let s := bsnCount (handOver s c { missingPos b with stretch := true }) c 5
  let last := b.stretch == 1 && (chanOf s c).blk.drift != .slip
  let s := modBasin s c fun b => { b with stretch := b.stretch - 1, silence := false, silentFor := 0,
                                          disc := b.disc || last }
  advance s c (b.x + tsStep s (chanOf s c))

/-- The next playout instant: on the RATE grid; with EPOCH that of the entry there, where it is due within a packet time of the
timestamp expected, and else of that timestamp (R220). -/
def nextInstant (s : State) (c : Nat) : Nat :=
  let ch := chanOf s c
  let b := basinOf s c
  if ch.blk.epoch then
    match (if b.ready b.next then b.slot b.next else none) with
    | some e => if (tsDiff e.ts b.x).natAbs ≤ tsStep s ch then epochInstant s ch b.depth e.ts e.rxTime else epochInstant s ch b.depth b.x 0
    | none => epochInstant s ch b.depth b.x 0
  else b.playAt ch.core.rate

/-- A running Basin whose playout instant has come, with no earlier arrival left to classify (R219, R220). Arrivals held while the
manager cannot post hold no decision (R218, R224). -/
def playoutDue (s : State) (c : Nat) : Bool :=
  let b := basinOf s c
  (chanOf s c).st == .running && b.on_ && b.anchored && decide (nextInstant s c ≤ instantNow s)
    && (!s.media.arr.any (fun a => a.2.any fun x => x.1 == c) || unitStalled s (168 + mgrOf s c))

/-- PLAYOUT_DECISION (R221): the position is handed over present, silent or missing, or the Basin resyncs. The target is recomputed
at every position (R227). -/
def execPlayoutDecision (c : Nat) (s : State) : Out :=
  if !playoutDue s c then .next s
  else if headHurt s c then fin (headFault s c)
  else
    let i := nextInstant s c
    let s := if (chanOf s c).blk.epoch then modBasin s c fun b => { b with instant := i } else s
    let s := retarget s c
    if 0 < (basinOf s c).stretch then fin (playStretch s c)
    else match verdict s c with
    | .silent => fin (playSilent s c)
    | .missing => fin (playMissing s c false)
    | .present x => fin (playPresent s c x)
    | .resync x =>
      let p : Pkt := { seq := x.seq, ts := x.ts, ssrc := x.ssrc, marker := x.marker, pt := x.pt, rxTime := x.rxTime,
                       legB := false, frame := none, poison := false, head := [], payload := [], pad := 0 }
      fin (resync s c 1 (some x.seq) p)

/-- STRETCH_INSERT (R228): after ADAPT_WAIT without silence an increase is made by inserted positions. -/
def execStretchInsert (c : Nat) (s : State) : Out :=
  let ch := chanOf s c
  let b := basinOf s c
  let waited := match b.upSince with
    | some t => decide (t + ch.live.adaptWait * 500000000 ≤ nowNs s)
    | none => false
  if ch.st != .running || !b.anchored || !ch.blk.adaptive || ch.core.tdmSrc || ch.core.codec.linear
      || decide (b.target ≤ b.depth) || !waited || b.stretch != 0 then .next s
  else
    let n := ceilDiv ((b.target - b.depth) * 6) ch.rxTicks
    let s := modBasin s c fun b =>
      { b with stretch := n, depth := b.depth + n * ch.rxTicks / 6, upSince := none, lowSince := none }
    fin (chanEv (bsnCount s c 13) c 0x29 false false (basinOf s c).depth)

/-- BSN_DRIFT_LIMIT (R229): ε has stood at its limit for 10 s while the error grew; posted once. -/
def execBsnDriftLimit (c : Nat) (s : State) : Out :=
  let b := basinOf s c
  if (chanOf s c).st != .running || (chanOf s c).blk.drift != .sluice || decide (b.epsSecs < 10) || b.epsPosted
      || b.eps.natAbs != 20000 then .next s
  else fin (chanEv (modBasin s c fun b => { b with epsPosted := true }) c 0x2A false false (b.eps / 10))

/-- The ready entry nearest NEXT (R230). -/
def oldestReady (b : Basin) : Option Slot :=
  (b.slots.filter fun p => p.2.st == .ready).foldl (fun best p => match best with
    | none => some p.2
    | some x => if seqSub p.2.seq b.next < seqSub x.seq b.next then some p.2 else some x) none

/-- SLIP (R230): at a whole second, the mean depth of the last second against the present depth. -/
def execSlip (c : Nat) (s : State) : Out :=
  let ch := chanOf s c
  let b := basinOf s c
  let sec := nowNs s / 1000000000
  if ch.st != .running || ch.blk.drift != .slip || b.depthN = 0 || decide (sec ≤ b.lastSec) then .next s
  else
    let mean := b.depthSum / (b.depthN : Int)
    let cur : Int := b.depth * 125000
    let pt : Int := ch.rxTicks * 1000000 / 48
    let s := modBasin s c fun b => { b with depthSum := 0, depthN := 0, lastSec := sec }
    if cur + pt < mean then
      match oldestReady b with
      | none => fin s
      | some x =>
        let at_ := x.seq == b.next
        fin (bsnCount (modBasin s c fun b =>
          { b.dropSlot x.seq with next := if at_ then (b.next + 1) % 65536 else b.next,
                                  hist := if at_ then b.hist <<< 1 else b.hist,
                                  x := if at_ then (b.x + tsStep s ch) % 2 ^ 32 else b.x }) c 15)
    else if mean + pt < cur then fin (bsnCount (modBasin s c fun b => { b with stretch := b.stretch + 1 }) c 15)
    else fin s

/-! ## Basin commands (R212, R244) -/

/-- Bytes at the top of usable capacity claimed by other units (R212). -/
def claimedTop : Nat := 71 * 1048576

/-- NX_BSN_POOL (R212). -/
def nxBsnPool (base size : Nat) (_ : NxHdr) (s : State) : NxRes :=
  let u := ddrUsable s
  let held := (s.media.allocs.filter fun a => a.kind == 1 || a.kind == 2).length
  if base % 65536 ≠ 0 ∨ size % 65536 ≠ 0 ∨ u < base + size then no 0x0166
  else if u < base + size + claimedTop then no 0x0167
  else if held ≠ 0 then .refuse 0x0168 noObj held
  else ok (modMedia s fun m => { m with pool := some (base, size) })
/-- The catalogue row of NxBsnPool. -/
def spNxBsnPool : NxSpec :=
  { opcode := 0x0401, cls := 0, states := [.ready] }
def execNxBsnPool (b : Nat) (f : Fmt) (base size : Nat) (s : State) : Out :=
  runNx spNxBsnPool b f (.nxBsnPool b f base size) (nxBsnPool base size) s

/-- NX_BSN_STATS (R244): 16 counters, then depth and target in 125 µs steps, m_q in ns, ε in 0.01 ppm. -/
def nxBsnStats (h : NxHdr) (s : State) : NxRes :=
  let b := basinOf s h.idx
  let vals := ((nums 16).map fun k => RVal.ctr (tabGet 0 b.ctr k))
    ++ [.val b.depth, .val b.target, .val b.margin, .val b.eps]
  .done (if h.clear then modBasin s h.idx fun b => { b with ctr := [] } else s) (replyOf [vals]) 0
/-- The catalogue row of NxBsnStats. -/
def spNxBsnStats : NxSpec :=
  { opcode := 0x0402, cls := 1, states := rsr, audit := false, counts := true }
def execNxBsnStats (b : Nat) (f : Fmt) (s : State) : Out :=
  runNx spNxBsnStats b f (.nxBsnStats b f)
    nxBsnStats s

/-! ## Ring commands (R235-R242) -/

/-- Legal in one ring state. -/
def ringIn (st : RingSt) (s : State) (k : Nat) : Bool := (ringOf s k).st == st

/-- NX_RING_DEFINE (R235, R242); a channel number out of range is refused with 0x0106 (log 22). -/
def nxRingDefine (chan span : Nat) (h : NxHdr) (s : State) : NxRes :=
  if 8192 ≤ chan then no 0x0106
  else ok (modRing s h.idx fun _ => { Ring.reset with st := .defined, chan := chan, span := span })
/-- The catalogue row of NxRingDefine. -/
def spNxRingDefine : NxSpec :=
  { opcode := 0x0410, cls := 4, states := rs, legal := ringIn .free }
def execNxRingDefine (b : Nat) (f : Fmt) (chan span : Nat) (s : State) : Out :=
  runNx spNxRingDefine b f (.nxRingDefine b f chan span)
    (nxRingDefine chan span) s

/-- Ring contexts manager r holds (R235). -/
def ringCtxs (s : State) (r : Nat) : Nat :=
  (s.media.rings.filter fun p => (p.2.st == .enabled || p.2.st == .rewinding) && p.2.mgr == r).length

/-- NX_RING_ENABLE (R235, R243). -/
def nxRingEnable (h : NxHdr) (s : State) : NxRes :=
  let r := ringOf s h.idx
  let ch := chanOf s r.chan
  let nb := ceilDiv (r.span * 48000) ch.rxTicks
  let z := (basinOf s r.chan).slotZ
  let me := objNo 4 h.idx
  checked [(ch.core.usesBasin && ch.st.live, 0x016A, objNo 1 r.chan), (1 ≤ r.span && r.span ≤ 120, 0x016B, me),
           (decide (ringCtxs s (mgrOf s r.chan) < 256), 0x0323, me), ((poolFit s (nb * z)).isSome, 0x0324, me)]
    (match poolFit s (nb * z) with
     | none => no 0x0324
     | some base =>
       ok (modRing (poolTake s 1 h.idx base (nb * z)) h.idx fun r =>
         { r with st := .enabled, mgr := mgrOf s r.chan, nb := nb, z := z, body := base, written := 0, mark := none,
                  markLost := false, readPos := 0, dropping := false, bodyUe := false, detached := false, rew := none }))
/-- The catalogue row of NxRingEnable. -/
def spNxRingEnable : NxSpec :=
  { opcode := 0x0411, cls := 4, states := [.service], legal := ringIn .defined }
def execNxRingEnable (b : Nat) (f : Fmt) (s : State) : Out :=
  runNx spNxRingEnable b f (.nxRingEnable b f)
    nxRingEnable s

/-- NX_RING_MARK (R237, R239): none sets the mark FLOATING. -/
def nxRingMark (m : Option Nat) (h : NxHdr) (s : State) : NxRes :=
  let r := ringOf s h.idx
  match m with
  | some i =>
    if r.oldest ≤ i ∧ i ≤ r.written then ok (modRing s h.idx fun r => { r with mark := some i, dropping := false })
    else .refuse 0x0169 (objNo 4 h.idx) 0
  | none => ok (modRing s h.idx fun r => { r with mark := none, dropping := false })
/-- The catalogue row of NxRingMark. -/
def spNxRingMark : NxSpec :=
  { opcode := 0x0412, cls := 4, states := rsr, legal := ringIn .enabled }
def execNxRingMark (b : Nat) (f : Fmt) (m : Option Nat) (s : State) : Out :=
  runNx spNxRingMark b f (.nxRingMark b f m)
    (nxRingMark m) s

/-- Ring n records at present (R236). -/
def recording (s : State) (n : Nat) : Bool :=
  let c := (ringOf s n).chan
  (chanOf s c).st == .running && (ringsOf s c).contains n

/-- NX_RING_REWIND (R240): while the ring records the reply is given when the rewind resolves, at the next position boundary; else it
resolves, and completes, at once (log 34). -/
def nxRingRewind (span : Nat) (h : NxHdr) (s : State) : NxRes :=
  let r := ringOf s h.idx
  let t := r.written - span
  let s' := modRing s h.idx fun r => { r with st := .rewinding, rew := some (t, r.written, false) }
  if recording s h.idx then
    if replyFits s h 16 then .later s' h.idx else .refuse 0x0301 noObj 16
  else .done (resolveRewind s' h.idx) (rewindReply r.written (max t r.markAt) false) 0
/-- The catalogue row of NxRingRewind. -/
def spNxRingRewind : NxSpec :=
  { opcode := 0x0413, cls := 4, states := rsr, legal := ringIn .enabled }
def execNxRingRewind (b : Nat) (f : Fmt) (span : Nat) (s : State) : Out :=
  runNx spNxRingRewind b f (.nxRingRewind b f span)
    (nxRingRewind span) s

/-- NX_RING_READ (R241, R460): the copy goes on after the execution instant. -/
def nxRingRead (count addr : Nat) (h : NxHdr) (s : State) : NxRes :=
  if replyFits s h 24 then .long s (.ringRead h.idx count addr) else .refuse 0x0301 noObj 24
/-- The catalogue row of NxRingRead. -/
def spNxRingRead : NxSpec :=
  { opcode := 0x0414, cls := 4, states := rsr, audit := false, legal := ringIn .enabled }
def execNxRingRead (b : Nat) (f : Fmt) (count addr : Nat) (s : State) : Out :=
  runNx spNxRingRead b f (.nxRingRead b f count addr) (nxRingRead count addr) s

/-- Blocks a read of at most n copies: first index and number; none below M (R241). -/
def ringSpan (r : Ring) (n : Nat) : Nat × Nat :=
  let first := max r.readPos r.markAt
  (first, min n (r.written - first))

/-- The bytes of blocks i, i + 1, … of a ring. -/
def ringBlocks (s : State) (r : Ring) (i n : Nat) : List Byte :=
  ((numsFrom i n).map fun k => memRead s (r.body + k % r.nb * r.z) r.z).flatten

/-- The end of NX_RING_READ: the blocks go to host memory at addr and the read position moves on; the reply gives the first
index, the number of blocks, and READ_SKIP (R241). -/
def ringReadEnd (s : State) (l : LongCmd) (n count addr : Nat) : State :=
  let r := ringOf s n
  let x := ringSpan r count
  let s := { s with hostMem := writeBytes s.hostMem addr (ringBlocks s r x.1 x.2) }
  let s := modRing s n fun r => { r with readPos := x.1 + x.2 }
  endLong s l 0 0 (replyOf [[nv x.1, nv x.2, .ctr r.readSkip]])

/-- NX_RING_DISABLE (R242): the body is released, the blocks are lost. -/
def nxRingDisable (h : NxHdr) (s : State) : NxRes :=
  let s := poolFree s 1 h.idx
  ok (endIllegal (modRing s h.idx fun r => { r with st := .defined, written := 0, nb := 0, z := 0, body := 0, mgr := 0,
                                                    mark := none, readPos := 0, detached := false, rew := none }))
/-- The catalogue row of NxRingDisable. -/
def spNxRingDisable : NxSpec :=
  { opcode := 0x0415, cls := 4, states := rs, legal := ringIn .enabled }
def execNxRingDisable (b : Nat) (f : Fmt) (s : State) : Out :=
  runNx spNxRingDisable b f (.nxRingDisable b f)
    nxRingDisable s

/-- NX_RING_FREE (R242). -/
def nxRingFree (h : NxHdr) (s : State) : NxRes := ok (modRing s h.idx fun _ => Ring.reset)
/-- The catalogue row of NxRingFree. -/
def spNxRingFree : NxSpec :=
  { opcode := 0x0416, cls := 4, states := rs, legal := ringIn .defined }
def execNxRingFree (b : Nat) (f : Fmt) (s : State) : Out :=
  runNx spNxRingFree b f (.nxRingFree b f) nxRingFree s

/-- STATUS of a ring (R244): MARK_LOST, DETACHED, PINNED, BODY_UE in bits 0 to 3 (log 35). -/
def ringStatus (r : Ring) : Nat :=
  let on_ := r.st == .enabled || r.st == .rewinding
  b2n r.markLost + 2 * b2n (on_ && r.detached) + 4 * b2n r.mark.isSome
    + 8 * b2n r.bodyUe

/-- NX_RING_STATS (R244). -/
def nxRingStats (h : NxHdr) (s : State) : NxRes :=
  let r := ringOf s h.idx
  let vals : List RVal := [.ctr r.lostCnt, .ctr r.readSkip, .ctr r.drop, .val r.markAt, .val r.readPos,
    .val ((r.written : Int) - 1), .val (ringStatus r)]
  .done (if h.clear then modRing s h.idx fun r =>
    { r with lostCnt := 0, readSkip := 0, drop := 0, markLost := false } else s) (replyOf [vals]) 0
/-- The catalogue row of NxRingStats. -/
def spNxRingStats : NxSpec :=
  { opcode := 0x0417, cls := 4, states := rsr, audit := false, counts := true }
def execNxRingStats (b : Nat) (f : Fmt) (s : State) : Out :=
  runNx spNxRingStats b f (.nxRingStats b f)
    nxRingStats s

end Sys2Proof.Machine
end

