-- ==== Sys2Proof/Machine/Dsp.lean ====
section
/-! DEFINITION. The standard functions of a channel: decoding, concealment, gains, cancelling, noise, voice activity, tones, encoding,
and the ends they read and write (R73, R83-R108, R253-R257). What the spec prints is computed; what it leaves to a
Recommendation comes with the action or is a free value (log 103). -/

namespace Sys2Proof.Machine

/-! ## Samples (R93, R95, R255) -/

/-- A Q1.31 sample in n bits: exact where it fits, else rounded up or down, and never past the greatest value. -/
def narrow (n : Nat) (x : Int) : Int :=
  let q := x / 2 ^ (32 - n)
  if x % 2 ^ (32 - n) = 0 then q else min (2 ^ (n - 1) - 1) (if Config.roundUp n x then q + 1 else q)

/-- A list of bytes in pieces of w. -/
def bytePieces (w : Nat) (l : List Byte) : List (List Byte) := (nums (l.length / w)).map fun i => (l.drop (w * i)).take w

/-- G.711 µ-law, from and to a code byte, in the Recommendation's 16-bit scale (log 171). -/
def ulawDec (b : Nat) : Int :=
  let u := 255 - b
  let v : Int := ((u % 16 * 8 + 132) * 2 ^ (u / 16 % 8) : Nat) - 132
  if 128 ≤ u then -v else v
def ulawEnc (v : Int) : Nat :=
  let m := min 32635 v.natAbs + 132
  let e := (((nums 8).reverse).find? fun k => decide (2 ^ (k + 7) ≤ m)).getD 0
  255 - ((if v < 0 then 128 else 0) + e * 16 + m / 2 ^ (e + 3) % 16)
/-- G.711 A-law. -/
def alawDec (b : Nat) : Int :=
  let a := b ^^^ 0x55
  let g := a / 16 % 8
  let t : Nat := (a % 16 * 16 + if g = 0 then 8 else 264) * 2 ^ (g - 1)
  if 128 ≤ a then t else -t
def alawEnc (v : Int) : Nat :=
  let m := (if v < 0 then (-v - 1) / 8 else v / 8).toNat
  let g := ((nums 8).find? fun k => decide (m < 2 ^ (k + 5))).getD 8
  let a := if g = 8 then 127 else g * 16 + m / 2 ^ max 1 g % 16
  a ^^^ (if v < 0 then 0x55 else 0xD5)

/-- The samples a payload decodes to; those of a codec left to its Recommendation come as raw. An AES3 sample is the whole 64-bit
word, unaltered (R95). -/
def decodeSamples (cd : Codec) (l : List Byte) (raw : List Int) : List Int :=
  match cd with
  | .l16 => (bytePieces 2 l).map fun b => (BitVec.ofNat 16 (ofBe b)).toInt * 65536
  | .l24 => (bytePieces 3 l).map fun b => (BitVec.ofNat 24 (ofBe b)).toInt * 256
  | .aes3 => (bytePieces 8 l).map fun b => (ofBe b : Int)
  | .g711u => l.map fun b => ulawDec b.toNat * 65536
  | .g711a => l.map fun b => alawDec b.toNat * 65536
  | _ => raw

/-- The payload of samples; that of a codec left to its Recommendation comes as enc. -/
def encodeSamples (cd : Codec) (xs : List Int) (enc : List Byte) : List Byte :=
  match cd with
  | .l16 => (xs.map fun x => beBytes (BitVec.ofInt 16 (narrow 16 x)).toNat 2).flatten
  | .l24 => (xs.map fun x => beBytes (BitVec.ofInt 24 (narrow 24 x)).toNat 3).flatten
  | .aes3 => (xs.map fun x => beBytes x.toNat 8).flatten
  | .g711u => xs.map fun x => BitVec.ofNat 8 (ulawEnc (narrow 16 x))
  | .g711a => xs.map fun x => BitVec.ofNat 8 (alawEnc (narrow 16 x))
  | _ => enc

/-- Cut or pad to n samples. -/
def fitSamples (n : Nat) (xs : List Int) : List Int := (xs ++ List.replicate (n - xs.length) 0).take n
/-- The last n samples. -/
def lastSamples (n : Nat) (xs : List Int) : List Int := xs.drop (xs.length - n)
/-- Change every sample, with its place. -/
def mapAt (f : Nat → Int → Int) (xs : List Int) : List Int := (nums xs.length).map fun i => f i (xs.getD i 0)

/-- New audio blended in over its first n samples (R92, R106). -/
def blendIn (n : Nat) (old new : List Int) : List Int :=
  mapAt (fun i y => if n ≤ i then y
    else let w : Int := (Config.fade n i).toNat; (old.getD i 0 * (65536 - w) + y * w) / 65536) new

/-- The factor of a gain in 0.1 dB, in 2^-16. -/
def gainFactor (g : Int) : Int := if g = 0 then 65536 else (Config.gain g : Int)
/-- A gain on its way from g0 to g1 over n samples: the samples after it, and how many were saturated (R83, R111). -/
def applyGain (g0 g1 : Int) (n : Nat) (xs : List Int) : List Int × Nat :=
  let f (i : Nat) : Int := if n ≤ i + 1 then gainFactor g1 else gainFactor g0 + (gainFactor g1 - gainFactor g0) * (i + 1) / n
  let ys := mapAt (fun i x => x * f i / 65536) xs
  (ys.map fun y => (mixOut y).1, (ys.filter fun y => (mixOut y).2).length)

/-- Mean square of samples, in units of 2^-32 of full scale squared. -/
def meanSquare (xs : List Int) : Nat := (xs.map fun x => x.natAbs / 65536 * (x.natAbs / 65536)).sum / xs.length
/-- Level of samples in 0.1 dB. -/
def levelOf (xs : List Int) : Int := Config.level (meanSquare xs)

/-! ## Smoothed values (R88, R111) -/

/-- Smoothed value k at tick now: over 1 s the mean of ERL, ERLE and residual, the RMS and the peak level of a path; over 10 s the share
judged speech in 0.1 % (log 172). -/
def smoothed (ms : List Meas) (now k : Nat) : Int :=
  let l := ms.filter fun m => m.k == k && decide (now < m.t + if k = 7 then 480000 else 48000)
  let sum := (l.map fun m => m.v).sum
  let n := (l.map fun m => m.n).sum
  if n = 0 then 0
  else if k < 3 then sum / n
  else if k = 7 then sum * 1000 / n
  else if k % 2 = 1 then Config.level (sum.toNat / n)
  else Config.level ((l.map fun m => m.v.toNat).foldl max 0)

/-- Measurements are taken at tick t, and the smoothed values follow. -/
def measureDsp (s : State) (c t : Nat) (l : List Meas) : State :=
  let s := modDsp s c fun d => { d with meas := (d.meas.filter fun m => decide (t < m.t + 480000)) ++ l }
  let ms := (dspOf s c).meas
  modChan s c fun x => { x with smooth := (l.map fun m => m.k).foldl (fun t' k => tabSet 0 t' k (smoothed ms t k)) x.smooth }

/-- The level meter of a path (R73, R111): RMS as value k, peak as value k + 1. -/
def meter (t k : Nat) (xs : List Int) : List Meas :=
  let sq (x : Int) : Nat := x.natAbs / 65536 * (x.natAbs / 65536)
  [⟨k, t, ((xs.map sq).sum : Nat), xs.length⟩, ⟨k + 1, t, ((xs.map sq).foldl max 0 : Nat), 1⟩]

/-! ## Ends (R69, R253-R257, R269) -/

/-- Sluice context number n of channel c with profile p (R255, R289). -/
def ownCtx (s : State) (c p n : Nat) : Option Nat :=
  (((nums 16).map fun l => ((laneOf s l).bound.filter fun x => x.2.owner == some c && x.2.prof == p).map fun x =>
    512 * l + x.1).flatten)[n]?

/-- Samples pass through a bound context, the first at sample number first of RATE (R229, R255). -/
def throughCtx (s : State) (k first rate : Nat) (xs : List Int) : List Int × State :=
  let l := laneOf s (k / 512)
  match ctxOf s k with
  | none => (xs, s)
  | some x =>
    match l.prof x.prof with
    | none => (xs, s)
    | some p =>
      let r0 : SluRun := { c := x, out := [], sat := 0, mark := 0, moved := false, late := 0, slip := 0 }
      let r := sluLoop l.coef p (ctxEps s x) (first * 96 / rate) 0 xs r0
      (r.out.reverse, setCtx s k (some { r.c with sat := sat64 (r.c.sat + r.sat) }))

/-- Bus b's output samples at 48 kHz ticks t to t + n − 1; zeros where the bus has no block there (R253, R259, R269). -/
def busSamples (s : State) (b t n : Nat) : List Int :=
  (numsFrom t n).map fun k => ((readSource s (8192 + b) (k / 6)).1).getD (k % 6) 0

/-- Samples at 48 kHz ticks from t follow those held: the blocks that are then whole, and the samples of the last block if it is
not. -/
def wholeBlocks (held : List (Nat × Int)) (t : Nat) (ys : List Int) : List (Nat × List Int) × List (Nat × Int) :=
  let all := held ++ (nums ys.length).map fun i => (t + i, ys.getD i 0)
  let js := (all.map fun p => p.1 / 6).eraseDups
  let full := (js.map fun j => (j, (all.filter fun p => p.1 / 6 == j).map fun p => p.2)).filter fun b => b.2.length == 6
  let last := js.foldl max 0
  (full, all.filter fun p => p.1 / 6 == last && !full.any fun b => b.1 == last)

/-- Write the blocks that samples at 48 kHz ticks from t complete into channel c's source ring, and keep the rest (R257). -/
def busPut (s : State) (c t : Nat) (ys : List Int) : State :=
  let b := wholeBlocks (dspOf s c).bus t ys
  let s := modDsp s c fun d => { d with bus := b.2 }
  match sourceRing s c with
  | none => s
  | some (base, n) => b.1.foldl (fun s b => memWrite s (base + b.1 % n * 32) (ringEntry b.1 b.2)) s

/-- The tap ring at a position of the selection table (R562). -/
def tapRingBase (s : State) (pos : Nat) : Nat := 0x1000000000 + partBase s 6 + 512 * pos

/-- The tap samples of a path, from 48 kHz tick t: whole blocks go into its tap ring while the selection in force names it, with bit 0
of the block number's top byte where a sample was concealed (R562). -/
def tapPut (s : State) (c : Nat) (tx : Bool) (t : Nat) (ys : List Int) (conc : Bool) : State :=
  match s.tap.table.bind fun u => u.entries.findIdx? fun e => e.chan == c && e.tx == tx with
  | none => s
  | some pos =>
    let d := dspOf s c
    let b := wholeBlocks (if tx then d.tapTx else d.tapRx) t ys
    let old := if tx then false else d.tapConc
    let s := modDsp s c fun d =>
      if tx then { d with tapTx := b.2 } else { d with tapRx := b.2, tapConc := conc && !b.2.isEmpty }
    b.1.foldl (fun s b =>
      let flag := b2n (conc || (old && b.1 == t / 6))
      memWrite s (tapRingBase s pos + b.1 % 16 * 32) (ringEntry (b.1 % 2 ^ 56 + flag * 2 ^ 56) b.2)) s

/-- A sample for slot j of a TDM port, of sample number k: the word that goes through flume 434 + p (log 170). -/
def tdmWord (j k : Nat) (x : Int) : FItem :=
  { words := [⟨BitVec.ofNat 64 ((BitVec.ofInt 32 x).toNat + j * 2 ^ 32 + k % 2 ^ 26 * 2 ^ 38), false⟩], side := 0 }

/-- Output of a path to its TDM or BUS sink, the first sample presented at sample number first of RATE (R254, R255). -/
def toSink (s : State) (c first : Nat) (e : PathEnd) (xs : List Int) : State :=
  let rate := (chanOf s c).core.rate
  match e with
  | .tdm p j => pushFlume s (434 + p) ((nums xs.length).map fun i => tdmWord j (first + i) (xs.getD i 0))
  | .bus _ =>
    let up := if rate = 8 then some 2 else if rate = 16 then some 4 else none
    match up.bind fun p => ownCtx s c p 0 with
    | some k => let o := throughCtx s k first rate xs; busPut o.2 c (first * 48 / rate) o.1
    | none => busPut s c (first * 48 / rate) xs
  | _ => s

/-- Input of a path from bus b: a frame of bus output from 48 kHz tick t, at RATE; n: which of the channel's BUS sources (R253,
R255). -/
def fromBus (s : State) (c b t n : Nat) : List Int × State :=
  let rate := (chanOf s c).core.rate
  let xs := busSamples s b t (frameOf s c)
  let down := if rate = 8 then some 3 else if rate = 16 then some 5 else none
  match down.bind fun p => ownCtx s c p n with
  | some k => throughCtx s k t 48 xs
  | none => (xs, s)

/-! ## Tones (R100-R104) -/

/-- A deviation within a tolerance. -/
def inTol (tol : Nat) (d : Int) : Bool := decide (d.natAbs ≤ tol)

/-- What a detector makes of a tone seen: onset code, argument, minimum duration in ms, ARG of the onset event; none where the
detector is off or its criteria are not met (R100, R101, R103). -/
def toneHeard (s : State) (ch : Chan) : ToneSeen → Option (Nat × Nat × Nat × Int)
  | .dtmf g d1 d2 l1 l2 =>
    let sure := inTol 15 d1 && inTol 15 d2 && decide ((l1 - l2).natAbs ≤ 80) && decide (-260 ≤ l1) && decide (-260 ≤ l2)
    let never := decide (35 ≤ d1.natAbs) || decide (35 ≤ d2.natAbs) || decide (l1 < -320) || decide (l2 < -320)
    if ch.live.dtmf && decide (g < 16) && (sure || (!never && Config.dtmfEdge d1 d2 l1 l2)) then some (1, g, 40, g) else none
  | .plan i d1 d2 n =>
    match ch.live.cpPlan with
    | none => none
    | some k =>
      match (tabGet none s.media.plans k).bind fun l => l[i]? with
      | none => none
      | some p => if inTol p.tol d1 && inTol p.tol d2 && decide (2 ≤ n) then some (3, k * 16 + i, 0, (k * 16 + i : Nat)) else none
  | .lineup hz l => if ch.live.lineup && inTol 10 hz && decide (-400 ≤ l) then some (5, 0, 200, 10 * l) else none
  | .ans hz l => if ch.live.ans && inTol 15 hz && decide (-310 ≤ l) then some (6, 0, 300, 0) else none
  | .reversal a ms n =>
    if ch.live.ans && decide (155 ≤ a) && decide (a ≤ 205) && decide (425 ≤ ms) && decide (ms ≤ 475) && decide (2 ≤ n) then
      some (7, 0, 0, n) else none
  | .user i d1 d2 =>
    match (ch.live.users.find? fun p => p.1 == i).map (·.2) with
    | none => none
    | some t =>
      let isGpi := ch.live.gpi && s.media.gpiMap.any fun e => match e.2 with | some g => g.1 == t | none => false
      if !isGpi && inTol t.tol d1 && inTol t.tol d2 then some (8, i, t.dur, i) else none
  | .gpi i d1 d2 =>
    match tabGet none s.media.gpiMap i with
    | none => none
    | some (t, g) => if ch.live.gpi && inTol t.tol d1 && inTol t.tol d2 then some (0xA, g, t.dur, g) else none

/-- Offset event of an onset code. -/
def toneOff (code : Nat) : Option Nat :=
  if code = 1 then some 2 else if code = 3 then some 4 else if code = 8 then some 9 else if code = 0xA then some 0xB else none

/-- A tone that was reported ends: its offset event, with a DTMF digit's duration in ms (R104, R109). -/
def toneEnd (s : State) (c t : Nat) (conc : Bool) (d : Det) : State :=
  match toneOff d.code with
  | some o => if d.told then chanCount (chanEvAt s c o d.tx conc (if d.code = 1 then d.steps * 5 else d.arg) t) c 11 else s
  | none => s

/-- A tone's onset is reported, with the tick of its first step; an answer tone with phase reversal disables the canceller from the
next frame (R87, R101, R109). -/
def toneBegin (s : State) (c : Nat) (d : Det) (arg : Int) : State :=
  let ch := chanOf s c
  let s := chanCount (chanEvAt s c d.code d.tx false arg d.onset) c 11
  if d.code = 7 ∧ ch.live.toneDis ∧ (ch.blk.ecOn || ch.blk.aecOn) ∧ !ch.ecDisabled then
    modDsp s c fun x => { x with offNext := true } else s

/-- A detector's tone goes on for one more step: reported once it has lasted its minimum, and a line-up tone's level once a second
(R101). -/
def toneGoes (s : State) (c t : Nat) (d : Det) (ms : Nat) (arg : Int) : State × Det :=
  let d := { d with steps := d.steps + 1 }
  if d.told then
    (if d.code = 5 ∧ d.steps % 200 = 0 then chanCount (chanEvAt s c 5 d.tx false arg t) c 11 else s, d)
  else if ms ≤ d.steps * 5 then (toneBegin s c d arg, { d with told := true })
  else (s, d)

/-- One 5 ms step of a path's detectors, beginning at 48 kHz tick t. While the receive path conceals, its detectors hold their state
(R100, R101, R104). -/
def toneStep (s : State) (c : Nat) (tx : Bool) (t : Nat) (seen : List ToneSeen) : State :=
  let ch := chanOf s c
  let watched := if tx then decide (2 ≤ ch.blk.toneDir) else ch.blk.toneDir % 2 == 1
  if !watched || (!tx && decide (0 < ch.plcRun)) then s
  else
    let now := seen.filterMap (toneHeard s ch)
    let is (d : Det) (h : Nat × Nat × Nat × Int) : Bool := d.tx == tx && d.code == h.1 && d.arg == h.2.1
    let old := (dspOf s c).dets
    let gone := old.filter fun d => d.tx == tx && !now.any (is d)
    let s := gone.foldl (fun s d => toneEnd s c t false d) s
    let r := now.foldl (fun (p : State × List Det) h =>
      let d := (old.find? fun d => is d h).getD { code := h.1, arg := h.2.1, tx := tx, onset := t, steps := 0, told := false }
      let o := toneGoes p.1 c t d h.2.2.1 h.2.2.2
      (o.1, p.2 ++ [o.2])) (s, [])
    modDsp r.1 c fun x => { x with dets := (old.filter fun d => d.tx != tx) ++ r.2 }

/-! ## Concealment (R104-R108) -/

/-- What is left of a concealed signal at tick r of its run, as a fraction: its normal course, then its attenuation (R105; log 173). -/
def plcShare (cd : Codec) (r : Nat) : Nat × Nat :=
  match cd with
  | .g711u | .g711a | .g726 => if r < 480 then (1, 1) else if r < 2880 then (2880 - r, 2400) else (0, 1)
  | .l16 | .l24 => if r < 960 then (1, 1) else if r < 1440 then (1440 - r, 480) else (0, 1)
  | .g722 => if r < 2880 then (1, 1) else (0, 1)
  | .g729 | .opus => (1, 1)
  | .aes3 => (0, 1)

/-- Samples of a concealed position whose run has lasted r ticks: pitch-period repetition of the last audio, or the codec's own method;
comfort noise of G.729 after 60 ms; invalid-flagged zeros for AES3 (R105). -/
def plcSamples (ch : Chan) (d : Dsp) (x : RxIn) (draw r n : Nat) : List Int :=
  let cd := ch.core.codec
  let rate := ch.core.rate
  let len := d.rxPast.length
  let pitch := max 1 (min len x.pitch)
  (nums n).map fun i =>
    let t := r + i * 48 / rate
    let base := match cd with
      | .g711u | .g711a | .g726 | .l16 | .l24 => d.rxPast.getD (len - pitch + (r * rate / 48 + i) % pitch) 0
      | _ => x.plc.getD i 0
    if cd = .aes3 then (Config.aesInvalid.toNat : Int)
    else if cd = .g729 ∧ 2880 ≤ t then Config.sidNoise d.sid draw i
    else base * ((plcShare cd t).1 : Int) / ((plcShare cd t).2 : Int)

/-- Ticks over which returning audio is cross-faded (R106). -/
def fadeTicks : Codec → Nat
  | .aes3 => 0
  | .opus | .l16 | .l24 => 48
  | _ => 120

/-- A concealed run grows by n ticks: its processing frames are counted, PLC_LONG is posted once past 100 ms, and past 60 ms every
receive tone present ends with CONCEALED (R104, R108). -/
def conceal (s : State) (c n : Nat) : State :=
  let f := frameOf s c
  let r := (chanOf s c).plcRun
  let s := modChan (chanCount s c 6 (ceilDiv (r + n) f - ceilDiv r f)) c fun x => { x with plcRun := r + n }
  let s := if 60 * 48 < r + n then
      let gone := (dspOf s c).dets.filter fun d => !d.tx
      let s := gone.foldl (fun s d => toneEnd s c (tick48 s) true d) s
      modDsp s c fun x => { x with dets := x.dets.filter fun d => d.tx }
    else s
  if 100 * 48 < r + n ∧ !(chanOf s c).plcPosted then
    modChan (chanEv s c 0x18 false false ((r + n) / 48 : Nat)) c fun x => { x with plcPosted := true }
  else s

/-- A concealed run has ended (R104, R108). -/
def concealEnd (s : State) (c : Nat) : State := modChan s c fun x => { x with plcRun := 0, plcPosted := false }

/-! ## The receive path (R73) -/

/-- What a position turns out to be: audio, comfort noise, or missing. -/
inductive RxKind where
  | audio (xs : List Int)
  | noise
  | gone
deriving DecidableEq, Repr

/-- Samples of a position. -/
def rxCount (ch : Chan) : Nat := ch.rxTicks * ch.core.rate / 48

/-- A position of the Basin handed over by item it: payload type check, decode, in-band FEC (R94, R99, R107, R111, R213, R224). The
header lies at PTR. -/
def rxPosition (s : State) (c : Nat) (it : Item) (x : RxIn) : RxKind × State :=
  let ch := chanOf s c
  let h := memRead s it.ptr 64
  let len := ofLe ((h.drop 34).take 2)
  let pt := ofLe ((h.drop 38).take 1)
  let arg := it.w3.toNat
  if bitsOf arg 1 0 = 1 then (.noise, s)
  else if bitsOf arg 1 0 = 0 ∧ ofLe ((h.drop 32).take 2) = bitsOf arg 31 16 then
    let body := memRead s (it.ptr + 64) len
    if ch.core.tdmSrc then (.audio ((bytePieces 4 body).map fun b => (BitVec.ofNat 32 (ofLe b)).toInt), s)
    else if pt ≠ ch.core.pt ∧ pt ≠ 13 then (.gone, chanCount s c 4)
    else if isSid ch pt len then (.noise, modDsp (chanCount s c 2) c fun d => { d with sid := body })
    else if ch.core.codec = .opus ∧ !x.good then (.gone, chanCount s c 5)
    else (.audio (decodeSamples ch.core.codec body x.raw), chanCount s c 0)
  else if bitsOf arg 1 0 = 2 ∧ bitsOf arg 2 2 = 1 ∧ ch.core.codec = .opus ∧ ch.live.opusFec ∧ x.good then
    (.audio x.raw, chanCount s c 7)
  else (.gone, s)

/-- Sample number at RATE from which a position is presented: PLAY_TICK and the processing frame on a present one, else the number
after the last (R254). -/
def rxFirst (s : State) (c : Nat) (it : Item) : Nat :=
  let ch := chanOf s c
  if bitsOf it.w3.toNat 1 0 = 0 then (ofLe (memRead s (it.ptr + 8) 8) + frameOf s c) * ch.core.rate / 48 else (dspOf s c).rxNext

/-- The audio of a position: decoded and, after concealment, cross-faded; comfort noise; or concealed (R99, R105, R106). -/
def rxAudio (s : State) (c : Nat) (x : RxIn) (k : RxKind) : List Int × State :=
  let ch := chanOf s c
  let n := rxCount ch
  let d := dspOf s c
  let drawn : State := { s with free := s.free + 1 }
  let lost := plcSamples ch d x s.free ch.plcRun n
  match k with
  | .audio xs => (if ch.plcRun = 0 then fitSamples n xs
      else blendIn (fadeTicks ch.core.codec * ch.core.rate / 48) lost (fitSamples n xs), concealEnd drawn c)
  | .noise => ((nums n).map fun i => Config.sidNoise d.sid s.free i, concealEnd drawn c)
  | .gone => (lost, conceal drawn c ch.rxTicks)

/-- The samples of one receive frame reach the end of the path: gain, the far-end reference, rate adaptation, the level meter, the sink
(R73, R83, R229, R562). first: the number of the first sample; conc: they were concealed. -/
def rxOut (s : State) (c first : Nat) (xs : List Int) (conc : Bool) : State :=
  let ch := chanOf s c
  let rate := ch.core.rate
  let aes := ch.core.codec == .aes3
  let g := if aes then (xs, 0) else applyGain (dspOf s c).rxGain ch.live.rxGain (frameOf s c * rate / 48) xs
  let s := if g.2 = 0 then s else chanCount s c 8 g.2
  let s := modDsp s c fun d =>
    { d with rxPast := lastSamples (10 * rate) (d.rxPast ++ xs), farRef := lastSamples (256 * rate) (d.farRef ++ g.1),
             rxGain := ch.live.rxGain, rxNext := first + xs.length }
  let s := tapPut s c false (first * 48 / rate) g.1 conc
  let o := if ch.blk.drift = .sluice then
      (match ownCtx s c (if rate = 96 then 1 else 0) 0 with | some k => throughCtx s k first rate g.1 | none => (g.1, s))
    else (g.1, s)
  toSink (measureDsp o.2 c (tick48 s) (meter (tick48 s) 3 g.1)) c first ch.core.rxSink o.1

/-- The receive functions on the present work item, in their fixed order: input, payload type check, decode or concealment or comfort
noise, gain, level meter, output (R73, R253). Only a RUNNING channel past its start takes anything (R74, R77, R78). -/
def rxAct (s : State) (c : Nat) (it : Item) (x : RxIn) : State :=
  let ch := chanOf s c
  if ch.st != .running || ch.starting then s
  else match ch.core.rxSrc with
    | .none => s
    | .bus b =>
      let d := dspOf s c
      let t := d.rxNext * 48 / ch.core.rate
      if tick48 s < t + frameOf s c then s
      else
        let o := fromBus s c b t 0
        let n := frameOf s c * ch.core.rate / 48
        modDsp (rxOut o.2 c (d.rxNext + n) (fitSamples n o.1) false) c fun y => { y with rxNext := d.rxNext + n }
    | _ =>
      let first := rxFirst s c it
      let k := rxPosition s c it x
      let a := rxAudio k.2 c x k.1
      rxOut a.2 c first a.1 (k.1 == .gone)

/-! ## The transmit path (R73) -/

/-- The samples a transmit frame of n begins with: captured from the TDM slot, a sample whose frame was lost being zero; the bus
output; or the host's (R69, R253; log 170). -/
def txInput (s : State) (c n : Nat) (x : TxIn) : List Int × State :=
  let ch := chanOf s c
  match ch.core.txSrc with
  | .tdm _ _ =>
    let d := dspOf s c
    let k := d.capAt.getD 0
    (((numsFrom k n).map fun i => ((d.cap.find? fun p => p.1 == i).map (·.2)).getD 0),
      modDsp s c fun d => { d with cap := d.cap.filter (fun p => decide (k + n ≤ p.1)), capAt := d.capAt.map (· + n) })
  | .bus b =>
    let o := fromBus s c b (dspOf s c).txTick (match ch.core.rxSrc with | .bus _ => 1 | _ => 0)
    (fitSamples n o.1, o.2)
  | _ => (fitSamples n x.src, s)

/-- A disabling that waited for this frame begins, and one in force ends once both signals have stayed below −36 dBm0 for 250 ms, each
with its event (R87; log 174). -/
def ecSwitch (s : State) (c n : Nat) (near : List Int) : State :=
  let d := dspOf s c
  let s := if d.offNext then
      modChan (chanEv (modDsp s c fun d => { d with offNext := false, low := 0 }) c 0x11 false false 0) c fun x =>
        { x with ecDisabled := true }
    else s
  if !(chanOf s c).ecDisabled then s
  else
    let quiet := decide (levelOf near < -360) && decide (levelOf (lastSamples n d.farRef) < -360)
    let low := if quiet then (dspOf s c).low + frameOf s c else 0
    let s := modDsp s c fun d => { d with low := low }
    if low < 250 * 48 then s
    else modChan (chanEv (modDsp s c fun d => { d with low := 0 }) c 0x12 false false 0) c fun x => { x with ecDisabled := false }

/-- The canceller subtracts the estimated echo; its filter adapts unless ADAPT is FREEZE (R73, R85, R86, R91). A filter of zeros
estimates none. -/
def cancel (s : State) (c : Nat) (near : List Int) (x : TxIn) : List Int × State :=
  let ch := chanOf s c
  let d := dspOf s c
  if !(ch.blk.ecOn || ch.blk.aecOn) || ch.ecDisabled then (near, s)
  else
    let hold := if ch.blk.aecOn then ch.live.aecFreeze else ch.live.freeze
    (mapAt (fun i y => if d.coefs.isEmpty then y else (mixOut (y - x.echo.getD i 0)).1) near,
      if hold then s else modDsp s c fun d => { d with coefs := x.coefs })

/-- Level and bands of the noise COMFORT inserts at tick t: the background measured, within 2 dB, or after 2 s without one −70 dBm0, at
48 kHz −90 dBFS, with no shape (R92). -/
def comfortNoise (ch : Chan) (d : Dsp) (t : Nat) (dev : Int) : List Int :=
  let none_ : List Int := [if ch.core.rate = 48 then -900 else -700]
  match d.bg with
  | some (l :: bands, at_) => if t < at_ + 96000 then (l + max (-20) (min 20 dev)) :: bands.take 10 else none_
  | _ => none_

/-- The non-linear processor: with residual echo and the near end silent, SUPPRESS leaves no less than 40 dB below, COMFORT puts noise in
its place; 2 ms blend each change between passed and replaced audio (R87, R89, R92). -/
def nlpRun (s : State) (c t : Nat) (ys : List Int) (x : TxIn) : List Int × State :=
  let ch := chanOf s c
  let d := dspOf s c
  let mode := if ch.blk.aecOn then ch.live.aecNlp else ch.live.nlp
  let on_ := (ch.blk.ecOn || ch.blk.aecOn) && !ch.ecDisabled && mode != .off && x.resid
  let cn := comfortNoise ch d t x.dev
  let att : Int := if ch.blk.aecOn && ch.live.resSupp == 0 then 65536 else (max 656 (min 65536 x.att) : Nat)
  let put := mapAt (fun i y => if mode = .comfort then Config.comfort cn s.free i else y * att / 65536) ys
  let n := 96 * ch.core.rate / 48
  let out := if on_ == d.nlpOn then (if on_ then put else ys) else if on_ then blendIn n ys put else blendIn n put ys
  (out, { modDsp s c fun d => { d with nlpOn := on_, cn := if on_ && mode == .comfort then cn else d.cn,
                                       bg := match x.bg with | some b => some (b, t) | none => d.bg } with free := s.free + 1 })

/-- The canceller's reports: its measured values, double-talk begun, and EC_CONVERGED when the smoothed ERLE first exceeds 20 dB, of
the acoustic canceller 25 dB (R88, R91). -/
def ecReport (s : State) (c t : Nat) (x : TxIn) : State :=
  let ch := chanOf s c
  if !(ch.blk.ecOn || ch.blk.aecOn) then s
  else
    let s := if x.dt then chanCount s c 10 else s
    let s := measureDsp s c t [⟨0, t, x.erl, 1⟩, ⟨1, t, x.erle, 1⟩, ⟨2, t, x.residual, 1⟩]
    let e := tabGet 0 (chanOf s c).smooth 1
    if (chanOf s c).ecArmed ∧ (if ch.blk.aecOn then 250 else 200) < e then
      modChan (chanEv s c 0x10 true false e) c fun y => { y with ecArmed := false }
    else s

/-- Voice activity detection is present: VAD_ON, Annex B of G.729 by it, or Opus DTX (R98, R99). -/
def vadOn (ch : Chan) : Bool := ch.blk.vadOn || (ch.core.codec == .opus && ch.core.dtx)

/-- The frame from tick t is judged speech: its level stands above THRESH, or did so within HANGOVER (R98; log 175). -/
def vadStep (s : State) (c t : Nat) (x : TxIn) : State :=
  let ch := chanOf s c
  let spoke := decide (ch.live.thresh * 10 ≤ x.speech)
  modDsp s c fun d =>
    { d with spokeAt := if spoke then t + frameOf s c else d.spokeAt,
             speech := !vadOn ch || spoke || decide (t < d.spokeAt + ch.live.hangover * 48) }

/-- A filled packet leaves (R99, R111): speech, the first after silence with the marker bit; in silence one comfort-noise packet as it
begins and then every SID_INT, Opus sending a DTX frame. -/
def sendPacket (s : State) (c n t : Nat) (body : List Byte) (speech : Bool) (sid : List Byte) : State :=
  let ch := chanOf s c
  let d := dspOf s c
  if speech then
    txPacket (modDsp s c fun d => { d with sidAt := none }) n c t d.sidAt.isSome ch.core.pt body
  else
    let due := match d.sidAt with
      | none => true
      | some a => ch.live.sidInt != 0 && decide (a + ch.live.sidInt * 48 ≤ t)
    if !due then s
    else
      let pt := match ch.core.codec with | .opus | .g729 => ch.core.pt | _ => 13
      let body := if ch.core.codec = .opus then sid.take 2 else sid
      txPacket (chanCount (modDsp s c fun d => { d with sidAt := some t }) c 3) n c t false pt body

/-- Packetisation: the frame from tick t joins the packet being filled, which leaves when it holds PTIME, or the last captured audio
(R78, R96). -/
def packetise (s : State) (c n t : Nat) (bytes sid : List Byte) : State :=
  let ch := chanOf s c
  let d := dspOf s c
  let p := match d.pkt with
    | some p => (p.1, p.2.1 ++ bytes, p.2.2 || d.speech)
    | none => (t, bytes, d.speech)
  let e := t + frameOf s c
  if p.1 + ch.core.ptime ≤ e ∨ d.txEnd = some e then
    sendPacket (modDsp s c fun d => { d with pkt := none }) c n p.1 p.2.1 p.2.2 sid
  else modDsp s c fun d => { d with pkt := some p }

/-- The end of the transmit path: gain, encoding, level meter, the sink (R73, R83, R254). -/
def txOut (s : State) (c t : Nat) (ys : List Int) (x : TxIn) : State :=
  let ch := chanOf s c
  let rate := ch.core.rate
  let f := frameOf s c
  let aes := ch.core.codec == .aes3
  let g := if aes then (ys, 0) else applyGain (dspOf s c).txGain ch.live.txGain (f * rate / 48) ys
  let s := if g.2 = 0 then s else chanCount s c 9 g.2
  let s := modDsp s c fun d => { d with txGain := ch.live.txGain, txTick := t + f }
  let s := tapPut s c true ((t + f + if ch.blk.aecOn then 64 else 0)) g.1 false
  let share : Nat := if (dspOf s c).speech then f else 0
  let s := measureDsp s c t (meter t 5 g.1 ++ [⟨7, t, share, f⟩])
  match ch.core.txSink with
  | .stream n => packetise s c n t (encodeSamples ch.core.codec g.1 x.enc) x.sid
  | e => toSink s c ((t + f + if ch.blk.aecOn then 64 else 0) * rate / 48) e g.1

/-- The transmit functions on the next processing frame, in their fixed order: input, echo cancellation, non-linear processing and
comfort noise, voice activity detection, gain, encoding, level meter, packetisation (R73). Nothing captured before the start or after
the frame of the stop is taken (R77, R78). -/
def txAct (s : State) (c : Nat) (x : TxIn) : State :=
  let ch := chanOf s c
  let t := (dspOf s c).txTick
  let f := frameOf s c
  let open_ := if ch.st = .draining then (match (dspOf s c).txEnd with | some e => decide (t + f ≤ e) | none => false) else !ch.starting
  if ch.core.txSrc = .none || !open_ || decide (tick48 s < t + f) then s
  else
    let n := f * ch.core.rate / 48
    let i := txInput s c n x
    let s := ecSwitch i.2 c n i.1
    let y := cancel s c i.1 x
    let z := nlpRun y.2 c t y.1 x
    txOut (vadStep (ecReport z.2 c t x) c t x) c t z.1 x

/-! ## What a module does to its channel -/

/-- A packet for the HOST sink of a path; a comfort-noise packet sent counts as such (R111, R339). -/
def hostSend (s : State) (c : Nat) (tx : Bool) (packet : List Byte) : State :=
  let ch := chanOf s c
  match (if tx then ch.core.txSink else ch.core.rxSink) with
  | .host q k =>
    let pt := (packet.getD 1 0).toNat % 128
    let s := if tx then chanCount (if isSid ch pt (packet.length - 12) then chanCount s c 3 else s) c 1 else s
    modPort s q fun p => { p with dma := p.dma ++ [{ ring := q * 32 + k, frame := none, data := packet }] }
  | _ => s

/-- One standard function is carried out on channel c, whose work item it is running (R73). In DRAINING media moves on the transmit
path alone (R74, R78). -/
def chanAct (s : State) (c : Nat) (it : Item) : ChanAct → State
  | .rx x => rxAct s c it x
  | .tx x => txAct s c x
  | .tones tx t seen => if !tx && (chanOf s c).st != .running then s else toneStep s c tx t seen
  | .host tx packet => if !tx && (chanOf s c).st != .running then s else hostSend s c tx packet
  | .poisoned => faultChan s c (siteIsland ((chanOf s c).floe.getD 0))

/-- The actions of one bundle on the channel its item serves: the channel of the item's chamber, placed on this Floe and
moving media, past the boundary at which its start takes effect (R71, R74, R77). -/
def chanActs (s : State) (f : Nat) (acts : List ChanAct) : State :=
  match (floeOf s f).cur with
  | none => s
  | some it =>
    acts.foldl (fun s a =>
      let ch := chanOf s it.chamber
      if ch.floe == some f && !ch.starting && (ch.st == .running || ch.st == .draining) then chanAct s it.chamber it a else s) s

end Sys2Proof.Machine
end

