-- ==== Sys2Proof/Machine/Inflate.lean ====
section
/-! DEFINITION. Reading a DEFLATE stream and its wrappers (R435: RFC 1951, RFC 1950, RFC 1952; log 80). -/

namespace Sys2Proof.Machine

/-! ## Bits and code words -/

/-- What reading from a bit sequence gives: a value and the bits left, the end of the input, or an invalid stream. -/
inductive Got (α : Type) where
  | ok (a : α) (rest : List Bool)
  | trunc
  | bad
deriving DecidableEq, Repr

/-- Go on with what was read. -/
def Got.then_ {α β : Type} (g : Got α) (f : α → List Bool → Got β) : Got β :=
  match g with | .ok a r => f a r | .trunc => .trunc | .bad => .bad

/-- The bits of a byte sequence, least significant first. -/
def bitsIn (l : List Byte) : List Bool :=
  l.flatMap fun b => [b.getLsbD 0, b.getLsbD 1, b.getLsbD 2, b.getLsbD 3, b.getLsbD 4, b.getLsbD 5, b.getLsbD 6, b.getLsbD 7]

/-- n bits as a number, least significant first. -/
def takeBits : Nat → List Bool → Got Nat
  | 0, l => .ok 0 l
  | _ + 1, [] => .trunc
  | n + 1, b :: l => (takeBits n l).then_ fun v r => .ok (b.toNat + 2 * v) r

/-- A prefix code: for each length from 1 to 15 its number of code words, and the symbols in code order. -/
structure Huff where
  counts : List Nat
  syms   : List Nat
deriving DecidableEq, Repr

/-- The code the code lengths of the symbols 0, 1, … give (RFC 1951 section 3.2.2). -/
def huffOf (lens : List Nat) : Huff :=
  let ix := lens.zipIdx
  { counts := (nums 15).map fun k => (lens.filter (· == k + 1)).length,
    syms := (nums 15).flatMap fun k => (ix.filter (·.1 == k + 1)).map (·.2) }

/-- Code space the code takes, in units of 1/32,768. -/
def Huff.space (h : Huff) : Nat := (h.counts.zipIdx.map fun p => p.1 * 2 ^ (14 - p.2)).foldl (· + ·) 0

/-- The code is complete. -/
def Huff.full (h : Huff) : Bool := h.space == 32768

/-- The code is complete, or has no code word but one of one bit at most. -/
def Huff.ok (h : Huff) : Bool := h.full || h.syms.isEmpty || (h.syms.length == 1 && h.counts.head? == some 1)

/-- One symbol, its code word read bit by bit. -/
def huffGo : List Nat → Nat → Nat → List Nat → List Bool → Got Nat
  | [], _, _, _, _ => .bad
  | _ :: _, _, _, _, [] => .trunc
  | c :: cs, code, first, syms, b :: r =>
    let code := 2 * code + b.toNat
    if code < first + c then .ok (syms.getD (code - first) 0) r else huffGo cs code (2 * (first + c)) (syms.drop c) r
/-- One symbol of the code. -/
def Huff.read (h : Huff) (l : List Bool) : Got Nat := huffGo h.counts 0 0 h.syms l

/-! ## Blocks -/

/-- How reading a stream ends. -/
inductive InfEnd where
  | ok | full | bad | trunc
deriving DecidableEq, Repr

/-- Bytes expanded so far, newest first, and their number. -/
structure Sink where
  out : List Byte
  n   : Nat
deriving DecidableEq, Repr

/-- A block read whole: its type (0 stored, 1 fixed, 2 dynamic), the bits left of the input where it begins and ends, and
the bytes expanded at its end. -/
structure InfBlock where
  type_ : Nat
  start : Nat
  stop  : Nat
  n     : Nat
deriving DecidableEq, Repr

/-- len bytes from dist back are written again, as far as room for lim bytes in all lasts. -/
def copyBack (lim dist : Nat) : Nat → Sink → Sink × Bool
  | 0, k => (k, true)
  | len + 1, k =>
    if lim ≤ k.n then (k, false) else copyBack lim dist len { out := k.out.getD (dist - 1) 0 :: k.out, n := k.n + 1 }

/-- Base and extra bits of length symbol 257 + k (RFC 1951 section 3.2.5). -/
def lenBase (k : Nat) : Nat × Nat :=
  if k < 8 then (3 + k, 0)
  else if k = 28 then (258, 0)
  else let e := (k - 4) / 4
    (3 + (4 + k % 4) * 2 ^ e, e)
/-- Base and extra bits of distance symbol k. -/
def distBase (k : Nat) : Nat × Nat :=
  if k < 4 then (1 + k, 0)
  else let e := (k - 2) / 2
    (1 + (2 + k % 2) * 2 ^ e, e)

/-- Length and distance after length symbol 257 + k. -/
def matchAt (dh : Huff) (k : Nat) (l : List Bool) : Got (Nat × Nat) :=
  if 29 ≤ k then .bad
  else (takeBits (lenBase k).2 l).then_ fun x l => (dh.read l).then_ fun d l =>
    if 30 ≤ d then .bad
    else (takeBits (distBase d).2 l).then_ fun y l => .ok ((lenBase k).1 + x, (distBase d).1 + y) l

/-- The symbols of a coded block up to its end; win is the window, lim the room. -/
def codesRun (win lim : Nat) (lh dh : Huff) : Nat → List Bool → Sink → InfEnd × List Bool × Sink
  | 0, l, k => (.trunc, l, k)
  | fuel + 1, l, k =>
    match lh.read l with
    | .trunc => (.trunc, [], k)
    | .bad => (.bad, l, k)
    | .ok sym l =>
      if sym < 256 then
        if lim ≤ k.n then (.full, l, k)
        else codesRun win lim lh dh fuel l { out := BitVec.ofNat 8 sym :: k.out, n := k.n + 1 }
      else if sym = 256 then (.ok, l, k)
      else match matchAt dh (sym - 257) l with
        | .trunc => (.trunc, [], k)
        | .bad => (.bad, l, k)
        | .ok (len, dist) l =>
          if k.n < dist || win < dist then (.bad, l, k)
          else match copyBack lim dist len k with
            | (k, true) => codesRun win lim lh dh fuel l k
            | (k, false) => (.full, l, k)

/-- len bytes of a stored block. -/
def storedRun (lim : Nat) : Nat → List Bool → Sink → InfEnd × List Bool × Sink
  | 0, l, k => (.ok, l, k)
  | len + 1, l, k =>
    match takeBits 8 l with
    | .ok v l => if lim ≤ k.n then (.full, l, k) else storedRun lim len l { out := BitVec.ofNat 8 v :: k.out, n := k.n + 1 }
    | _ => (.trunc, [], k)

/-- The codes of a fixed block. -/
def fixedCodes : Huff × Huff :=
  (huffOf (List.replicate 144 8 ++ List.replicate 112 9 ++ List.replicate 24 7 ++ List.replicate 8 8),
   huffOf (List.replicate 32 5))

/-- Where code length number k of the code length code stands. -/
def clOrder : List Nat := [16, 17, 18, 0, 8, 7, 9, 6, 10, 5, 11, 4, 12, 3, 13, 2, 14, 1, 15]

/-- n code lengths of 3 bits each. -/
def clRead : Nat → List Bool → Got (List Nat)
  | 0, l => .ok [] l
  | n + 1, l => (takeBits 3 l).then_ fun v l => (clRead n l).then_ fun vs l => .ok (v :: vs) l

/-- Code lengths, want of them, read with the code length code; got holds them newest first. -/
def lensRun (h : Huff) (want : Nat) : Nat → List Nat → List Bool → Got (List Nat)
  | 0, _, _ => .bad
  | fuel + 1, got, l =>
    if want ≤ got.length then (if want = got.length then .ok got.reverse l else .bad)
    else (h.read l).then_ fun sym l =>
      if sym < 16 then lensRun h want fuel (sym :: got) l
      else if sym = 16 then
        match got with
        | [] => .bad
        | v :: _ => (takeBits 2 l).then_ fun x l => lensRun h want fuel (List.replicate (3 + x) v ++ got) l
      else if sym = 17 then (takeBits 3 l).then_ fun x l => lensRun h want fuel (List.replicate (3 + x) 0 ++ got) l
      else (takeBits 7 l).then_ fun x l => lensRun h want fuel (List.replicate (11 + x) 0 ++ got) l

/-- The codes of a dynamic block (RFC 1951 section 3.2.7). -/
def dynCodes (l : List Bool) : Got (Huff × Huff) :=
  (takeBits 5 l).then_ fun hlit l => (takeBits 5 l).then_ fun hdist l => (takeBits 4 l).then_ fun hclen l =>
    if 29 < hlit then .bad
    else (clRead (hclen + 4) l).then_ fun cl l =>
      let ch := huffOf ((nums 19).map fun k => ((clOrder.zip cl).find? (·.1 == k)).elim 0 (·.2))
      if !ch.full then .bad
      else (lensRun ch (hlit + 257 + hdist + 1) 400 [] l).then_ fun lens l =>
        let lh := huffOf (lens.take (hlit + 257))
        let dh := huffOf (lens.drop (hlit + 257))
        if lens.getD 256 0 = 0 || !lh.ok || !dh.ok then .bad else .ok (lh, dh) l

/-- What follows the header of a block of the given type. -/
def blockRun (win lim type_ : Nat) (l : List Bool) (k : Sink) : InfEnd × List Bool × Sink :=
  match type_ with
  | 0 =>
    match takeBits 16 (l.drop (l.length % 8)) with
    | .ok len l =>
      match takeBits 16 l with
      | .ok nlen l => if len + nlen ≠ 65535 then (.bad, l, k) else storedRun lim len l k
      | _ => (.trunc, [], k)
    | _ => (.trunc, [], k)
  | 1 => codesRun win lim fixedCodes.1 fixedCodes.2 (l.length + 1) l k
  | 2 =>
    match dynCodes l with
    | .ok c l => codesRun win lim c.1 c.2 (l.length + 1) l k
    | .trunc => (.trunc, [], k)
    | .bad => (.bad, l, k)
  | _ => (.bad, l, k)

/-- Blocks up to the final one (RFC 1951 section 3.2.3). -/
def blocksRun (win lim : Nat) : Nat → List Bool → Sink → List InfBlock → InfEnd × List Bool × Sink × List InfBlock
  | 0, l, k, bs => (.trunc, l, k, bs)
  | fuel + 1, l, k, bs =>
    match takeBits 1 l, takeBits 3 l with
    | .ok last _, .ok hdr l' =>
      match blockRun win lim (hdr / 2) l' k with
      | (.ok, r, k) =>
        let bs := bs ++ [{ type_ := hdr / 2, start := l.length, stop := r.length, n := k.n }]
        if last = 1 then (.ok, r, k, bs) else blocksRun win lim fuel r k bs
      | (e, r, k) => (e, r, k, bs)
    | _, _ => (.trunc, [], k, bs)

/-! ## Wrappers -/

/-- Adler-32 (RFC 1950). -/
def adler32 (l : List Byte) : Nat :=
  let r := l.foldl (fun (t : Nat × Nat) b =>
    let a := (t.1 + b.toNat) % 65521
    (a, (t.2 + a) % 65521)) (1, 0)
  r.2 * 65536 + r.1

/-- A wrapper header: how many bytes it takes and its window; the end of the input; an invalid one; or a header check that
does not match. -/
inductive WrapHead where
  | ok (len win : Nat)
  | trunc
  | bad
  | check
deriving DecidableEq, Repr

/-- Bytes up to and with the first zero from offset o. -/
def pastZero (l : List Byte) (o : Nat) : Option Nat :=
  let k := ((l.drop o).takeWhile (· != 0)).length
  if o + k < l.length then some (o + k + 1) else none

/-- A gzip header from its flags on (RFC 1952); reserved flags make it invalid. -/
def gzipHead (l : List Byte) : WrapHead :=
  let g (k : Nat) : Nat := (l.getD k 0).toNat
  let bad (k v : Nat) : Bool := decide (k < l.length) && g k != v
  if bad 0 0x1F || bad 1 0x8B || bad 2 8 || (decide (3 < l.length) && decide (32 ≤ g 3)) then .bad
  else if l.length < 10 then .trunc
  else
    let f := g 3
    let extra : Option Nat :=
      if !bitOf f 2 then some 10 else if l.length < 12 + ofLe ((l.drop 10).take 2) || l.length < 12 then none
      else some (12 + ofLe ((l.drop 10).take 2))
    let name := extra.bind fun o => if bitOf f 3 then pastZero l o else some o
    let comment := name.bind fun o => if bitOf f 4 then pastZero l o else some o
    match comment with
    | none => .trunc
    | some o =>
      if !bitOf f 1 then .ok o 32768
      else if l.length < o + 2 then .trunc
      else if ofLe ((l.drop o).take 2) ≠ (crc32 (l.take o)).toNat % 65536 then .check
      else .ok (o + 2) 32768

/-- A zlib header (RFC 1950); a preset dictionary makes it invalid here (R435). -/
def zlibHead (l : List Byte) : WrapHead :=
  match l with
  | [] => .trunc
  | c :: t =>
    if c.toNat % 16 ≠ 8 ∨ 7 < c.toNat / 16 then .bad
    else match t with
      | [] => .trunc
      | f :: _ =>
        if (c.toNat * 256 + f.toNat) % 31 ≠ 0 || f.getLsbD 5 then .bad else .ok 2 (2 ^ (c.toNat / 16 + 8))

/-- The header of a stream of FORMAT. -/
def wrapHead (format : Nat) (l : List Byte) : WrapHead :=
  match format with | 1 => zlibHead l | 2 => gzipHead l | _ => .ok 0 32768

/-- What expanding gives: the status (R442), whether only the length of a gzip trailer is wrong, the bytes, the input bytes
consumed and the blocks. -/
structure Expanded where
  status : Nat
  isize  : Bool
  out    : List Byte
  used   : Nat
  blocks : List InfBlock
deriving DecidableEq, Repr

/-- The trailer after the blocks, which begins at byte o of the input. -/
def wrapEnd (format : Nat) (input out : List Byte) (o : Nat) (bs : List InfBlock) : Expanded :=
  let t := input.drop o
  let need := match format with | 1 => 4 | 2 => 8 | _ => 0
  if t.length < need then ⟨4, false, out, input.length, bs⟩
  else if format = 1 && ofBe (t.take 4) != adler32 out then ⟨3, false, out, o + 4, bs⟩
  else if format = 2 && ofLe (t.take 4) != (crc32 out).toNat then ⟨3, false, out, o + 8, bs⟩
  else if format = 2 && ofLe ((t.drop 4).take 4) != out.length % 2 ^ 32 then ⟨3, true, out, o + 8, bs⟩
  else ⟨0, false, out, o + need, bs⟩

/-- Expand a stream of FORMAT into at most lim bytes (R435, R442, R444); wide: the window is 32 KiB whatever the zlib header
says. -/
def expand (format lim : Nat) (wide : Bool) (input : List Byte) : Expanded :=
  match wrapHead format input with
  | .trunc => ⟨4, false, [], input.length, []⟩
  | .bad => ⟨2, false, [], 0, []⟩
  | .check => ⟨3, false, [], 0, []⟩
  | .ok h win =>
    let bits := bitsIn (input.drop h)
    match blocksRun (if wide then 32768 else win) lim (bits.length + 1) bits ⟨[], 0⟩ [] with
    | (.ok, r, k, bs) => wrapEnd format input k.out.reverse (input.length - r.length / 8) bs
    | (.full, r, k, bs) => ⟨1, false, k.out.reverse, input.length - r.length / 8, bs⟩
    | (.bad, r, k, bs) => ⟨2, false, k.out.reverse, input.length - r.length / 8, bs⟩
    | (.trunc, _, k, bs) => ⟨4, false, k.out.reverse, input.length, bs⟩

end Sys2Proof.Machine
end

