-- ==== Sys2Proof/Machine/WeirOps.lean ====
section
/-! DEFINITION. The Weir units: judging arrivals, accounting, duplicating (chapter 11, R344-R352, R368). -/

namespace Sys2Proof.Machine

/-! ## Merging on receive (R347-R350) -/

/-- Wp of a stream: ⌈SKEW / WPTIME⌉ packets (R347). -/
def RxPar.window (p : RxPar) : Nat := ceilDiv (48 * p.skew) (max 1 p.wptime)

/-- Numbers of the per-stream counters (R366). -/
def ctrDup (legB : Bool) : Nat := b2n legB
def ctrOutwin (legB : Bool) : Nat := 2 + b2n legB

/-- Count in counter k of receive stream n. -/
def rxsCount (s : State) (n k m : Nat) : State := modRxs s n fun x => { x with ctr := bump x.ctr k m }

/-- Sequences that leave a window of wp numbers when it moves on by d: seen on A only, on B only, on neither (R349;
log 72). -/
def weirLeaving (c : WeirCtx) (wp d : Nat) : Nat × Nat × Nat :=
  let out := (nums (min d wp)).map fun j => wp - 1 - j
  let a := out.filter fun i => c.seenA.testBit i && !c.seenB.testBit i
  let b := out.filter fun i => c.seenB.testBit i && !c.seenA.testBit i
  let none := out.filter fun i => !c.seenA.testBit i && !c.seenB.testBit i
  (a.length, b.length, none.length + (d - wp))

/-- A bitmap of wp bits moved on by d. -/
def weirSlide (m wp d : Nat) : Nat := if wp ≤ d then 0 else m * 2 ^ d % 2 ^ wp

/-- Set bit i of a bitmap. -/
def setBit (m i : Nat) : Nat := if m.testBit i then m else m + 2 ^ i
/-- Clear bit i of a bitmap. -/
def clrBit (m i : Nat) : Nat := if m.testBit i then m - 2 ^ i else m

/-- SEEN_x of the sequence i before H is set. -/
def WeirCtx.see (c : WeirCtx) (legB : Bool) (i : Nat) : WeirCtx :=
  if legB then { c with seenB := setBit c.seenB i } else { c with seenA := setBit c.seenA i }

/-- The window starts anew at q, seen on one leg and passed (R348). -/
def WeirCtx.begin (c : WeirCtx) (q : Nat) (legB : Bool) : WeirCtx :=
  ({ c with valid := true, h := q, seenA := 0, seenB := 0, passed := 1, outRun := 0 } : WeirCtx).see legB 0

/-- What a judgement gives: the context after, whether the copy passes, counters to raise with amounts, resync. -/
structure WeirJudged where
  ctx    : WeirCtx
  pass   : Bool
  counts : List (Nat × Nat)
  resync : Bool
deriving DecidableEq, Repr

/-- The judgement of R348 on sequence q arriving on a leg, in a window of wp. -/
def weirJudge (c : WeirCtx) (wp q : Nat) (legB : Bool) : WeirJudged :=
  let d := seqSub q c.h
  let back := seqSub c.h q
  if !c.valid then { ctx := c.begin q legB, pass := true, counts := [], resync := false }
  else if 1 ≤ d ∧ d ≤ 32767 then
    let l := weirLeaving c wp d
    let c' := { c with h := q, seenA := weirSlide c.seenA wp d, seenB := weirSlide c.seenB wp d,
                       passed := setBit (weirSlide c.passed wp d) 0, outRun := 0 }
    { ctx := c'.see legB 0, pass := true, counts := [(4, l.1), (5, l.2.1), (6, l.2.2)], resync := false }
  else if back < wp then
    if c.passed.testBit back then
      { ctx := c.see legB back, pass := false, counts := [(ctrDup legB, 1)], resync := false }
    else
      { ctx := { (c.see legB back) with passed := setBit c.passed back, outRun := 0 }, pass := true, counts := [],
        resync := false }
  else if 7 ≤ c.outRun then
    { ctx := c.begin q legB, pass := true, counts := [(ctrOutwin legB, 1), (9, 1)], resync := true }
  else
    { ctx := { c with outRun := c.outRun + 1 }, pass := false, counts := [(ctrOutwin legB, 1)], resync := false }

/-- A leg delivers: its time, and the record of its return if it was silent (R349, R536). -/
def legHeard (s : State) (n : Nat) (legB : Bool) : State :=
  let c := (rxsOf s n).ctx
  let was := if legB then c.silentB else c.silentA
  let s := modRxs s n fun x =>
    { x with ctx := if legB then { x.ctx with lastB := s.tb.sel, silentB := false }
                    else { x.ctx with lastA := s.tb.sel, silentA := false } }
  if was then logRec s 0xC 6 (objNo 0x0A n) (leBytes n 4 ++ leBytes (b2n legB) 1 ++ leBytes 1 1) else s

/-- A copy passes to the managers of the stream's members, which then also hold its frame (R310, R321, R346). -/
def weirPass (s : State) (n : Nat) (p : Pkt) : State :=
  let t := takersOf s n
  let s := match p.frame with
    | some (q, id) => modStored s q id fun f => { f with takers := f.takers ++ t.filter fun x => !f.takers.contains x }
    | none => s
  handOn s n p

/-- The judgement's outcome on the state; judgements are traced (R539). -/
def weirApply (s : State) (n : Nat) (p : Pkt) (j : WeirJudged) : State :=
  let s := modRxs s n fun x => { x with ctx := j.ctx }
  let s := j.counts.foldl (fun s c => if c.2 = 0 then s else rxsCount s n c.1 c.2) s
  let s := trace s 4 (n + p.seq * 2 ^ 16 + b2n j.pass * 2 ^ 32)
  let s := if j.resync then alarm s 0x40 (objNo 0x0A n) 0 noSite else s
  if j.pass then weirPass s n p else s

/-! ## Duplicating on transmit (R344, R351, R352, R355) -/

/-- The device sends protected packets on a leg (R355, R365); outside Tandem on both. -/
def sendsLeg (s : State) (legB : Bool) : Bool :=
  match s.tdm.st with
  | .off | .solo => true
  | .lifting => false
  | .standby => legB
  | .primary => !legB && !(match s.tdm.drill with | some (.mute _) => true | _ => false)

/-- Port of a leg in the pair that holds port p (R344). -/
def legPort (p : Nat) (legB : Bool) : Nat := p / 2 * 2 + b2n legB

/-- A leg's frame of stream n goes to its port (R351). -/
def weirSend (s : State) (n : Nat) (legB : Bool) (rtp : List Byte) : State :=
  let x := (txsOf s n).p
  let p := legPort x.port legB
  txPut s p (mediaFrame s n p (if legB then x.legB else x.a) rtp true (164 + x.port))

/-- The key slot of a leg of channel c (R351). -/
def legKey (s : State) (c : Nat) (legB : Bool) : Option Nat :=
  if legB then (chanOf s c).core.keyTxB else (chanOf s c).core.keyTx

/-- The smallest index congruent to the sequence number that exceeds the high-water mark (R360, R425). -/
def nextIndex (hwm : Option Nat) (seq : Nat) : Nat :=
  match hwm with
  | none => seq
  | some w =>
    let i := w / 65536 * 65536 + seq
    if w < i then i else i + 65536

/-- The Rime request of a leg (R351, R420). -/
def weirReq (s : State) (o : WeirOut) (k : Nat) (legB : Bool) : RimeReq :=
  let seq := ofBe ((o.rtp.drop 2).take 2)
  { op := 1, done := 1, weir := false, leg := b2n legB, slot := k, len := o.payload.length, hdr := o.rtp.length,
    index := nextIndex (slotOf s k).hot.hwm seq, inPtr := 0, outPtr := 0, kind := 0, atomic := false, chamber := 0,
    target := 0, prio := 0, group := 0xFF, tag := 0, rsvd := false, from_ := 1, who := o.stream, seq := seq,
    pkt := o.rtp ++ o.payload }

/-- One leg of a packet: withheld by the role, dropped for a down link, encrypted, or written (R351, R352). -/
def weirLeg (s : State) (o : WeirOut) (legB : Bool) : State :=
  let n := o.stream
  let u := (txsOf s n).p.port
  if !sendsLeg s legB then s
  else if !(portOf s (legPort u legB)).cfg.link then
    modTxs s n fun x => { x with ctr := bump x.ctr (10 + b2n legB) }
  else
    match legKey s o.chan legB with
    | none => weirSend s n legB (o.rtp ++ o.payload)
    | some k =>
      let q := weirReq s o k legB
      rimePut (modNet s fun t => { t with weirEnc := t.weirEnc ++ [(k, q.seq, legB, o)] }) u q

/-- The packet a finished Rime request of a Weir unit belongs to, and the state without it. -/
def weirTake (s : State) (k seq : Nat) (legB : Bool) : Option (WeirOut × State) :=
  match s.net.weirEnc.find? fun e => e.1 == k && e.2.1 == seq && e.2.2.1 == legB with
  | none => none
  | some e => some (e.2.2.2, modNet s fun t => { t with weirEnc := t.weirEnc.erase e })

end Sys2Proof.Machine
end

