-- ==== Sys2Proof/Machine/Firn.lean ====
section
/-! DEFINITION. The Firn engines (chapter 14). The stream a compression gives is held to the format, the blocks and the bounds of
the chapter; expanding is computed. -/

namespace Sys2Proof.Machine

/-- Engine e. -/
def firnOf (s : State) (e : Nat) : FirnEng := tabGet FirnEng.reset s.firn e
/-- Change engine e. -/
def modFirn (s : State) (e : Nat) (f : FirnEng → FirnEng) : State :=
  { s with firn := tabMod FirnEng.reset s.firn e f }

/-- A 64-byte job (R441). -/
def firnJobOf (l : List Byte) : FirnJob :=
  let n (o k : Nat) : Nat := ofLe ((l.drop o).take k)
  { op := bitsOf (n 0 1) 1 0, format := bitsOf (n 0 1) 3 2, level := bitsOf (n 0 1) 6 4, done := bitsOf (n 1 1) 1 0,
    inLen := n 4 4, outLen := n 8 4, inPtr := n 16 8 % 2 ^ 40, outPtr := n 24 8 % 2 ^ 40, cplPtr := n 32 8 % 2 ^ 40,
    kind := n 40 1 % 64, atomic := bitOf (n 41 1) 0, chamber := n 42 2, target := n 44 1, prio := n 45 1 % 16,
    group := n 46 1, tag := BitVec.ofNat 48 (n 48 6),
    rsvd := bitOf (n 0 1) 7 || n 1 1 / 4 != 0 || n 2 2 != 0 || n 12 4 != 0 || n 16 8 / 2 ^ 40 != 0
      || n 24 8 / 2 ^ 40 != 0 || n 32 8 / 2 ^ 40 != 0 || n 40 1 / 64 != 0 || n 41 1 / 2 != 0 || n 45 1 / 16 != 0
      || n 47 1 != 0 || n 54 10 != 0 }

/-- BADREQ (R442): a reserved bit or value, a length out of range, a misaligned CPL_PTR. -/
def FirnJob.bad (q : FirnJob) : Bool :=
  q.rsvd || decide (1 < q.op) || decide (2 < q.format) || decide (1 < q.done)
    || (if q.op = 0 then q.level == 0 || decide (4 < q.level) else q.level != 0)
    || q.inLen == 0 || decide (2 ^ 30 < q.inLen) || q.outLen == 0 || decide (2 ^ 30 < q.outLen) || q.cplPtr % 32 != 0
    || (q.done == 0 && (mkItem q.kind q.atomic q.prio q.group q.chamber q.target q.cplPtr 0).bad none)

/-- A running engine accepts held writes while its queue has room (R440). -/
def FirnEng.refill (x : FirnEng) : FirnEng :=
  if x.run then { x with queue := x.queue ++ x.held.take (64 - x.queue.length), held := x.held.drop (64 - x.queue.length) }
  else x

/-- A write to engine e's job port (R440): 64 bytes at once; a full queue or a stopped engine holds it (R32). -/
def firnWrite (s : State) (e dom : Nat) (data : List Byte) : State :=
  if data.length ≠ 64 then canalAddr s dom (0x1124000000 + 0x1000 * e + 0x800)
  else modFirn s e fun x => ({ x with held := x.held ++ [firnJobOf data] } : FirnEng).refill

/-- FIRN_JOB (R440, R441). -/
def execFirnJob (e dom : Nat) (data : List Byte) (s : State) : Out :=
  if s.dev.inReset || decide (4 ≤ e) || !canalIssuer dom then .next s else fin (firnWrite s e dom data)

/-- Bytes of the wrapper: 18 GZIP, 6 ZLIB, 0 RAW (R439). -/
def wrapBytes (format : Nat) : Nat := match format with | 2 => 18 | 1 => 6 | _ => 0

/-- The growth bound of R439. -/
def firnBound (n format : Nat) : Nat := n + 5 * ceilDiv n 65535 + wrapBytes format

/-- The wrapper header a compression job writes (R435). -/
def firnHead (format level : Nat) : List Byte :=
  match format with
  | 1 =>
    let f := 64 * (level - 1)
    [0x78, BitVec.ofNat 8 (f + (31 - (0x7800 + f) % 31) % 31)]
  | 2 => [0x1F, 0x8B, 8, 0, 0, 0, 0, 0, 0, 0xFF]
  | _ => []

/-- The blocks of a compression job (R438, R445): each of 65,535 input bytes but the last of those written, none longer than
its stored form outside COMPAT_Q48, and none stored under it. -/
def firnBlocks (q48 : Bool) (n : Nat) : Nat → List InfBlock → Bool
  | _, [] => true
  | from_, b :: bs =>
    let len := min 65535 (n - from_)
    b.n == from_ + len && decide (0 < len)
      && (if q48 then b.type_ != 0
          else decide (b.start - b.stop ≤ 3 + (b.start - 3) % 8 + 32 + 8 * len))
      && firnBlocks q48 n b.n bs

/-- c is a stream compressing input may give (R435, R436, R438, R439). -/
def firnGood (q48 : Bool) (format level : Nat) (input c : List Byte) : Bool :=
  let x := expand format input.length true c
  let h := firnHead format level
  c.take h.length == h && firnBlocks q48 input.length 0 x.blocks && x.status == 0 && x.out == input && x.used == c.length
    && (q48 || decide (c.length ≤ firnBound input.length format))

/-- The bits of the blocks that code every byte of the input as a literal with fixed codes (RFC 1951), least significant first. -/
def litBits : Nat → List Byte → List Bool
  | 0, _ => []
  | k + 1, l =>
    let t := l.drop 65535
    let code (n v : Nat) : List Bool := (nums n).map fun i => v.testBit (n - 1 - i)
    [t.isEmpty, true, false]
      ++ ((l.take 65535).map fun b => if b.toNat < 144 then code 8 (0x30 + b.toNat) else code 9 (0x190 + (b.toNat - 144))).flatten
      ++ List.replicate 7 false ++ litBits k t

/-- Bits packed into bytes, the last one filled with zeros. -/
def packBits : Nat → List Bool → List Byte
  | 0, _ => []
  | k + 1, l => BitVec.ofNat 8 (((l.take 8).zipIdx.map fun p => b2n p.1 * 2 ^ p.2).sum) :: packBits k (l.drop 8)

/-- The input as stored blocks. -/
def storedBlocks : Nat → List Byte → List Byte
  | 0, _ => []
  | k + 1, l =>
    let c := l.take 65535
    let t := l.drop 65535
    leBytes (b2n t.isEmpty) 1 ++ leBytes c.length 2 ++ leBytes (65535 - c.length) 2 ++ c ++ storedBlocks k t

/-- A stream that may always be given: literals or stored blocks in their wrapper. -/
def firnPlain (q48 : Bool) (format level : Nat) (input : List Byte) : List Byte :=
  let k := ceilDiv input.length 65535
  let bits := litBits k input
  let tail := match format with
    | 1 => beBytes (adler32 input) 4
    | 2 => leBytes (crc32 input).toNat 4 ++ leBytes input.length 4
    | _ => []
  firnHead format level ++ (if q48 then packBits (ceilDiv bits.length 8) bits else storedBlocks k input) ++ tail

/-- The stream compressing input gives, the same on every run and engine (R436): the engine's choice of matches and codes is open,
within what the chapter allows (log 80). -/
def firnStream (q48 : Bool) (format level : Nat) (input : List Byte) : List Byte :=
  let c := Config.deflate q48 format level input
  if firnGood q48 format level input c then c else firnPlain q48 format level input

/-- What a compression job gives (R442-R444): the stream, or as much of it as fills the region; used: the input bytes consumed by
then. -/
def firnMade (q48 : Bool) (q : FirnJob) (input : List Byte) (used : Nat) : FirnRes :=
  let c := firnStream q48 q.format q.level input
  if c.length ≤ q.outLen then { status := 0, out := c, used := q.inLen }
  else { status := 1, out := c.take q.outLen, used := min used q.inLen }

/-- r is what expanding input gives (R435, R442-R444): after an OK or a full region all of it, otherwise at most what comes
before the point of failure. A wrong length in a gzip trailer may be told as either failure of a trailer or of a stream. -/
def firnUnpacked (q : FirnJob) (input : List Byte) (wide : Bool) (r : FirnRes) : Bool :=
  let x := expand q.format q.outLen wide input
  (r.status == x.status || (x.isize && r.status == 2))
    && (if r.status ≤ 1 then r.out == x.out && r.used == x.used
        else r.out == x.out.take r.out.length && decide (r.used ≤ q.inLen))

/-- What the chapter lets an engine make of a well-formed expansion job whose input is read whole. A zlib stream that reaches
farther back than its own window may be refused or expanded. -/
def firnPossible (q : FirnJob) (input : List Byte) (r : FirnRes) : Bool :=
  decide (r.out.length ≤ q.outLen) && decide (r.used ≤ q.inLen) && (firnUnpacked q input true r || firnUnpacked q input false r)

/-- CHECK of the uncompressed data (R442). -/
def firnCheck (format : Nat) (l : List Byte) : Nat := if format = 1 then adler32 l else (crc32 l).toNat

/-- The completion record (R442). -/
def firnRecord (q : FirnJob) (status used out check : Nat) : List Byte :=
  leBytes status 1 ++ leBytes q.format 1 ++ leBytes 0 2 ++ leBytes used 4 ++ leBytes out 4 ++ leBytes check 4
    ++ leBytes q.tag.toNat 6 ++ leBytes 0 10

/-- The record is written where CPL_PTR is aligned, then the work item posted (R442). check: CHECK of a job that ends OK; that of any
other job is open (log 200). -/
def firnFinish (s : State) (e : Nat) (q : FirnJob) (status used out : Nat) (check : Option Nat) : State :=
  let v := check.getD (Config.failCheck s.free).toNat
  let s := if check.isNone then { s with free := s.free + 1 } else s
  let s := if q.cplPtr % 32 = 0 then
      memWrite (memMissed s (144 + e) q.cplPtr 32) q.cplPtr (firnRecord q status used out v) else s
  let s := modFirn s e fun x =>
    { x with inCnt := sat64 (x.inCnt + used), outCnt := sat64 (x.outCnt + out), jobs := sat32 (x.jobs + 1),
             fail := if status = 0 then x.fail else sat32 (x.fail + 1),
             full := if status = 1 then sat32 (x.full + 1) else x.full,
             bad := if status = 5 then sat32 (x.bad + 1) else x.bad }
  if q.done ≠ 0 then s
  else
    let it := mkItem q.kind q.atomic q.prio q.group q.chamber q.target q.cplPtr 0
    postItem s (144 + e) e it

/-- A poisoned input or window word: counted, and FIRN_UE with the site (R447). -/
def firnUe (s : State) (e : Nat) (site : DWord) : State :=
  alarm (modFirn s e fun x => { x with ue := sat32 (x.ue + 1) }) 0x54 (objNo 0x10 e) 0 site

/-- What ends a job before its result: a poisoned window or input word, or an address error; and the state after (R442, R447; logs
82, 188). -/
def firnError (s : State) (e : Nat) (q : FirnJob) (ue : FirnUe) : Nat × State :=
  let cae := memFlag s q.inPtr || memFlag s (q.inPtr + q.inLen - 1) || memFlag s q.outPtr
    || memFlag s (q.outPtr + q.outLen - 1)
  match ue with
  | .window w => (6, firnUe s e (siteStage (144 + e) 1 w))
  | _ => if cae then (7, s) else if memPoisoned s q.inPtr q.inLen then (6, firnUe s e (siteIsland (144 + e))) else (0, s)

/-- The engine runs a well-formed job to its end (R442-R444, R447): a compression gives its stream; an outcome the chapter rules out
for an expansion does not occur (log 80). -/
def firnRun (s : State) (e : Nat) (q : FirnJob) (r : FirnRes) (ue : FirnUe) : Option State :=
  let s := memMissed (memMissed s (144 + e) q.inPtr q.inLen) (144 + e) q.outPtr q.outLen
  let input := memRead s q.inPtr q.inLen
  let (err, s) := firnError s e q ue
  let r := if err ≠ 0 then { r with status := err }
    else if q.op = 0 then firnMade s.dev.compatQ48 q input r.used else r
  if q.outLen < r.out.length ∨ q.inLen < r.used ∨ (err = 0 ∧ q.op ≠ 0 ∧ firnPossible q input r = false) then none
  else
    let check := if r.status ≠ 0 then none else some (firnCheck q.format (if q.op = 0 then input else r.out))
    some (firnFinish (memWrite s q.outPtr r.out) e q r.status r.used r.out.length check)

/-- What the code checks of a job's Canal reads and partly written words find (R43). -/
def firnFind (s : State) (q : FirnJob) (errs : List (Nat × Ecc)) : State :=
  mergeFind (neveReadUe (memFind s q.inPtr q.inLen errs) q.inPtr q.inLen) q.outPtr q.outLen errs

/-- FIRN_JOB_DONE (R43, R440, R442-R447): engine e ends its head job with the result r. The freed entry accepts a held write. While a
bank holds the engine's last item the engine waits (R198). errs: what the code checks find in the memory words it reads. -/
def execFirnJobDone (x : UnitRead) (r : FirnRes) (ue : FirnUe) (s : State) : Out :=
  let e := x.no
  let errs := x.errs
  match (firnOf s e).queue with
  | [] => .next s
  | q :: t =>
    if s.dev.inReset || !(firnOf s e).run || unitStalled s (144 + e) then .next s
    else
      let s' := modFirn s e fun x => { x with queue := t ++ x.held.take 1, held := x.held.drop 1 }
      match ue with
      | .entry true => fin (firnFinish s' e q 5 0 0 none)
      | .entry false => fin (modFirn s' e fun x => { x with ue := sat32 (x.ue + 1) })
      | _ =>
        if q.bad then fin (firnFinish s' e q 5 0 0 none)
        else match firnRun (firnFind s' q errs) e q r ue with
          | none => .next s
          | some t => fin t

/-- FIRN_CTRL_WRITE (R32, R446): the Icehouse sets or clears RUN. -/
def execFirnCtrlWrite (e : Nat) (w : Word) (s : State) : Out :=
  if s.dev.inReset || decide (4 ≤ e) then .next s else fin (modFirn s e fun x => ({ x with run := w.getLsbD 0 } : FirnEng).refill)

/-- FIRN_COUNT_READ (R14, R446): k 0 FIRN_IN and 1 FIRN_OUT as pairs, 2 JOBS, 3 FAIL, 4 OUT_FULL, 5 BADREQ, 6 UE; each read
clears. -/
def execFirnCountRead (e k : Nat) (hi : Bool) (s : State) : Out :=
  if s.dev.inReset || decide (4 ≤ e) || decide (7 ≤ k) then .next s
  else
    let x := firnOf s e
    let clr (f : FirnEng → FirnEng) (n : Nat) : Out := fin (returned (modFirn s e f) n)
    match k with
    | 0 =>
      if hi then clr (fun x => { x with inHi := none }) (x.inHi.elim (x.inCnt / 2 ^ 32) (·.toNat))
      else clr (fun y => { y with inHi := some (hiWord x.inCnt), inCnt := 0 }) (x.inCnt % 2 ^ 32)
    | 1 =>
      if hi then clr (fun x => { x with outHi := none }) (x.outHi.elim (x.outCnt / 2 ^ 32) (·.toNat))
      else clr (fun y => { y with outHi := some (hiWord x.outCnt), outCnt := 0 }) (x.outCnt % 2 ^ 32)
    | 2 => clr (fun x => { x with jobs := 0 }) x.jobs
    | 3 => clr (fun x => { x with fail := 0 }) x.fail
    | 4 => clr (fun x => { x with full := 0 }) x.full
    | 5 => clr (fun x => { x with bad := 0 }) x.bad
    | _ => clr (fun x => { x with ue := 0 }) x.ue

/-- NX_FIRN_STATS (R446, R111). -/
def nxFirnStats (h : NxHdr) (s : State) : NxRes :=
  let x := firnOf s h.idx
  let vals : List RVal := [.ctr x.inCnt, .ctr x.outCnt, .ctr x.jobs, .ctr x.fail, .ctr x.full, .ctr x.bad, .ctr x.ue]
  let clr (x : FirnEng) : FirnEng :=
    { x with inCnt := 0, outCnt := 0, jobs := 0, fail := 0, full := 0, bad := 0, ue := 0 }
  .done (if h.clear then modFirn s h.idx clr else s) (replyOf [vals]) 0
/-- The catalogue row of NxFirnStats. -/
def spNxFirnStats : NxSpec :=
  { opcode := 0x0C01, cls := 0x10, states := rsr, audit := false, counts := true }
def execNxFirnStats (b : Nat) (f : Fmt) (s : State) : Out :=
  runNx spNxFirnStats b f (.nxFirnStats b f)
    nxFirnStats s

end Sys2Proof.Machine
end

