-- ==== Sys2Proof/Machine/FloeDecode.lean ====
section
/-! DEFINITION. The bundle of a Floe: slots, formats, legality, the structure of a module's code and its relocation
(chapter 04, R119-R126, R150, R167, R168). -/

namespace Sys2Proof.Machine

/-- Slots of a bundle (R119). -/
def slotM0 (b : BitVec 128) : Word := b.extractLsb' 0 32
def slotM1 (b : BitVec 128) : Word := b.extractLsb' 32 32
def slotL (b : BitVec 128) : Word := b.extractLsb' 64 32
def slotC (b : BitVec 128) : Word := b.extractLsb' 96 32

/-- Bits [hi:lo] of a slot. -/
def sf (w : Word) (hi lo : Nat) : Nat := bitsOf w.toNat hi lo
/-- Opcode of a MAC or control slot. -/
def opOf (w : Word) : Nat := sf w 31 26
/-- Opcode of the load/store slot. -/
def opL (w : Word) : Nat := sf w 31 28

/-! ## MAC slots (R122, R123, R167, R168) -/

/-- Formats of a MAC slot. -/
inductive MacFmt where
  | nop | ma | me | mv | reserved
deriving DecidableEq, Repr

/-- The format an opcode takes (R123). -/
def macFmt (op : Nat) : MacFmt :=
  if op = 0 then .nop else if [1, 2, 3, 8, 9].contains op then .ma else if [0x10, 0x11, 0x12].contains op then .me
  else if 0x20 ≤ op ∧ op ≤ 0x2B then .mv else .reserved

/-- No reserved value in a MAC slot (R121-R123, R167, R168). -/
def macOk (w : Word) : Bool :=
  let op := opOf w
  match macFmt op with
  | .nop => w == 0
  | .ma => sf w 9 0 == 0 && (sf w 25 24 != 3 || op == 8 || op == 9)
  | .me =>
    sf w 25 24 != 3 && sf w 22 22 == 0 && sf w 3 0 == 0 && (op == 0x12 || sf w 8 4 == 0)
      && (sf w 23 23 == 0 || (op == 0x10 && sf w 25 24 == 0))
      && (op == 0x10 || (sf w 25 24 == 2 && sf w 14 9 == 0)) && (op != 0x12 || sf w 18 15 == 0)
  | .mv => sf w 24 22 == 0 && sf w 4 0 == 0 && (sf w 25 25 == 0 || decide (sf w 9 5 < 16))
  | .reserved => false

/-- Accumulator a MAC slot names, if any. -/
def macAcc (w : Word) : Option Nat := match macFmt (opOf w) with | .ma | .me => some (sf w 21 19) | _ => none

/-! ## Load/store slot (R124) -/

/-- No reserved value in the L slot. Of LD and ST, AG1 is idle and its fields ignored (log 100). -/
def lOk (w : Word) : Bool :=
  let op := opL w
  if op = 0 then w == 0
  else if op = 6 ∨ op = 7 then sf w 16 0 == 0 && sf w 18 17 != 3
  else if op = 4 ∨ op = 5 then sf w 7 0 == 0 && sf w 11 10 != 3
  else if op ≤ 3 ∨ op = 8 then sf w 7 0 == 0 && sf w 11 10 != 3 && sf w 9 8 != 3
  else false

/-- Both address generators post-modify one pointer (R121). -/
def lTwice (w : Word) : Bool := [1, 2, 3, 8].contains (opL w) && sf w 27 25 == sf w 19 17

/-! ## Control slot (R125, R126, R137) -/

/-- Control opcodes of format CI, CR, CB, CL and without a format. -/
def ciOps : List Nat := numsFrom 1 8 ++ [0x2A, 0x30, 0x31, 0x32, 0x34, 0x35, 0x39, 0x3A, 0x3B, 0x3C, 0x3E]
def crOps : List Nat := numsFrom 0x10 14 ++ [0x37, 0x38]
def cbOps : List Nat := numsFrom 0x20 6

/-- No reserved value in the C slot. -/
def cOk (w : Word) : Bool :=
  let op := opOf w
  if op = 0 ∨ op = 0x26 ∨ op = 0x36 then sf w 25 0 == 0
  else if ciOps.contains op then true
  else if crOps.contains op then decide (op < 0x37) || decide (sf w 10 8 ≤ 4)
  else if cbOps.contains op then sf w 15 12 == 0
  else if op = 0x28 then true
  else if op = 0x29 then sf w 8 0 == 0
  else false

/-! ## Registers written (R121) -/

/-- A register a slot writes. -/
inductive FReg where
  | s (i : Nat) | v (i : Nat) | acc (i : Nat) | ar (kind i : Nat) | link (i : Nat)
deriving DecidableEq, Repr

/-- Registers a MAC slot writes. -/
def macWrites (w : Word) : List FReg :=
  match macFmt (opOf w) with
  | .ma => [.acc (sf w 21 19)]
  | .me => if opOf w = 0x12 then [.s (sf w 8 4)] else [.v (sf w 18 15)]
  | .mv => [.v (sf w 21 18)]
  | _ => []

/-- Registers the L slot writes, each once. -/
def lWrites (w : Word) : List FReg :=
  let pa := FReg.ar 0 (sf w 27 25)
  let pb := FReg.ar 0 (sf w 19 17)
  let va := FReg.v (sf w 23 20)
  let vb := FReg.v (sf w 15 12)
  (match opL w with
  | 1 => [pa, pb, va, vb] | 2 => [pa, pb, va] | 3 => [pa, pb] | 4 => [pa, va] | 5 => [pa]
  | 6 => [pa, .s (sf w 23 19)] | 7 => [pa] | 8 => [pa, pb] | _ => []).eraseDups

/-- Registers the C slot writes. -/
def cWrites (w : Word) : List FReg :=
  let op := opOf w
  let sd := FReg.s (sf w 25 21)
  if decide (1 ≤ op ∧ op ≤ 8) || decide (0x10 ≤ op ∧ op ≤ 0x1D) || [0x31, 0x34, 0x3A].contains op then [sd]
  else if op = 0x25 then [.s 31]
  else if op = 0x30 then [.ar (sf w 25 24) (sf w 23 21)]
  else if op = 0x32 then [.link (sf w 23 21)]
  else []

/-- No register stands twice. -/
def noDup : List FReg → Bool
  | [] => true
  | r :: t => !t.contains r && noDup t

/-- A bundle a Floe can run: legal but for an accumulator that one MAC slot writes and the other reads, which no encoding
rule reserves and R160 decides; the module loader refuses it (R121, R145, R160; log 161). -/
def fetchable (b : BitVec 128) : Bool :=
  let m0 := slotM0 b
  let m1 := slotM1 b
  let l := slotL b
  let c := slotC b
  macOk m0 && macOk m1 && lOk l && cOk c && !lTwice l
    && noDup ((macWrites m0 ++ macWrites m1 ++ lWrites l ++ cWrites c).filter (· != .s 0))

/-- M0 and M1 name one accumulator that one of them writes (R121). -/
def sharedAcc (b : BitVec 128) : Bool :=
  let m0 := slotM0 b
  let m1 := slotM1 b
  (macAcc m0).isSome && macAcc m0 == macAcc m1 && (macFmt (opOf m0) == .ma || macFmt (opOf m1) == .ma)

/-- A bundle is legal (R121). -/
def legalBundle (b : BitVec 128) : Bool := fetchable b && !sharedAcc b

/-- Macro of the slot a bundle that cannot run fails in: M0, M1, the L slot, the C slot, or the register files where two slots
write one register (R147). -/
def badSlot (b : BitVec 128) : Nat :=
  if !macOk (slotM0 b) then 3 else if !macOk (slotM1 b) then 4 else if !lOk (slotL b) || lTwice (slotL b) then 5
  else if !cOk (slotC b) then 6 else 7

/-! ## A module's code (R150) -/

/-- A loop of a module: its bundle and END. -/
def loopOf (a : Nat) (b : BitVec 128) : Option (Nat × Nat) :=
  let c := slotC b
  if opOf c = 0x28 ∨ opOf c = 0x29 then some (a, sf c 25 14) else none

/-- The rule of 0x0143 over n bundles: loops lie within the module and nest, branches stay in their loops, targets lie
within. -/
def structureOk (code : List (BitVec 128)) : Bool :=
  let n := code.length
  let at_ := (nums n).zip code
  let loops := at_.filterMap fun p => loopOf p.1 p.2
  let nests := loops.all fun x => loops.all fun y =>
    !(decide (y.1 + 1 ≤ x.1) && decide (x.1 ≤ y.2)) || decide (x.2 ≤ y.2)
  loops.all (fun x => decide (x.1 < x.2) && decide (x.2 < n)) && nests
    && at_.all fun p =>
      let c := slotC p.2
      let t := sf c 11 0
      !cbOps.contains (opOf c) || (decide (t < n)
        && (opOf c == 0x25 || loops.all fun y =>
              !(decide (y.1 + 1 ≤ p.1) && decide (p.1 ≤ y.2)) || (decide (y.1 + 1 ≤ t) && decide (t ≤ y.2))))

/-- Branch targets and loop ends move by base (R150). -/
def relocate (base : Nat) (b : BitVec 128) : BitVec 128 :=
  let c := slotC b
  let n := c.toNat
  let c' := if cbOps.contains (opOf c) then n - sf c 11 0 + (sf c 11 0 + base) % 4096
    else if opOf c = 0x28 ∨ opOf c = 0x29 then n - sf c 25 14 * 2 ^ 14 + (sf c 25 14 + base) % 4096 * 2 ^ 14
    else n
  BitVec.ofNat 128 (b.toNat % 2 ^ 96 + c' * 2 ^ 96)

end Sys2Proof.Machine
end

