-- ==== Sys2Proof/Machine/FloeArith.lean ====
section
/-! DEFINITION. Floe arithmetic: products, accumulation, extraction, the vector and the scalar operations (chapter 05). -/

namespace Sys2Proof.Machine

/-! ## Vectors (R117) -/

/-- 32-bit lane k. -/
def vlane (v : Vec) (k : Nat) : Word := v.extractLsb' (32 * k) 32
/-- 16-bit half j. -/
def vhalf (v : Vec) (j : Nat) : BitVec 16 := v.extractLsb' (16 * j) 16
/-- The vector of n parts of w bits. -/
def vecOf (w n : Nat) (f : Nat → Nat) : Vec := BitVec.ofNat 256 ((nums n).map fun k => f k % 2 ^ w * 2 ^ (w * k)).sum

/-! ## Products and accumulation (R154-R162) -/

/-- The exact product of lane k (R154). -/
def product (w : Word) (va vb : Vec) (k : Nat) : Int :=
  let mode := sf w 25 24
  let j := if sf w 10 10 = 1 then 0 else k
  let a : Int := if mode = 2 then (vhalf va (2 * k + sf w 23 23)).toInt else (vlane va k).toInt
  let b : Int := if mode = 0 then (vlane vb j).toInt else (vhalf vb (2 * j + sf w 22 22)).toInt
  a * b

/-- A lane not pinned. -/
def Lane.of (x : Int) : Lane := { val := BitVec.ofInt 72 x, pinned := false }

/-- MAC or MSU into a lane, with the product to add: the lane after and whether GOV is set (R157, R158, R162). -/
def Lane.acc (q48 : Bool) (l : Lane) (p : Int) : Lane × Bool :=
  if l.pinned then (l, true)
  else
    let r := l.val.toInt + p
    if r < -(2 ^ 71) then (if q48 then Lane.of r else { val := BitVec.ofInt 72 (-(2 ^ 71)), pinned := true }, true)
    else if 2 ^ 71 - 1 < r then (if q48 then Lane.of r else { val := BitVec.ofInt 72 (2 ^ 71 - 1), pinned := true }, true)
    else (Lane.of r, false)

/-! ## Extraction, NORM and EXPB (R163-R167) -/

/-- Width of WID. -/
def widBits (wid : Nat) : Nat := if wid = 0 then 16 else if wid = 1 then 24 else 32

/-- One extracted lane (R163). -/
def extract (x : Int) (s wid : Nat) : Int :=
  let q := if s = 0 then x else (x + 2 ^ (s - 1)) / 2 ^ s
  satS (widBits wid) q

/-- Redundant sign bits of a lane (R165). -/
def norm (x : BitVec 72) : Nat := ((nums 71).find? fun i => x.getLsbD (70 - i) != x.getLsbD 71).getD 71

/-! ## Vector operations (R168) -/

/-- One lane of w bits (R168). -/
def vop (op sh : Nat) {w : Nat} (a b : BitVec w) : BitVec w :=
  match op with
  | 0x20 => a + b
  | 0x21 => a - b
  | 0x22 => if a.toInt ≤ b.toInt then a else b
  | 0x23 => if a.toInt ≤ b.toInt then b else a
  | 0x24 => a &&& b
  | 0x25 => a ||| b
  | 0x26 => a ^^^ b
  | 0x27 => a <<< sh
  | 0x28 => a.sshiftRight sh
  | 0x29 => BitVec.ofInt w (satS w (if a.toInt < 0 then -a.toInt else a.toInt))
  | 0x2A => BitVec.ofInt w (satS w (a.toInt + b.toInt))
  | _ => a

/-- A whole vector operation. -/
def vectorOp (w : Word) (a b : Vec) : Vec :=
  let op := opOf w
  let sh := sf w 9 5
  if sf w 25 25 = 1 then vecOf 16 16 fun j => (vop op sh (vhalf a j) (vhalf b j)).toNat
  else vecOf 32 8 fun k => (vop op sh (vlane a k) (vlane b k)).toNat

/-! ## Scalar operations (R126, R169) -/

/-- Results of the CI and CR operations on SA and the second operand. -/
def scalarOp (op : Nat) (a b : Word) : Word :=
  let sh := b.toNat % 32
  match op with
  | 0x10 => a + b
  | 0x11 => a - b
  | 0x12 => a &&& b
  | 0x13 => a ||| b
  | 0x14 => a ^^^ b
  | 0x15 => a <<< sh
  | 0x16 => a >>> sh
  | 0x17 => a.sshiftRight sh
  | 0x18 => a * b
  | 0x19 => BitVec.ofInt 32 (a.toInt * b.toInt / 2 ^ 32)
  | 0x1A => if a.toInt < b.toInt then 1 else 0
  | 0x1B => if a.toNat < b.toNat then 1 else 0
  | 0x1C => if a.toInt ≤ b.toInt then a else b
  | _ => if a.toInt ≤ b.toInt then b else a

/-- The result of an immediate operation: ADDI, LUI, ORI, ANDI, XORI, SHLI, SHRI, SHRAI. -/
def immOp (op : Nat) (a : Word) (imm : Nat) : Word :=
  let z : Word := BitVec.ofNat 32 imm
  match op with
  | 1 => a + (BitVec.ofNat 16 imm).signExtend 32
  | 2 => z <<< 16
  | 3 => a ||| z
  | 4 => a &&& z
  | 5 => a ^^^ z
  | 6 => scalarOp 0x15 a z
  | 7 => scalarOp 0x16 a z
  | _ => scalarOp 0x17 a z

/-- A branch compares (R126). -/
def branches (op : Nat) (a b : Word) : Bool :=
  match op with
  | 0x20 => a == b
  | 0x21 => a != b
  | 0x22 => decide (a.toInt < b.toInt)
  | 0x23 => decide (b.toInt ≤ a.toInt)
  | _ => true

end Sys2Proof.Machine
end

