-- ==== Sys2Proof/Machine/Rime.lean ====
section
/-! DEFINITION. The events, register reads and commands of the Rime array (chapter 13). -/

namespace Sys2Proof.Machine

/-! ## Requests (R419-R423) -/

/-- A write to reach r's request port by the unit of domain dom (R419): 64 bytes at once, and never on GFQ9640-ME. -/
def rimeWrite (s : State) (r dom : Nat) (data : List Byte) : State :=
  if !rimeHere s || data.length != 64 then canalAddr s dom (0x1120000000 + 0x10000 * (r + 1) + 0x1000)
  else rimePut s r (rimeReqOf dom data)

/-- RIME_REQUEST (R419, R420). -/
def execRimeRequest (r dom : Nat) (data : List Byte) (s : State) : Out :=
  if s.dev.inReset || decide (4 ≤ r) || !canalIssuer dom then .next s else fin (rimeWrite s r dom data)

/-- Payload of the packet a Basin manager's or Weir unit's request names has left no poison: they hold it themselves. -/
def reqLocal (q : RimeReq) : Bool := q.from_ < 2

/-- The input of a request: read over the Canal, or the packet its requester holds. -/
def reqInput (s : State) (q : RimeReq) (n : Nat) : List Byte := if reqLocal q then q.pkt else memRead s q.inPtr n

/-- The status a request of a slot's mode running on its engine ends with (R423): Canal errors, poison, then the tag. -/
def engineStatus (s : State) (mode : Nat) (q : RimeReq) (tagOk : Bool) : Nat :=
  let n := inLenOf mode q
  if !reqLocal q && (memFlag s q.inPtr || memFlag s (q.inPtr + n - 1) || memFlag s q.outPtr) then 9
  else if !reqLocal q && memPoisoned s q.inPtr n then 8
  else if q.op = 2 && !tagOk then 1 else 0

/-- Zeros written over the units of a GCM packet that fails (R428). -/
def gcmZeros (s : State) (mode : Nat) (q : RimeReq) (status : Nat) : State :=
  if (mode = 5 ∨ mode = 6) ∧ q.op = 2 ∧ (status = 1 ∨ status = 8) ∧ !reqLocal q then
    memWrite s q.outPtr (List.replicate q.len 0)
  else s

/-- The Basin takes the verdict on a packet (R232, R233): plaintext, failure, or too late. -/
def basinVerdict (s : State) (j : RimeJob) : State :=
  let q := j.req
  let c := q.who
  let b := basinOf s c
  let here : Bool := match b.slot q.seq with | some x => x.seq == q.seq && x.st == .provisional | none => false
  let put (st : SlotSt) (s : State) : State :=
    modBasin s c fun b => match b.slot q.seq with | some x => b.setSlot q.seq { x with st := st } | none => b
  if j.status = 0 then
    if here then put .ready (memWrite s (b.addr q.seq + 64) (fitTo q.len j.out)) else bsnCount s c 1
  else
    let s := if here then put .failed (memWrite s (b.addr q.seq + 64) (List.replicate q.len 0)) else s
    bsnCount s c 8

/-- With WEIR set a failing verdict also goes to the stream's Weir unit (R428). -/
def weirReport (s : State) (q : RimeReq) : State :=
  match (chanOf s q.who).core.rxSrc with
  | .stream n =>
    let u := (rxsOf s n).p.port
    modNet s fun t => { t with weirBad := tabMod [] t.weirBad u (· ++ [(n, q.seq, q.leg == 1)]) }
  | _ => s

/-- The completion of a finished request reaches its requester (R423). -/
def rimePost (s : State) (r : Nat) (j : RimeJob) : State :=
  let q := j.req
  let s := rimeTidy s r q.slot
  if q.done = 0 then
    let it := mkItem q.kind q.atomic q.prio q.group q.chamber q.target q.outPtr (j.status + q.tag.toNat * 2 ^ 16)
    postItem s (96 + 8 * r) r it
  else if q.from_ = 0 then
    let s := basinVerdict s j
    if q.weir && j.status != 0 then weirReport s q else s
  else if q.from_ = 1 then
    match weirTake s q.slot q.seq (q.leg == 1) with
    | none => s
    | some (o, s) => if j.status = 0 then weirSend s o.stream (q.leg == 1) j.out else txFailed s o.stream j.status
  else s

/-- Post what R422 lets through. -/
def rimeFlush (s : State) (r : Nat) : State :=
  let p := postable (rimeReach s r).jobs []
  p.1.foldl (fun s j => rimePost s r j) (modRimeR s r fun x => { x with jobs := p.2 })

/-- RIME_DISPATCH (R422, R425-R427, R433). A request that needs no engine ends at once. While a bank holds the reach's last
completion its engines wait (R198), here and below. -/
def execRimeDispatch (r : Nat) (ue : RimeUe) (s : State) : Out :=
  match (rimeReach s r).queue with
  | [] => .next s
  | (q, _) :: _ =>
    if s.dev.inReset || !engineFree (rimeReach s r) q.op || unitStalled s (96 + 8 * r) then .next s
    else
      let s := rimeDispatch s r ue
      let s := match (rimeReach s r).jobs.getLast? with
        | some j => if j.step = .finished then rimeTally s r j.status else s
        | none => s
      fin (rimeFlush s r)

/-- DERIVATION_DONE (R414, R415, R417, R423): the material of slot k under key generation g is derived, or its unwrapping
fails. -/
def execDerivationDone (r k g : Nat) (s : State) : Out :=
  let mine (j : RimeJob) : Bool := j.step == .deriving_ && j.req.slot == k && j.gen == g
  let n := ((rimeReach s r).jobs.filter mine).length
  if s.dev.inReset || n == 0 || unitStalled s (96 + 8 * r) then .next s
  else if (materialOf s k ((slotOf s k).under g)).isSome then
    fin (modRimeR (cacheUse s r k g) r fun x =>
      { x with jobs := x.jobs.map fun j => if mine j then { j with step := .running } else j })
  else
    let s := modRimeR s r fun x =>
      { x with jobs := x.jobs.map fun j => if mine j then { j with step := .finished, status := 10 } else j }
    let s := if (slotOf s k).gen = g then modSlot s k fun x => { x with st := .faulted } else s
    fin (rimeFlush ((nums n).foldl (fun s _ => rimeTally s r 10) s) r)

/-- RIME_REQUEST_DONE (R43, R420, R422, R423, R427, R428, R430): job j of reach r ends on its engine; errs: what the code checks find
in the memory words it reads. -/
def execRimeRequestDone (x : UnitRead) (j : Nat) (s : State) : Out :=
  let r := x.no
  let errs := x.errs
  match (rimeReach s r).jobs[j]? with
  | none => .next s
  | some b =>
    if s.dev.inReset || b.step ≠ .running || unitStalled s (96 + 8 * r) then .next s
    else
      let q := b.req
      let mode := ((slotOf s q.slot).under b.gen).mode
      let n := inLenOf mode q
      let s := if reqLocal q then s else
        mergeFind (neveReadUe (memFind s q.inPtr n errs) q.inPtr n) q.outPtr (outLen mode q) errs
      let o := engineOut s q b.gen b.idx (reqInput s q n)
      let st := engineStatus s mode q o.1
      let s := if reqLocal q then s else
        memMissed (memMissed s (96 + 8 * r) q.inPtr n) (96 + 8 * r) q.outPtr (outLen mode q)
      let s := if st = 0 && !reqLocal q then memWrite s q.outPtr (fitTo (outLen mode q) o.2) else gcmZeros s mode q st
      let s := if st = 0 ∧ q.op = 2 then
          modSlot s q.slot fun k => k.setHot b.gen ((k.under b.gen).hot.accept b.idx) else s
      fin (rimeFlush (rimeTally (jobEnd s r j st o.2) r st) r)

/-! ## Registers (R14, R419) -/

/-- RIME_COUNT_READ (R14): k 0 RIME_REQ as a pair, 1 AUTH_FAIL, 2 REPLAY, 3 NONCE_RPT, 4 BADREQ, 5 MISS, 6 UE of reach r;
each read clears. -/
def execRimeCountRead (r k : Nat) (hi : Bool) (s : State) : Out :=
  if s.dev.inReset || decide (4 ≤ r) || decide (7 ≤ k) then .next s
  else if !rimeHere s then fin (returned (canalAddr s 233 (0x1120000000 + 0x10000 * (r + 1) + 0x10)) 0)
  else
    let x := rimeReach s r
    let clr (f : RimeReach → RimeReach) (n : Nat) : Out := fin (returned (modRimeR s r f) n)
    match k with
    | 0 =>
      if hi then clr (fun x => { x with reqHi := none }) (x.reqHi.elim (x.reqs / 2 ^ 32) (·.toNat))
      else clr (fun y => { y with reqHi := some (hiWord x.reqs), reqs := 0 }) (x.reqs % 2 ^ 32)
    | 1 => clr (fun x => { x with authFail := 0 }) x.authFail
    | 2 => clr (fun x => { x with replay := 0 }) x.replay
    | 3 => clr (fun x => { x with nonce := 0 }) x.nonce
    | 4 => clr (fun x => { x with bad := 0 }) x.bad
    | 5 => clr (fun x => { x with miss := 0 }) x.miss
    | _ => clr (fun x => { x with ue := 0 }) x.ue

/-! ## Commands (R409, R413, R416-R418, R430-R432) -/

/-- NX_RIME_ROOT_PROG (R413): a root key 0 to 3 of 32 bytes goes to OTP once. -/
def nxRimeRootProg (root : Nat) (key : List Byte) (_ : NxHdr) (s : State) : NxRes :=
  if 4 ≤ root ∨ key.length ≠ 32 then no 0x0106
  else checked [(!rootHere s root, 0x0423, noObj)] (ok (modStored_ s fun t => { t with roots := t.roots ++ [(root, key)] }))
/-- The catalogue row of NxRimeRootProg. -/
def spNxRimeRootProg : NxSpec :=
  { opcode := 0x0B01, cls := 0, states := [.ready] }
def execNxRimeRootProg (b : Nat) (f : Fmt) (root : Nat) (key : List Byte) (s : State) : Out :=
  runNx spNxRimeRootProg b f (.nxRimeRootProg b f root key) (nxRimeRootProg root key) s

/-- A slot is named by a protected channel (R431). -/
def slotProt (s : State) (k : Nat) : Bool := s.media.chans.any fun c => c.2.core.keys.contains k && chanProt s c.1

/-- The channels holding Floe units that name slot k for receiving, for transmitting. -/
def rxUsers (s : State) (k : Nat) : Bool :=
  s.media.chans.any fun c => c.2.st.live && (c.2.core.keyRx == some k || c.2.core.keyRxB == some k)
def txUsers (s : State) (k : Nat) : Bool :=
  s.media.chans.any fun c => c.2.st.live && (c.2.core.keyTx == some k || c.2.core.keyTxB == some k)

/-- The check value v is new for slot k (R418, R433): a TX slot's differs from its present one and from those of other TX
slots in use; a FAULTED slot's differs from its present one. -/
def kcvNew (s : State) (k dir : Nat) (v : DWord) : Bool :=
  let x := slotOf s k
  !((dir == 0 || x.st == .faulted) && x.st != .empty && x.kcv == v)
    && !(dir == 0 && s.rime.slots.any fun p =>
      p.1 != k && p.2.dir == 0 && (p.2.st == .loaded || p.2.st == .spent) && p.2.kcv == v)

/-- The slot NX_RIME_KEY_SET leaves: an SRTP slot keeps the home its users gave it, another is homed where the command names (R411);
the state of the former key stays for requests accepted under it (R417, R428). -/
def keyLoaded (x : KeySlot) (mode dir : Nat) (wrapped : Bool) (root : Nat) (label : List Byte) (pin : Bool)
    (value : List Byte) (kcv : DWord) (reach : Nat) : KeySlot :=
  { st := .loaded, mode := mode, dir := dir, wrapped := wrapped, root := root, label := label, pin := pin,
    value := value, kcv := kcv, gen := x.gen + 1,
    home := if !srtpMode mode then some reach else if srtpMode x.mode then x.home else none,
    named := if srtpMode mode then 0 else reach, hot := Hot.reset, olds := (x.gen, x.under x.gen) :: x.olds }

/-- Forget earlier keys no request needs, in every reach. -/
def tidyAll (s : State) (k : Nat) : State := (nums 4).foldl (fun s r => rimeTidy s r k) s

/-- KIND and value as they go on: the clear key of an IMPORT_CLEAR is wrapped under the slot's key-encryption key (R416). -/
def keyStored (s : State) (slot mode kind root : Nat) (label value : List Byte) : Nat × List Byte :=
  if kind = 2 then (1, kwpWrap (slotKek (rootKey s root) label slot mode) value)
  else (kind, if kind = 0 then [] else value)

/-- NX_RIME_KEY_SET (R43, R411, R412, R414-R418, R431, R432): kind 0 DERIVED, 1 WRAPPED with the wrapped value, 2 IMPORT_CLEAR with
the clear master key and salt. -/
def nxRimeKeySet (mode dir kind root : Nat) (label : List Byte) (pin : Bool) (value : List Byte) (reach : Nat)
    (h : NxHdr) (s : State) : NxRes :=
  let k := h.idx
  let x := slotOf s k
  let me := objNo 0x0F k
  let named := match slotUsers s k with | c :: _ => objNo 1 c | [] => me
  let w := keyStored s k mode kind root label value
  let m := slotMaterial (rootKey s root) k mode (kind != 0) label w.2
  let kcv := m.elim 0 (keyCheck mode)
  let y := keyLoaded x mode dir (kind != 0) root label pin w.2 kcv reach
  let s' := modSlot s k fun _ => y
  let srtp := srtpMode mode
  let newHome := !srtp && x.home != some reach
  if 3 ≤ kind ∨ 8 ≤ root ∨ 32 < label.length ∨ 4 ≤ reach ∨ (kind = 2 ∧ srtp ∧ value.length ≠ modeKey mode + modeSalt mode)
  then no 0x0106
  else
    checked
      [(1 ≤ mode && mode ≤ 9 && (if srtp then decide (dir < 2) else dir == 2), 0x01C0, me), (rootHere s root, 0x01C1, me),
       (kind == 0 || srtp, 0x01C2, me), (!(rxUsers s k && txUsers s k), 0x01C3, named),
       ((!rxUsers s k || (srtp && dir == 1)) && (!txUsers s k || (srtp && dir == 0)), 0x01C4, named),
       (!(s.dev.tandemEn && slotProt s k) || decide (root < 4), 0x01C6, named),
       (srtp || mode == 9 || m.any xtsHalves, 0x01C7, me), (m.isNone || kcvNew s k dir kcv, 0x0421, me),
       (m.isSome, 0x0422, me),
       (match y.home with | some r => reachFits s' r s.rime.strength | none => true, 0x0370, me),
       (!newHome || decide ((homed s reach).length < 4096), 0x0372, me),
       (match y.home with | some r => decide (pinned s' r ≤ 384) | none => true, 0x0373, me)]
      (ok (coldClean (tidyAll s' k) k))

/-- The berth's payload after an IMPORT_CLEAR that completed: zeros (R416). -/
def importWiped (b : Nat) (t : State) : State :=
  if berthNum t b 6 2 = 0 then berthPut t b 16 (List.replicate (payloadMax t) 0) else t

/-- After an IMPORT_CLEAR through berth b's payload (R416). -/
def importEnd (clear : Bool) (b : Nat) : Out → Out
  | .next t => .next (if clear then importWiped b t else t)
  | o => o

/-- The catalogue row of NxRimeKeySet. -/
def spNxRimeKeySet : NxSpec :=
  { opcode := 0x0B02, cls := 0x0F, states := rs, prot := slotProt }
def execNxRimeKeySet (b : Nat) (f : Fmt) (mode dir kind root : Nat) (label : List Byte) (pin : Bool) (value : List Byte)
    (reach : Nat) (s : State) : Out :=
  let w := keyStored s (hdrOf s b).idx mode kind root label value
  importEnd (nxReady s b && (hdrOf s b).opcode == 0x0B02 && kind == 2 && !(hdrOf s b).dma) b
    (runNx spNxRimeKeySet b f (.nxRimeKeySet b f mode dir w.1 root label pin w.2 reach)
      (nxRimeKeySet mode dir kind root label pin value reach) s)

/-- The object that names slot k: an enabled channel, or the Icehouse, whose archive it serves; the slot where none does (R479). -/
def slotUserObj (s : State) (k : Nat) : Word :=
  match slotUsers s k with
  | c :: _ => objNo 1 c
  | [] => if s.ice.archive = some k then objNo 0x11 0 else objNo 0x0F k

/-- NX_RIME_KEY_CLEAR (R417, R431, R432, R479). -/
def nxRimeKeyClear (h : NxHdr) (s : State) : NxRes :=
  let k := h.idx
  checked [((slotUsers s k).isEmpty && s.ice.archive != some k, 0x0424, slotUserObj s k)]
    (ok (tidyAll (modSlot s k fun x =>
      { KeySlot.reset with gen := x.gen + 1, olds := (x.gen, x.under x.gen) :: x.olds }) k))
/-- The catalogue row of NxRimeKeyClear. -/
def spNxRimeKeyClear : NxSpec :=
  { opcode := 0x0B03, cls := 0x0F, states := rs, legal := fun s k => (slotOf s k).st != .empty, prot := slotProt }
def execNxRimeKeyClear (b : Nat) (f : Fmt) (s : State) : Out :=
  runNx spNxRimeKeyClear b f (.nxRimeKeyClear b f) nxRimeKeyClear s

/-- NX_RIME_KEY_GET (R431): state, MODE, DIR, KIND, ROOT, LABEL, PIN, check value, home reach; HWM of a TX slot; ROC and
s_h of an RX slot. A value a slot does not hold reads as all ones (log 75). -/
def nxRimeKeyGet (h : NxHdr) (s : State) : NxRes :=
  let x := slotOf s h.idx
  let vals : List RVal :=
    [nv x.st.no, nv x.mode, nv x.dir, nv (b2n x.wrapped), nv x.root, .blob x.label 32, .flag x.pin, .wide x.kcv.toNat,
     keyVal x.home]
  let dirs : List RVal :=
    if !srtpMode x.mode then []
    else if x.dir = 0 then [.wide (x.hot.hwm.getD (2 ^ 64 - 1))] else [nv x.hot.roc, keyVal x.hot.sh]
  .done s (replyOf [vals ++ dirs]) 0
/-- The catalogue row of NxRimeKeyGet. -/
def spNxRimeKeyGet : NxSpec :=
  { opcode := 0x0B04, cls := 0x0F, states := rsr, audit := false }
def execNxRimeKeyGet (b : Nat) (f : Fmt) (s : State) : Out :=
  runNx spNxRimeKeyGet b f (.nxRimeKeyGet b f) nxRimeKeyGet s

/-- NX_RIME_SET (R409, R424). -/
def nxRimeSet (strength : Nat) (_ : NxHdr) (s : State) : NxRes :=
  if strength < 1 ∨ 3 < strength then no 0x0106
  else checked [((nums 4).all fun r => reachFits s r strength, 0x0371, noObj)]
    (ok (modRime s fun x => { x with strength := strength }))
/-- The catalogue row of NxRimeSet. -/
def spNxRimeSet : NxSpec :=
  { opcode := 0x0B05, cls := 0, states := rs }
def execNxRimeSet (b : Nat) (f : Fmt) (strength : Nat) (s : State) : Out :=
  runNx spNxRimeSet b f (.nxRimeSet b f strength) (nxRimeSet strength) s

/-- NX_RIME_XTS (R430, R460): one sector of the input buffer, as a long command; a slot of another mode or a length that
is no sector is refused with 0x0106 (log 76). -/
def nxRimeXts (dec : Bool) (sector : Nat) (h : NxHdr) (s : State) : NxRes :=
  let m := (slotOf s h.idx).mode
  if (m ≠ 7 ∧ m ≠ 8) ∨ (h.inLen ≠ 512 ∧ h.inLen ≠ 4096) then no 0x0106
  else if h.outLen < h.inLen then .refuse 0x0301 noObj h.inLen
  else .long s (.rimeXts h.idx dec sector)
/-- The catalogue row of NxRimeXts. -/
def spNxRimeXts : NxSpec :=
  { opcode := 0x0B06, cls := 0x0F, states := [.service], legal := fun s k => (slotOf s k).st == .loaded }
def execNxRimeXts (b : Nat) (f : Fmt) (dec : Bool) (sector : Nat) (s : State) : Out :=
  runNx spNxRimeXts b f (.nxRimeXts b f dec sector) (nxRimeXts dec sector) s

/-- The end of NX_RIME_XTS (R419, R430): the sector read from host memory, under the slot's two keys; its request counts in
the slot's home reach. -/
def xtsEnd (s : State) (l : LongCmd) (k : Nat) (dec : Bool) (sector : Nat) (input : List Byte) : State :=
  let x := slotOf s k
  let m := (materialOf s k (x.under x.gen)).getD []
  let s := match x.home with | some r => rimeTally s r 0 | none => s
  endLong s l 0 0 (xts m dec sector (fitTo l.hdr.inLen input))

/-- RIME_RESV of reach r: HASH in 0.1 M/s, rounded down (log 187), and ROUNDS in M/s rounded up. -/
def rimeResv (s : State) (r : Nat) : Nat × Nat :=
  let l := reachLoad s r s.rime.strength
  (l.2 / (28800 * 100000), ceilDiv l.1 (28800 * 1000000))

/-- A mask of the roots 0 to n − 1 that are present (RIME_ROOTS). -/
def rootMask (s : State) (n : Nat) : Nat := (((nums n).filter (rootHere s)).map (2 ^ ·)).sum
/-- AES engines of a reach at work (RIME_QUEUE). -/
def engBusy (x : RimeReach) : Nat := (x.jobs.filter fun j => j.step == .running && j.req.op != 5).length

/-- NX_RIME_STATS (R431, R111): the device-wide registers, field by field from the top bit down, then each reach's queue, reservation, slots and counters. -/
def nxRimeStats (h : NxHdr) (s : State) : NxRes :=
  let dev : List RVal := [nv s.rime.strength, nv (rootMask s 4), nv (rootMask s 8)]
  let reach (r : Nat) : List RVal :=
    let x := rimeReach s r
    [nv (engBusy x), nv x.queue.length] ++ [nv (rimeResv s r).1, nv (rimeResv s r).2] ++
      [nv (pinned s r), nv (homed s r).length, .ctr x.reqs, .ctr x.authFail, .ctr x.replay, .ctr x.nonce, .ctr x.bad,
       .ctr x.miss, .ctr x.ue]
  let clr (x : RimeReach) : RimeReach :=
    { x with reqs := 0, authFail := 0, replay := 0, nonce := 0, bad := 0, miss := 0, ue := 0 }
  let s' := if h.clear then (nums 4).foldl (fun s r => modRimeR s r clr) s else s
  .done s' (replyOf [dev] ++ replyOf ((nums 4).map reach)) 0
/-- The catalogue row of NxRimeStats. -/
def spNxRimeStats : NxSpec :=
  { opcode := 0x0B07, cls := 0, states := rsr, audit := false, counts := true }
def execNxRimeStats (b : Nat) (f : Fmt) (s : State) : Out :=
  runNx spNxRimeStats b f (.nxRimeStats b f)
    nxRimeStats s

end Sys2Proof.Machine
end

