-- ==== Sys2Proof/Machine/TimeOps.lean ====
section
/-! DEFINITION. The Timebase's operations: profiles, the servo, domain steps, the slew, PTP messages (chapter 12). -/

namespace Sys2Proof.Machine

/-! ## Parameters (R373, R374) -/

/-- Ranges of a profile, log2 s: Sync, Announce, Delay_Req, each lowest and highest (R373). -/
def profRange : Nat → (Int × Int) × (Int × Int) × (Int × Int)
  | 0 => ((-1, 1), (0, 4), (0, 5))
  | 1 => ((-7, -1), (-3, 1), (-7, 0))
  | _ => ((-4, 1), (0, 4), (-4, 5))
/-- Default domainNumber of a profile (R373). -/
def profDnum (p : Nat) : Nat := if p = 1 then 127 else 0
/-- announceReceiptTimeout: its default, no parameter naming another (R373, R374). -/
def annTimeout : Nat := 3
/-- domainNumber in force. -/
def InstParams.domain (p : InstParams) : Nat := p.dnum.getD (profDnum p.profile)
/-- ACCEPT in force: PROFILE alone by default (R374). -/
def InstParams.accepts (p : InstParams) : List Nat := p.accept.getD [p.profile]
/-- 2^k seconds in units of 2^-16 ns, k from −7 up. -/
def log2Time (k : Int) : Nat := unitsPerSec / 128 * 2 ^ (k + 7).toNat
/-- d within a range. -/
def within (r : Int × Int) (d : Int) : Bool := decide (r.1 ≤ d) && decide (d ≤ r.2)

/-- Set one parameter (R374). -/
def InstParams.set (p : InstParams) : TbSet → InstParams
  | .profile n => { p with profile := n }
  | .accept l => { p with accept := some l }
  | .dnum n => { p with dnum := some n }
  | .transport n => { p with transport := n }
  | .ports l => { p with ports := l }
  | .vid v => { p with vid := v }
  | .gmAllow l => { p with gmAllow := l }
  | .asym d => { p with asym := d }
  | .bw n => { p with bw := n }
  | .source n => { p with source := n }

/-- Every parameter is within R373 and R374 (0x01B0). -/
def InstParams.ok (p : InstParams) : Bool :=
  decide (p.profile < 3) && p.accepts.all (fun k => decide (k < 3)) && decide (p.domain < 128) && decide (p.transport < 3)
    && p.ports.all (fun n => decide (n < 4)) && (p.vid.elim true fun v => decide (v ≤ 4094))
    && decide (p.gmAllow.length ≤ 8) && p.gmAllow.all (fun g => decide (g < 2 ^ 64))
    && within (-65536000000, 65536000000) p.asym && decide (1 ≤ p.bw) && decide (p.bw ≤ 100) && decide (p.source < 3)

/-! ## The slew (R371, R379) -/

/-- 5 ppm, times 10^15 and 2^16. -/
def slewMax : Nat := 5000000000 * 65536
/-- A rate r is gained or shed at 1 ppm/s over a distance of r² / slewK units. -/
def slewK : Nat := 2000000000000000 * 65536

/-- The largest r with r² ≤ n, r below 2^k. -/
def isqrtBits (n : Nat) : Nat → Nat → Nat
  | 0, r => r
  | k + 1, r => isqrtBits n k (if (r + 2 ^ k) ^ 2 ≤ n then r + 2 ^ k else r)
/-- The integer square root. -/
def isqrt (n : Nat) : Nat := isqrtBits n 96 0

/-- Length in units of the slew that removes delta from rate r (R379). -/
def slewTime (delta r : Int) : Nat :=
  let (d, v) := if delta < 0 then (-delta, -r) else (delta, r)
  let brake := decide (v < 0) || decide ((slewK : Int) * d < v * v)
  let t := if brake then v.natAbs else 0
  let left := if brake then (d - v * v.natAbs / slewK).natAbs else d.natAbs
  let v := if brake then 0 else v.natAbs
  let up := isqrt ((slewK * left + v ^ 2) / 2)
  if up ≤ slewMax then t + (up - v) + up
  else t + (slewMax - v) + (slewK * left + v ^ 2 - 2 * slewMax ^ 2) / (2 * slewMax) + slewMax

/-- The relative frequency after d units, toward the end in which delta and it reach zero together (R379). -/
def slewNext (delta r : Int) (d : Nat) : Int :=
  let (e, v) := if delta < 0 then (-delta, -r) else (delta, r)
  let v' := if v < 0 then min 0 (v + d) else if (slewK : Int) * e ≤ v * v then max 0 (v - d) else min (slewMax : Int) (v + d)
  if delta < 0 then -v' else v'

/-- The selected domain's time less the selected time. -/
def slewDelta (s : State) : Int := ((clkOf s s.tb.selDom).time : Int) - s.tb.sel

/-- A difference has arisen between the selected domain and the selected time: a slew in SERVICE, begun or recomputed; a
step in every other state (R371, R379). switch: a switch gave rise to it. -/
def newDelta (s : State) (switch : Bool) : State :=
  let d := slewDelta s
  if s.dev.devState ≠ .service then tickMove (slewDone s switch)
  else if d.natAbs ≤ 65536 then slewDone s switch
  else
    let s := modTb s fun t => { t with slewing := true, slewSwitch := t.slewSwitch || switch }
    if 60 * unitsPerSec < slewTime d s.tb.slewRate then alarm s 0x48 (objNo 0x0E s.tb.selDom) 0 (siteMacro 232 0) else s

/-- Domain x's time is set to t: a step of the clock, which moves its next PPS edge and, for the selected domain, the
selected time (R371, R379, R397). -/
def domStep (s : State) (x : Nat) (t : Nat) : State :=
  let s := modClk s x fun c => { c with time := t, outSec := ((t : Int) + c.comp * 16384) / unitsPerSec }
  if s.tb.selDom = x then newDelta s false else s

/-! ## The servo (R375) -/

/-- The number of a servo state (TB_STATUS). -/
def Servo.no : Servo → Nat
  | .freerun => 0 | .locking => 1 | .locked => 2 | .holdover => 3
/-- The clock follows a source. -/
def Servo.steered (v : Servo) : Bool := v == .locking || v == .locked

/-- Mean of a list of frequencies, or f for none. -/
def meanOr (f : Int) (l : List Int) : Int := if l.isEmpty then f else l.sum / l.length

/-- The holdover frequency (R375; samples of one a second, log 85). -/
def holdFreq (c : Clk) : Int :=
  if c.servo == .locked && decide (10 ≤ c.lockHist.length) then meanOr c.freq c.lockHist
  else meanOr c.freq (c.steerHist.take 10)

/-- Domain x's servo enters state v: TB_SERVO is posted (R375). -/
def servoTo (s : State) (x : Nat) (v : Servo) : State :=
  let c := clkOf s x
  if c.servo = v then s
  else
    let f := match v with | .freerun => 0 | .holdover => holdFreq c | _ => c.freq
    let now := s.tb.elapsed
    let s := modClk s x fun c =>
      { c with servo := v, freq := f, idle := if c.servo.steered && !v.steered then now else c.idle,
               inBand := none, lockHist := if v = .locked then [] else c.lockHist,
               steerHist := if v = .freerun then [] else c.steerHist, lastUse := if v = .locking then now else c.lastUse }
    unitEv s 0x10 (objNo 0x0E x) (x + 256 * v.no)

/-- A measured offset steers domain x: freq is what its servo makes of it (R375; log 84). -/
def clkSteer (s : State) (x : Nat) (off : Int) (freq : Int) : State :=
  let now := s.tb.elapsed
  let s := modClk s x fun c =>
    { c with offset := off, freq := freq, lastUse := now,
             inBand := if off.natAbs ≤ 6553600 then some (c.inBand.getD now) else none }
  if off.natAbs ≤ 65536000 then s
  else
    match (clkOf s x).servo with
    | .locked => servoTo s x .locking
    | .locking => domStep s x (timeAdd (clkOf s x).time (-off))
    | _ => s

/-! ## PTP messages (R372, R373, R501) -/

/-- n bytes of l from offset o as a signed big-endian number. -/
def beS (l : List Byte) (o n : Nat) : Int := (BitVec.ofNat (8 * n) (be l o n)).toInt
/-- A PTP timestamp at offset o. -/
def ptpTime (l : List Byte) (o : Nat) : Nat := be l o 6 * unitsPerSec + be l (o + 6) 4 * 65536

/-- Instance x listens to a message of frame p on port n (R374). -/
def listens (s : State) (x n : Nat) (p : Parsed) (m : List Byte) : Bool :=
  let c := clkOf s x
  let via := match c.p.transport with | 0 => p.ipv == 0 | 1 => p.ipv == 4 | _ => p.ipv == 6
  c.en && c.p.source == 0 && c.p.ports.contains n && via && p.vids.head? == c.p.vid && decide (44 ≤ m.length)
    && be m 4 1 == c.p.domain

/-- Profiles of ACCEPT in the order R501 tries them. -/
def profOrder (p : InstParams) : List Nat := p.profile :: [1, 2, 0].filter p.accepts.contains

/-- The negotiation entry of instance x (R491). -/
def ptpNeg (s : State) (x : Nat) (st : NegState) (result : Nat) : State :=
  let c := clkOf s x
  negSet s (15 + x) st result (if st = .full then c.profUse + 256 * c.p.domain else (negOf s (15 + x)).mode)

/-- A grandmaster that fits no profile in ACCEPT has been heard (R501). -/
def ptpUnfit (s : State) (x : Nat) : State := if (clkOf s x).gm.isSome then s else ptpNeg s x .failed 0x0841

/-- Two records of one sender on one port. -/
def PtpSrc.same (a b : PtpSrc) : Bool := a.src == b.src && a.port == b.port

/-- a stands before b in lexicographic order. -/
def lexLt : List Nat → List Nat → Bool
  | a :: t, b :: u => decide (a < b) || (a == b && lexLt t u)
  | _, _ => false

/-- a is better than b by the data set comparison of IEEE 1588: different grandmasters by priority1, clockClass, accuracy,
variance, priority2 and identity; one grandmaster by the steps removed, the sender and the receiving port. -/
def Foreign.better (a b : Foreign) : Bool :=
  if a.src.gm = b.src.gm then lexLt [a.steps, a.src.src, a.src.port] [b.steps, b.src.src, b.src.port]
  else lexLt a.rank b.rank

/-- A sender qualifies: two Announces in its last four intervals, fewer than 255 steps (IEEE 1588). -/
def Foreign.fit (now : Nat) (f : Foreign) : Bool :=
  decide (2 ≤ (f.times.filter fun t => decide (now ≤ t + 4 * log2Time f.src.annLog)).length) && decide (f.steps < 255)

/-- The best of those that qualify (R372). -/
def bestOf (now : Nat) (l : List Foreign) : Option Foreign :=
  (l.filter (Foreign.fit now)).foldl (fun b f => match b with
    | none => some f
    | some o => if f.better o then some f else b) none

/-- An Announce: its sender is entered, and the best master clock algorithm chooses; a grandmaster outside GM_ALLOW or every
acceptable profile is never chosen (R372, R373; log 84). -/
def onAnnounce (s : State) (x n : Nat) (m : List Byte) : State :=
  let now := s.tb.elapsed
  let s := modClk s x fun c => { c with heard := now }
  let c := clkOf s x
  let k : PtpSrc := { port := n, src := be m 20 10, gm := be m 53 8, annLog := beS m 33 1 }
  if !(c.p.gmAllow.isEmpty || c.p.gmAllow.contains k.gm) || decide (m.length < 64) then s
  else if !(profOrder c.p).any fun p => within (profRange p).2.1 k.annLog then ptpUnfit s x
  else
    let recent (iv : Int) (l : List Nat) : List Nat := l.filter fun t => decide (now ≤ t + 4 * log2Time iv)
    let old := (c.foreign.find? fun f => f.src.same k).elim [] (·.times)
    let f : Foreign :=
      { src := k, rank := [be m 47 1, be m 48 1, be m 49 1, be m 50 2, be m 52 1, k.gm], steps := be m 61 2,
        times := now :: recent k.annLog old }
    let l := (c.foreign.filter fun f => !f.src.same k && !(recent f.src.annLog f.times).isEmpty) ++ [f]
    modClk s x fun c =>
      let c := { c with foreign := l, lastAnn := if c.cand.any k.same then now else c.lastAnn }
      match bestOf now l with
      | none => c
      | some b =>
        { c with cand := some b.src, lastAnn := b.times.headD now,
                 gm := if c.cand.any fun o => o.same b.src && o.gm == b.src.gm then c.gm else none }

/-- A Sync of the chosen master whose interval fits: the grandmaster is accepted (R373, R375, R501). -/
def ptpAccept (s : State) (x prof : Nat) (k : PtpSrc) : State :=
  let s := modClk s x fun c => { c with gm := some k.gm, profUse := prof }
  let s := ptpNeg s x .full 0
  if (clkOf s x).servo.steered then s else servoTo s x .locking

/-- A Sync, with its origin time t1, is used (R375). -/
def useSync (s : State) (x : Nat) (t1 : Int) (t2 : Nat) (freq : Int) : State :=
  let c := clkOf s x
  let d := (t2 : Int) - t1 - c.p.asym
  clkSteer (modClk s x fun c => { c with t12 := d, syncRx := none }) x (d - c.delay) freq

/-- A Sync of the chosen master, received at t2 (R373, R375). -/
def onSync (s : State) (x : Nat) (m : List Byte) (t2 : Nat) (freq : Int) (k : PtpSrc) : State :=
  let c := clkOf s x
  let iv := beS m 33 1
  match (profOrder c.p).find? fun p => within (profRange p).1 iv && within (profRange p).2.1 k.annLog with
  | none => ptpUnfit (modClk s x fun c => { c with gm := none }) x
  | some p =>
    let s := modClk s x fun c => { c with syncLog := iv }
    let s := if c.gm.isNone || !c.servo.steered then ptpAccept s x p k else s
    if bitOf (be m 6 1) 1 then modClk s x fun c => { c with syncRx := some (be m 30 2, beS m 8 8, t2) }
    else useSync s x ((ptpTime m 34 : Int) + beS m 8 8) t2 freq

/-- A Delay_Resp that answers the instance's Delay_Req (R373, R389). -/
def onDelayResp (s : State) (x : Nat) (m : List Byte) (t3 : Nat) : State :=
  let r := (profRange (clkOf s x).profUse).2.2
  modClk s x fun c =>
    { c with dreqSent := none, dreqLog := max r.1 (min (beS m 33 1) r.2),
             delay := (c.t12 + (ptpTime m 34 : Int) - beS m 8 8 - t3 + c.p.asym) / 2 }

/-- The message m, received at t2 in the domain's time, where instance x uses it (R372). -/
def ptpUse (s : State) (x n : Nat) (m : List Byte) (t2 : Nat) (freq : Int) : Option State :=
  let c := clkOf s x
  let mine := c.cand.filter fun k => k.src == be m 20 10 && k.port == n
  match be m 0 1 % 16 with
  | 0xB => some (onAnnounce s x n m)
  | 0 => mine.map (onSync s x m t2 freq)
  | 8 =>
    match mine, c.syncRx with
    | some _, some (q, corr, t2) =>
      if q = be m 30 2 ∧ c.gm.isSome then some (useSync s x ((ptpTime m 34 : Int) + beS m 8 8 + corr) t2 freq) else none
    | _, _ => none
  | 9 =>
    match mine, c.dreqSent with
    | some _, some t3 =>
      if 54 ≤ m.length ∧ be m 44 10 = (Config.ptpIdent x).toNat ∧ be m 30 2 = c.dreqSeq then some (onDelayResp s x m t3)
      else none
    | _, _ => none
  | _ => none

/-- A Delay_Req of instance x (IEEE 1588; log 84). -/
def dreqMsg (s : State) (x seq : Nat) : List Byte :=
  [0x01, 0x02] ++ beBytes 44 2 ++ [BitVec.ofNat 8 (clkOf s x).p.domain, 0] ++ List.replicate 14 0
    ++ beBytes (Config.ptpIdent x).toNat 10 ++ beBytes seq 2 ++ [1, 0x7F] ++ List.replicate 10 0

/-- The frame that carries it from port n. -/
def dreqFrame (s : State) (x n : Nat) (msg : List Byte) : List Byte :=
  let p := (clkOf s x).p
  let tag := match p.vid with | some v => beBytes 0x8100 2 ++ beBytes v 2 | none => []
  let eth (dst : Nat) : List Byte := beBytes dst 6 ++ beBytes (Config.srcMac n).toNat 6 ++ tag
  match p.transport with
  | 0 => eth 0x011B19000000 ++ beBytes 0x88F7 2 ++ msg
  | 1 =>
    let src := (Config.ptpIp n 4).toNat
    let dst := 0xE0000181
    let udp := udpBytes 4 src dst 319 319 Config.udpSum msg
    let hd (c : Nat) : List Byte := [0x45, 0] ++ beBytes (20 + udp.length) 2 ++ beBytes (Config.ipIdent n).toNat 4
      ++ [1, 17] ++ beBytes c 2 ++ ipBytes 4 src ++ ipBytes 4 dst
    eth 0x01005E000181 ++ beBytes 0x0800 2 ++ hd (inetSum (hd 0)) ++ udp
  | _ =>
    let src := (Config.ptpIp n 6).toNat
    let dst := 0xFF0E * 2 ^ 112 + 0x181
    let udp := udpBytes 6 src dst 319 319 true msg
    eth 0x333300000181 ++ beBytes 0x86DD 2 ++ beBytes (6 * 2 ^ 28) 4 ++ beBytes udp.length 2 ++ [17, 1] ++ ipBytes 6 src
      ++ ipBytes 6 dst ++ udp

/-! ## Advancing the times (R370, R377, R399) -/

/-- Domain x advances by d units more or less its frequency relative to f. -/
def clkRun (c : Clk) (d : Nat) (f : Int) : Clk :=
  let n := (d : Int) * (c.freq - f) + c.rem
  { c with time := timeAdd c.time (d + n / unitsPerSec), rem := n % unitsPerSec }

/-- One frequency sample of a steered clock (R375). -/
def clkSample (c : Clk) : Clk :=
  if !c.servo.steered then c
  else { c with steerHist := (c.freq :: c.steerHist).take 10,
                lockHist := if c.servo = .locked then (c.freq :: c.lockHist).take 60 else c.lockHist }

/-- The selected time advances by d; the selected domain with it, or by what the slew gives; the other domain by their
exact difference in frequency (R377, R379). -/
def tbAdvance (s : State) (d : Nat) : State :=
  let t := s.tb
  let x := t.selDom
  let f := (clkOf s x).freq
  let delta := slewDelta s
  let r := if t.slewing then slewNext delta t.slewRate d else 0
  let n := if t.slewing then (t.slewRate + r) * d + t.slewRem else 0
  let move := n / slewK
  let s := modTb s fun t => { t with sel := t.sel + d, slewRate := r, slewRem := n % slewK, elapsed := t.elapsed + d }
  let s := modClk s (1 - x) fun c => let c := clkRun c d f
                                     { c with time := timeAdd c.time (-move) }
  let s := modClk s x fun c => { c with time := if t.slewing then timeAdd c.time (d - move) else s.tb.sel }
  if (t.elapsed + d) / unitsPerSec = t.elapsed / unitsPerSec then s
  else modTb s fun t => { t with clkA := clkSample t.clkA, clkB := clkSample t.clkB }

/-- The instant of the next tick of 8000 × i Hz. -/
def nextTick (s : State) (i : Nat) : Nat := tickTime (8000 * i) (tabGet 0 s.tb.ticks i + 1)

/-- The first whole millisecond at least 100 µs from now (R378). -/
def switchAt (s : State) : Nat := roundUp (s.tb.sel + 100000 * 65536) (1000000 * 65536)

/-- Domain x's time lies within m ns of the selected time (R378, R380). -/
def nearSel (s : State) (x m : Nat) : Bool :=
  decide ((((clkOf s x).time : Int) - s.tb.sel).natAbs ≤ m * 65536)

end Sys2Proof.Machine
end

