-- ==== Sys2Proof/Machine/Timebase.lean ====
section
/-! DEFINITION. The events, register accesses and commands of the Timebase (chapter 12). -/

namespace Sys2Proof.Machine

/-! ## PTP -/

/-- A stored frame that no instance uses goes to the port's DEF_RING (R318, R372). -/
def ptpToHost (s : State) (n id : Nat) : State :=
  let g := n * 32 + (portOf s n).cfg.defRing
  if !wireRing s g then portCount s n 16 1
  else
    let s := modStored s n id fun f => { f with takers := f.takers ++ [4] }
    modPort s n fun p => { p with dma := p.dma ++ [{ ring := g, frame := some id, data := [] }] }

/-- PTP_MESSAGE (R310, R372, R373, R375, R388, R501): the message engine takes the head message of flume 392 + n, its words
checked as ecc gives. freq: the frequency the servo makes of a Sync. A message no instance uses goes to DEF_RING. -/
def execPtpMessage (n : Nat) (ecc : List (List Ecc)) (freq : Int) (s : State) : Out :=
  match (portOf s n).ptpq with
  | [] => .next s
  | id :: t =>
    match storedOf s n id with
    | none => .next s
    | some f =>
      let p := parseFrame (f.frame.bytes.take (f.frame.bytes.length - 4))
      match p.ptp with
      | none => .next s
      | some m =>
        if s.dev.inReset then .next s
        else
          match popItems s (392 + n) (fun k => ecc.getD k []) (ceilDiv m.length 32) with
          | none => .next s
          | some (items, s) =>
            let s := modPort s n fun p => { p with ptpq := t }
            if f.poison || items.any (fun i => i.words.any (·.poison)) then fin (portCount s n 17 1)
            else
              let own (x : Nat) : Nat := timeAdd f.frame.stamp (((clkOf s x).time : Int) - (clkOf s f.frame.dom).time)
              let used (x : Nat) : Option State := if listens s x n p m then ptpUse s x n m (own x) freq else none
              match (used 0).orElse fun _ => used 1 with
              | some s => fin s
              | none => fin (ptpToHost s n id)

/-- DELAY_REQ_SEND (R372, R373, R389): instance x sends Delay_Req at its interval on its master's port. -/
def execDelayReqSend (x : Nat) (s : State) : Out :=
  let c := clkOf s x
  match c.cand with
  | none => .next s
  | some k =>
    if decide (2 ≤ x) || s.dev.inReset || !c.en || c.p.source != 0 || !c.servo.steered
        || c.dreqAt.any (fun t => decide (s.tb.elapsed < t + log2Time c.dreqLog)) || !(portOf s k.port).cfg.txEn
        || txWaits s 230 then
      .next s
    else
      let q := (c.dreqSeq + 1) % 65536
      let s := modClk s x fun c => { c with dreqSeq := q, dreqSent := none, dreqAt := some s.tb.elapsed }
      let l := dreqFrame s x k.port (dreqMsg s x q)
      fin (txPut s k.port { mkTx (portOf s k.port).cfg.ptpClass l with inst := some x, prod := some 230 })

/-- A Sync or an edge is missing, or the grandmaster's Announces are (R375). -/
def servoLost (s : State) (x : Nat) : Bool × Bool :=
  let c := clkOf s x
  let now := s.tb.elapsed
  let iv := if c.p.source = 1 then unitsPerSec else log2Time c.syncLog
  let gone := c.cand.any fun k => decide (c.lastAnn + annTimeout * log2Time k.annLog ≤ now)
  (gone, c.servo.steered && (gone || decide (c.lastUse + max (4 * iv) unitsPerSec ≤ now)))

/-- SERVO_STATE_TIMEOUT (R375): the servo enters HOLDOVER when Syncs or the grandmaster are missing, or LOCKED once the
offset has stayed within ±100 ns for 10 s. -/
def execServoStateTimeout (x : Nat) (s : State) : Out :=
  let c := clkOf s x
  if decide (2 ≤ x) || s.dev.inReset || !c.en || c.p.source == 2 then .next s
  else
    let (gone, lost) := servoLost s x
    let s' := if gone then modClk s x fun c =>
        { c with cand := none, gm := none, syncRx := none, foreign := c.foreign.filter fun f => !c.cand.any f.src.same }
      else s
    if lost then fin (servoTo s' x .holdover)
    else if gone then fin s'
    else if c.servo == .locking && c.inBand.any (fun t => decide (t + 10 * unitsPerSec ≤ s.tb.elapsed)) then
      fin (servoTo s x .locked)
    else .next s

/-- PTP_NO_GM (R501): three announceReceiptTimeout intervals of silence; before an Announce is heard the interval is the
longest of PROFILE (log 86). -/
def execPtpNoGm (x : Nat) (s : State) : Out :=
  let c := clkOf s x
  let iv := log2Time (c.cand.elim (profRange c.p.profile).2.1.2 (·.annLog))
  if decide (2 ≤ x) || s.dev.inReset || !c.en || c.p.source != 0 || c.gm.isSome
      || decide (s.tb.elapsed < c.heard + 3 * annTimeout * iv) || (negOf s (15 + x)).st == .failed then .next s
  else fin (ptpNeg s x .failed 0x0840)

/-! ## The selected time -/

/-- SWITCH_INSTANT (R378, R379): at S the selected domain changes; the selected time keeps its value. -/
def execSwitchInstant (s : State) : Out :=
  match s.tb.pend with
  | none => .next s
  | some (x, at_) =>
    if s.dev.inReset || decide (s.tb.sel < at_) then .next s
    else fin (newDelta (modTb s fun t => { t with selDom := x, pend := none }) true)

/-- SLEW_END (R379): Δ is at most 1 ns. -/
def execSlewEnd (s : State) : Out :=
  if s.dev.inReset || !s.tb.slewing || decide (65536 < (slewDelta s).natAbs) then .next s else fin (slewDone s false)

/-- AUTO_SWITCH (R380). -/
def execAutoSwitch (s : State) : Out :=
  let t := s.tb
  let o := 1 - t.selDom
  let c := clkOf s t.selDom
  if s.dev.inReset || !t.auto || t.autoUsed || t.pend.isSome || c.servo.steered
      || decide (t.elapsed < c.idle + t.autoWait * (unitsPerSec / 10)) || (clkOf s o).servo != .locked
      || !nearSel s o t.switchMax then .next s
  else
    let s := modTb s fun t => { t with pend := some (o, switchAt s), autoUsed := true }
    fin (unitEv s 0x12 (objNo 0x0E o) o)

/-- MEDIA_TICK (R370, R377, R399, R400): the next tick of 8000 × i Hz, no other rate's being earlier; the times advance to
its instant. -/
def execMediaTick (i : Nat) (s : State) : Out :=
  let t := nextTick s i
  if s.dev.inReset || !([1, 2, 4, 6, 12].contains i) || [1, 2, 4, 6, 12].any (fun j => decide (nextTick s j < t)) then
    .next s
  else
    let s := tbAdvance s (t - s.tb.sel)
    fin (modTb s fun u => { u with ticks := tabMod 0 u.ticks i (· + 1) })

/-! ## Two-step queues -/

/-- TB_TSQ_POP (R391, R394): a POP whose SEQ matches the head's removes the head; the vector is raised while entries
remain. -/
def execTbTsqPop (a : Agent) (n : Nat) (w : Word) (s : State) : Out :=
  let q := tsqOf s n
  match q.entries with
  | [] => .next s
  | e :: t =>
    if !barLive s a || decide (4 ≤ n) || e.seq != w.toNat % 4 then .next s
    else
      let s := modTsq s n fun q => { q with entries := t }
      fin (if t.isEmpty then s else raiseVec s q.vector)

/-- TB_TSQ_COUNT_READ (R389, R391, R392, R395): k 0 TB_TSQ_OVF, 1 TB_TSQ_UE, 2 TB_FLAG_IGN, 3 TB_ONESTEP_SKIP, read and
cleared. -/
def execTbTsqCountRead (a : Agent) (n k : Nat) (s : State) : Out :=
  if !barLive s a || decide (4 ≤ n) then fin (returned s 0)
  else
    let q := tsqOf s n
    match k with
    | 0 => fin (returned (modTsq s n fun q => { q with ovf := 0 }) q.ovf)
    | 1 => fin (returned (modTsq s n fun q => { q with ue := 0 }) q.ue)
    | 2 => fin (returned (modTsq s n fun q => { q with flagIgn := 0 }) q.flagIgn)
    | 3 => fin (returned (modTsq s n fun q => { q with skip := 0 }) q.skip)
    | _ => .next s

/-! ## Registers of times -/

/-- Time x: 0 A, 1 B, 2 selected. -/
def todOf (s : State) (x : Nat) : Nat := if x = 2 then s.tb.sel else (clkOf s x).time

/-- TB_TOD_NS_READ (R383): the read of NS latches SEC_HI, SEC_LO and FRAC of the same instant. -/
def execTbTodNsRead (a : Agent) (x : Nat) (s : State) : Out :=
  if !barLive s a || decide (3 ≤ x) then fin (returned s 0)
  else
    let t := todOf s x
    let sec := t / unitsPerSec
    let l := [sec / 2 ^ 32, sec, t % 65536]
    let s := modTb s fun u => { u with latches := (nums 3).foldl (fun m k =>
      tabSet 0 m (3 * x + k) (BitVec.ofNat 32 (l.getD k 0))) u.latches }
    fin (returned s (t % unitsPerSec / 65536))

/-- TB_OFFSET_AB_READ (R14, R377): a read of LO latches the high half; a read of HI returns it. -/
def execTbOffsetAbRead (a : Agent) (hi : Bool) (s : State) : Out :=
  if !barLive s a then fin (returned s 0)
  else
    let v := (BitVec.ofInt 64 ((s.tb.clkB.time : Int) - s.tb.clkA.time)).toNat
    if hi then fin (returned (modTb s fun t => { t with offHi := none }) (s.tb.offHi.elim (v / 2 ^ 32) (·.toNat)))
    else fin (returned (modTb s fun t => { t with offHi := some (hiWord v) }) (v % 2 ^ 32))

/-- TB_PPS_IN_NS_READ (R398): the read latches the seconds of the last edge. -/
def execTbPpsInNsRead (a : Agent) (x : Nat) (s : State) : Out :=
  if !barLive s a || decide (2 ≤ x) then fin (returned s 0)
  else
    let c := clkOf s x
    let s := modTb s fun t => { t with latches := tabSet 0 t.latches (16 + x) (BitVec.ofNat 32 c.inSec) }
    fin (returned s c.inNs)

/-- TB_PPS_IN_CNT_READ (R398): the edge count, cleared. -/
def execTbPpsInCntRead (a : Agent) (x : Nat) (s : State) : Out :=
  if !barLive s a || decide (2 ≤ x) then fin (returned s 0)
  else fin (returned (modClk s x fun c => { c with inCnt := 0 }) (clkOf s x).inCnt)

/-! ## Pulse per second -/

/-- The whole second of domain x's PPS_OUT, PPS_COMP counted in. -/
def ppsSec (c : Clk) : Int := ((c.time : Int) + c.comp * 16384) / unitsPerSec

/-- PPS_OUT_EDGE (R397): the output of domain x falls once WIDTH has passed, or rises at a whole second. A second passed
while it was high, after a step, is omitted. -/
def execPpsOutEdge (x : Nat) (s : State) : Out :=
  let c := clkOf s x
  if decide (2 ≤ x) || s.dev.inReset || !c.outEn || s.dev.devState == .halted then .next s
  else if c.outHigh then
    if s.tb.elapsed < c.outRise + c.width * 65536000 then .next s
    else fin (modClk s x fun c => { c with outHigh := false, outSec := ppsSec c })
  else if ppsSec c = c.outSec then .next s
  else fin (modClk s x fun c => { c with outHigh := true, outSec := ppsSec c, outRise := s.tb.elapsed })

/-- PPS_IN_EDGE (R398): an edge dt units from now is stamped and counted; a pending time of day takes effect, or the
edge steers a clock whose SOURCE is PPS, freq being what its servo makes of it. -/
def execPpsInEdge (x dt : Nat) (freq : Int) (s : State) : Out :=
  let c := clkOf s x
  if decide (2 ≤ x) || s.dev.inReset || !c.inEn then .next s
  else
    let t := c.time + dt
    let s := modClk s x fun c =>
      { c with inSec := t / unitsPerSec % 2 ^ 32, inNs := t % unitsPerSec / 65536, inCnt := sat32 (c.inCnt + 1) }
    if !c.en || c.p.source != 1 then fin s
    else
      let s := if c.servo.steered then s else servoTo s x .locking
      match c.todPend with
      | some sec =>
        let s := modClk s x fun c => { c with todPend := none, lastUse := s.tb.elapsed }
        fin (domStep s x (timeAdd (sec * unitsPerSec) (-(dt : Int))))
      | none =>
        let r := t % unitsPerSec
        fin (clkSteer s x (if 2 * r < unitsPerSec then (r : Int) else (r : Int) - unitsPerSec) freq)

/-! ## The reference clock -/

/-- TB_REFCLK_LOST (R402, R519): the reference has been absent for 10 µs. -/
def execTbRefclkLost (s : State) : Out :=
  if s.dev.inReset || !s.dev.iceRuns then .next s else fin (recover (alarm s 0x4A 0 0 (siteIsland 230)) 0x4A)

/-! ## Commands (R403, R404) -/

/-- The other instance shares a port and the transport under the same DNUM (0x01B1). -/
def portsClash (p q : InstParams) : Bool :=
  p.ports.any q.ports.contains && p.transport == q.transport && p.domain == q.domain

/-- NX_TB_DOMAIN_SET (R374, R403, R404). -/
def nxTbDomainSet (l : List TbSet) (h : NxHdr) (s : State) : NxRes :=
  let x := h.idx
  let p := l.foldl InstParams.set (clkOf s x).p
  checked [(p.ok, 0x01B0, h.object),
           (!p.ports.isEmpty && !portsClash p (clkOf s (1 - x)).p, 0x01B1, h.object),
           (!p.accepts.isEmpty && p.accepts.contains p.profile, 0x01B2, h.object),
           (p.source != 1 || (clkOf s x).inEn, 0x01B6, h.object)]
    (ok (modClk s x fun c => { c with p := p }))
/-- The catalogue row of NxTbDomainSet. -/
def spNxTbDomainSet : NxSpec :=
  { opcode := 0x0A01, cls := 0x0E, states := rs, legal := fun s x => !(clkOf s x).en }
def execNxTbDomainSet (b : Nat) (f : Fmt) (l : List TbSet) (s : State) : Out :=
  runNx spNxTbDomainSet b f (.nxTbDomainSet b f l) (nxTbDomainSet l) s

/-- NX_TB_DOMAIN_ENABLE (R375, R403, R501): listening, and with SOURCE PTP the negotiation, begins. -/
def nxTbDomainEnable (h : NxHdr) (s : State) : NxRes :=
  let x := h.idx
  let s := modClk s x fun c =>
    { c with en := true, cand := none, foreign := [], gm := none, offset := 0, delay := 0, heard := s.tb.elapsed,
             lastAnn := s.tb.elapsed, syncRx := none, dreqSent := none, dreqAt := none, todPend := none,
             dreqLog := max (profRange c.p.profile).2.2.1 (min 0 (profRange c.p.profile).2.2.2) }
  ok (if (clkOf s x).p.source = 0 then negBegin s (15 + x) else s)
/-- The catalogue row of NxTbDomainEnable. -/
def spNxTbDomainEnable : NxSpec :=
  { opcode := 0x0A02, cls := 0x0E, states := rs, legal := fun s x => !(clkOf s x).en }
def execNxTbDomainEnable (b : Nat) (f : Fmt) (s : State) : Out :=
  runNx spNxTbDomainEnable b f (.nxTbDomainEnable b f) nxTbDomainEnable s

/-- NX_TB_DOMAIN_DISABLE (R375, R403, R404): the clock runs free. -/
def nxTbDomainDisable (h : NxHdr) (s : State) : NxRes :=
  let x := h.idx
  checked [(s.dev.devState != .service || s.tb.selDom != x, 0x01B3, h.object)]
    (let s := servoTo s x .freerun
     let s := modClk s x fun c =>
       { c with en := false, freq := 0, cand := none, foreign := [], gm := none, syncRx := none, dreqSent := none,
                todPend := none }
     ok (negSet s (15 + x) .disabled 0 0))
/-- The catalogue row of NxTbDomainDisable. -/
def spNxTbDomainDisable : NxSpec :=
  { opcode := 0x0A03, cls := 0x0E, states := rs, legal := fun s x => (clkOf s x).en }
def execNxTbDomainDisable (b : Nat) (f : Fmt) (s : State) : Out :=
  runNx spNxTbDomainDisable b f (.nxTbDomainDisable b f) nxTbDomainDisable s

/-- NX_TB_SELECT (R378, R380, R403, R404): mode 0 MANUAL, 1 AUTO; wait in 0.1 s, max in ns. -/
def nxTbSelect (mode wait max_ : Option Nat) (h : NxHdr) (s : State) : NxRes :=
  let x := h.idx
  let m := max_.getD s.tb.switchMax
  let w := wait.getD s.tb.autoWait
  let a := mode.getD (b2n s.tb.auto)
  let other := s.tb.selDom != x
  let v := (clkOf s x).servo
  checked [(!other || v == .locked || v == .holdover, 0x01B4, h.object),
           (!other || nearSel s x m, 0x01B5, h.object),
           (decide (a < 2) && decide (1000 ≤ m) && decide (m ≤ 10000000) && decide (1 ≤ w) && decide (w ≤ 600), 0x01B8,
             h.object)]
    (ok (modTb s fun t =>
      { t with auto := a == 1, autoWait := w, switchMax := m, autoUsed := false,
               pend := if other then some (x, switchAt s) else t.pend }))
/-- The catalogue row of NxTbSelect. -/
def spNxTbSelect : NxSpec :=
  { opcode := 0x0A04, cls := 0x0E, states := rs, legal := fun s x => (clkOf s x).en }
def execNxTbSelect (b : Nat) (f : Fmt) (mode wait max_ : Option Nat) (s : State) : Out :=
  runNx spNxTbSelect b f (.nxTbSelect b f mode wait max_) (nxTbSelect mode wait max_) s

/-- NX_TB_PPS (R397, R398, R403, R404): width in µs, comp in 0.25 ns. An input a PPS-steered instance uses stays
enabled. -/
def nxTbPps (outEn inEn : Option Bool) (width : Option Nat) (comp : Option Int) (h : NxHdr) (s : State) : NxRes :=
  let x := h.idx
  let c := clkOf s x
  let w := width.getD c.width
  let k := comp.getD c.comp
  checked [(c.p.source != 1 || inEn.getD c.inEn, 0x01B6, h.object),
           (decide (1 ≤ w) && decide (w ≤ 500000) && within (-4000, 4000) k, 0x01B7, h.object)]
    (ok (modClk s x fun c =>
      let o := outEn.getD c.outEn
      { c with outEn := o, inEn := inEn.getD c.inEn, width := w, comp := k, outHigh := o && c.outHigh,
               outSec := if c.outEn && k == c.comp then c.outSec else ((c.time : Int) + k * 16384) / unitsPerSec }))
/-- The catalogue row of NxTbPps. -/
def spNxTbPps : NxSpec :=
  { opcode := 0x0A05, cls := 0x0E, states := rs }
def execNxTbPps (b : Nat) (f : Fmt) (outEn inEn : Option Bool) (width : Option Nat) (comp : Option Int) (s : State) :
    Out :=
  runNx spNxTbPps b f (.nxTbPps b f outEn inEn width comp)
    (nxTbPps outEn inEn width comp) s

/-- NX_TB_SET_TOD (R398, R403): seconds for the next edge with SOURCE PPS; the clock's time at once with SOURCE FREE. -/
def nxTbSetTod (sec ns frac : Nat) (h : NxHdr) (s : State) : NxRes :=
  let x := h.idx
  if 2 ^ 64 ≤ sec ∨ 1000000000 ≤ ns ∨ 65536 ≤ frac then no 0x0106
  else if (clkOf s x).p.source = 1 then ok (modClk s x fun c => { c with todPend := some sec })
  else ok (domStep s x (sec * unitsPerSec + ns * 65536 + frac))
/-- The catalogue row of NxTbSetTod. -/
def spNxTbSetTod : NxSpec :=
  { opcode := 0x0A06, cls := 0x0E, states := [.ready], legal := fun s x => (clkOf s x).en && (clkOf s x).p.source != 0 }
def execNxTbSetTod (b : Nat) (f : Fmt) (sec ns frac : Nat) (s : State) : Out :=
  runNx spNxTbSetTod b f (.nxTbSetTod b f sec ns frac)
    (nxTbSetTod sec ns frac) s

/-- NX_TB_STATS (R403, R611): a record for each instance, then TB_OFFSET_AB and the counters. -/
def nxTbStats (h : NxHdr) (s : State) : NxRes :=
  let i64 (v : Int) : RVal := .wide (BitVec.ofInt 64 v).toNat
  let inst (x : Nat) : List RVal :=
    let c := clkOf s x
    [.val (c.servo.no : Nat), .wide (c.gm.getD 0), i64 c.offset, i64 c.delay]
  let tsq (n : Nat) : List RVal := let q := tsqOf s n
                                   [.ctr q.ovf, .ctr q.ue, .ctr q.flagIgn, .ctr q.skip]
  let more : List RVal := i64 ((s.tb.clkB.time : Int) - s.tb.clkA.time) :: ((nums 4).map tsq).flatten
    ++ [.ctr s.tb.clkA.inCnt, .ctr s.tb.clkB.inCnt]
  let reply := replyOf [inst 0, inst 1] ++ replyOf [more]
  let clr (s : State) : State :=
    let s := (nums 4).foldl (fun s n => modTsq s n fun q => { q with ovf := 0, ue := 0, flagIgn := 0, skip := 0 }) s
    modClk (modClk s 0 fun c => { c with inCnt := 0 }) 1 fun c => { c with inCnt := 0 }
  .done (if h.clear then clr s else s) reply 0
/-- The catalogue row of NxTbStats. -/
def spNxTbStats : NxSpec :=
  { opcode := 0x0A07, cls := 0, states := rsr, audit := false, counts := true }
def execNxTbStats (b : Nat) (f : Fmt) (s : State) : Out :=
  runNx spNxTbStats b f (.nxTbStats b f) nxTbStats s

end Sys2Proof.Machine
end

