-- ==== Sys2Proof/Machine/FloeOps.lean ====
section
/-! DEFINITION. A Floe's bundle: what each slot reads and writes, faults, retirement, Canal transfers and what a module does
to the channel it serves (chapters 03, 04, 05). -/

namespace Sys2Proof.Machine

/-! ## Register files (R117) -/

/-- Scalar i; s0 reads zero. -/
def FloeRegs.sr (r : FloeRegs) (i : Nat) : Word := if i = 0 then 0 else tabGet 0 r.s i
/-- Write scalar i; s0 discards. -/
def FloeRegs.setS (r : FloeRegs) (i : Nat) (x : Word) : FloeRegs := if i = 0 then r else { r with s := tabSet 0 r.s i x }
/-- Vector i. -/
def FloeRegs.vr (r : FloeRegs) (i : Nat) : Vec := tabGet 0 r.v i
/-- Write vector i. -/
def FloeRegs.setV (r : FloeRegs) (i : Nat) (x : Vec) : FloeRegs := { r with v := tabSet 0 r.v i x }
/-- Lane k of accumulator a. -/
def FloeRegs.lane (r : FloeRegs) (a k : Nat) : Lane := tabGet Lane.reset r.acc (8 * a + k)
/-- Write accumulator lane n. -/
def FloeRegs.setLane (r : FloeRegs) (n : Nat) (x : Lane) : FloeRegs := { r with acc := tabSet Lane.reset r.acc n x }
/-- Address registers of index i. -/
def FloeRegs.ad (r : FloeRegs) (i : Nat) : AddrRegs := tabGet AddrRegs.reset r.ar i
/-- Change the address registers of index i. -/
def FloeRegs.modAd (r : FloeRegs) (i : Nat) (f : AddrRegs → AddrRegs) : FloeRegs :=
  { r with ar := tabMod AddrRegs.reset r.ar i f }
/-- The triple pointer i uses. -/
def FloeRegs.linkOf (r : FloeRegs) (i : Nat) : Nat := tabGet i r.link i
/-- Address register code: kind in [4:3] (p, b, l, m), index in [2:0] (R126). -/
def FloeRegs.areg (r : FloeRegs) (code : Nat) : Word :=
  let a := r.ad (code % 8)
  match code / 8 with
  | 0 => a.p.zeroExtend 32
  | 1 => a.b.zeroExtend 32
  | 2 => a.l.zeroExtend 32
  | _ => a.m.signExtend 32
/-- Write an address register by its code. -/
def FloeRegs.setAreg (r : FloeRegs) (code : Nat) (x : BitVec 18) : FloeRegs :=
  r.modAd (code % 8) fun a => match code / 8 with
    | 0 => { a with p := x }
    | 1 => { a with b := x }
    | 2 => { a with l := x }
    | _ => { a with m := x }

/-! ## MAC slots (R123, R154-R168) -/

/-- What one MAC slot writes. -/
structure MacOut where
  lanes : List (Nat × Lane)
  gov   : List Nat
  v     : List (Nat × Vec)
  s     : List (Nat × Word)
deriving DecidableEq, Repr

/-- No write. -/
def MacOut.none : MacOut := { lanes := [], gov := [], v := [], s := [] }

/-- Every lane of accumulator a by f: the lane after and whether its GOV bit is set. -/
def MacOut.acc (a : Nat) (f : Nat → Lane × Bool) : MacOut :=
  { MacOut.none with lanes := (nums 8).map (fun k => (8 * a + k, (f k).1)),
                     gov := ((nums 8).filter fun k => (f k).2).map (8 * a + ·) }

/-- One MAC slot over the registers the bundle found (R120). -/
def macRun (q48 : Bool) (r : FloeRegs) (w : Word) : MacOut :=
  let a := sf w 21 19
  let va := r.vr (sf w 18 15)
  let vb := r.vr (sf w 14 11)
  let lane (k : Nat) : Int := (r.lane a k).val.toInt
  match opOf w with
  | 0x01 => MacOut.acc a fun k => (Lane.of (product w va vb k), false)
  | 0x02 => MacOut.acc a fun k => (r.lane a k).acc q48 (product w va vb k)
  | 0x03 => MacOut.acc a fun k => (r.lane a k).acc q48 (-(product w va vb k))
  | 0x08 => MacOut.acc a fun _ => (Lane.reset, false)
  | 0x09 => MacOut.acc a fun k => (Lane.of (vlane va k).toInt, false)
  | 0x10 =>
    let d := sf w 18 15
    let wid := sf w 25 24
    let h := sf w 23 23
    let q (k : Nat) : Int := extract (lane k) (sf w 14 9) wid
    let old := r.vr d
    let x := if wid = 0 then
        vecOf 16 16 fun j => if j % 2 = h then (BitVec.ofInt 16 (q (j / 2))).toNat else (vhalf old j).toNat
      else vecOf 32 8 fun k => (BitVec.ofInt 32 (q k)).toNat
    { MacOut.none with v := [(d, x)] }
  | 0x11 => { MacOut.none with v := [(sf w 18 15, vecOf 32 8 fun k => norm (r.lane a k).val)] }
  | 0x12 =>
    let n := (nums 8).foldl (fun m k => min m (norm (r.lane a k).val)) 71
    { MacOut.none with s := [(sf w 8 4, BitVec.ofNat 32 n)] }
  | op =>
    if macFmt op = .mv then
      { MacOut.none with v := [(sf w 21 18, vectorOp w (r.vr (sf w 17 14)) (r.vr (sf w 13 10)))] }
    else MacOut.none

/-! ## Data memory (R133, R135, R147) -/

/-- Data memory with the uncorrectable words found so far in a bundle and the words found corrected, which are whole again
once written back. -/
structure Look where
  m  : FloeMem
  ue : Nat
  fixed : List Nat
deriving DecidableEq, Repr

/-- Corrected words counted. -/
def Look.ce (k : Look) : Nat := k.fixed.length

/-- Words are read: uncorrectable ones are counted and poisoned; a corrected one is written back and counted, once in the
bundle (R135; log 101). -/
def Look.meet (k : Look) (dc du : List Nat) (ws : List Nat) : Look :=
  ws.foldl (fun k w =>
    if k.m.poison.contains w then k
    else if du.contains w then { k with m := { k.m with poison := k.m.poison ++ [w] }, ue := k.ue + 1 }
    else if dc.contains w && !k.fixed.contains w then { k with fixed := k.fixed ++ [w] } else k) k

/-- Site of data word w (R147). -/
def dwordSite (f w : Nat) : DWord := if w < 16384 then siteStage f 1 w else siteStage f 2 (w - 16384)

/-- The fault of a local address, if any: ADDR or MISALIGN (R131, R137, R143). -/
def localFault (a size : Nat) : Option Nat := if 0x40000 ≤ a then some 2 else if a % size ≠ 0 then some 3 else none

/-- What a read of n bytes gives: the poisoned word that faults, or the bytes (R135). -/
def Look.read (k : Look) (a n : Nat) : Except Nat (List Byte) :=
  match (wordsOf a n).find? k.m.poison.contains with
  | some w => .error w
  | none => .ok (readBytes k.m.dmem a n)

/-- A store: words written in part are read for the merge and keep their poison (R135). -/
def Look.store (k : Look) (dc du : List Nat) (a : Nat) (l : List Byte) : Look :=
  let part := (wordsOf a l.length).filter fun w => !(fullWords a l.length).contains w
  let k := k.meet dc du part
  { k with m := dmemWrite k.m a l }

/-! ## Load/store slot (R124, R130, R131) -/

/-- What an address generator does. -/
inductive AgRole where
  | load | store | modify
deriving DecidableEq, Repr

/-- One use of an address generator: role, pointer, M bit, size, and its vector or scalar register. -/
structure Ag where
  role : AgRole
  ptr  : Nat
  useM : Bool
  size : Nat
  vec  : Bool
  reg  : Nat
deriving DecidableEq, Repr

/-- Size of a vector access (R124). -/
def sizeV (z : Nat) : Nat := if z = 0 then 32 else if z = 1 then 4 else 2

/-- The address generators an L slot uses, AG0 first. -/
def agsOf (w : Word) : List Ag :=
  let v0 (r : AgRole) : Ag := ⟨r, sf w 27 25, sf w 24 24 == 1, sizeV (sf w 11 10), true, sf w 23 20⟩
  let v1 (r : AgRole) : Ag := ⟨r, sf w 19 17, sf w 16 16 == 1, sizeV (sf w 9 8), true, sf w 15 12⟩
  let sc (r : AgRole) : Ag := ⟨r, sf w 27 25, sf w 24 24 == 1, 4 / 2 ^ sf w 18 17, false, sf w 23 19⟩
  match opL w with
  | 1 => [v0 .load, v1 .load]
  | 2 => [v0 .load, v1 .store]
  | 3 => [v0 .store, v1 .store]
  | 4 => [v0 .load]
  | 5 => [v0 .store]
  | 6 => [sc .load]
  | 7 => [sc .store]
  | 8 => [v0 .modify, v1 .modify]
  | _ => []

/-- The pointer after a step, and whether CBOUT is set (R130). -/
def agStep (r : FloeRegs) (g : Ag) : BitVec 18 × Bool :=
  let t := r.ad (r.linkOf g.ptr)
  let p : Int := (r.ad g.ptr).p.toNat
  let step : Int := if g.useM then t.m.toInt else g.size
  let l : Int := t.l.toNat
  let off := p - t.b.toNat
  if l = 0 then (BitVec.ofInt 18 (p + step), false)
  else if off < 0 ∨ l ≤ off then (BitVec.ofInt 18 (p + step), true)
  else (BitVec.ofInt 18 (t.b.toNat + (off + step) % l), false)

/-- What the L slot has done so far. -/
structure LOut where
  k     : Look
  fault : Option (Nat × DWord)
  v     : List (Nat × Vec)
  s     : List (Nat × Word)
  p     : List (Nat × BitVec 18)
  cbout : Bool
  banks : List Nat
deriving DecidableEq, Repr

/-- A value of size bytes in every part of a vector. -/
def broadcast (size x : Nat) : Vec := vecOf (8 * size) (32 / size) fun _ => x
/-- A scalar loaded: 16 bits sign-extended, 8 bits zero-extended (R124). -/
def scalarIn (size x : Nat) : Word :=
  if size = 2 then (BitVec.ofNat 16 x).signExtend 32 else BitVec.ofNat 32 x

/-- One address generator acts (R120, R130, R131, R135). -/
def agRun (f : Nat) (r : FloeRegs) (dc du : List Nat) (o : LOut) (g : Ag) : LOut :=
  if o.fault.isSome then o
  else
    let a := (r.ad g.ptr).p.toNat
    let n := agStep r g
    let o' : LOut := { o with p := o.p ++ [(g.ptr, n.1)], cbout := o.cbout || n.2 }
    if g.role = .modify then o'
    else
      match localFault a g.size with
      | some c => { o with fault := some (c, siteMacro f 5) }
      | none =>
        let o' := { o' with banks := o.banks ++ [a / 0x20000] }
        if g.role = .store then
          let x := if g.vec then (r.vr g.reg).toNat else (r.sr g.reg).toNat
          { o' with k := o.k.store dc du a (leBytes x g.size) }
        else
          let k := o.k.meet dc du (wordsOf a g.size)
          match k.read a g.size with
          | .error w => { o with k := k, fault := some (4, dwordSite f w), banks := o'.banks }
          | .ok l =>
            let x := ofLe l
            if g.vec then { o' with k := k, v := o.v ++ [(g.reg, broadcast g.size x)] }
            else { o' with k := k, s := o.s ++ [(g.reg, scalarIn g.size x)] }

/-- The L slot over the registers the bundle found. -/
def lRun (f : Nat) (r : FloeRegs) (m : FloeMem) (dc du : List Nat) (w : Word) : LOut :=
  (agsOf w).foldl (agRun f r dc du)
    { k := { m := m, ue := 0, fixed := [] }, fault := none, v := [], s := [], p := [], cbout := false, banks := [] }

/-- Both address generators met one bank (R129). -/
def LOut.clash (o : LOut) : Bool := match o.banks with | [a, b] => a == b | _ => false

/-! ## Control slot (R126, R137, R142, R143) -/

/-- What a C slot asks of the Floe beside its registers. -/
inductive CAct where
  | none
  | enq (it : FItem)
  | yield
  | xfer (x : Xfer)
  | cwait (n : Nat)
deriving DecidableEq, Repr

/-- What the C slot does. -/
structure COut where
  k     : Look
  /-- code, argument and site. -/
  fault : Option (Nat × Nat × DWord)
  s     : List (Nat × Word)
  /-- where execution goes on, unless at the next bundle. -/
  go    : Option Nat
  loops : List LoopEntry
  areg  : Option (Nat × BitVec 18)
  link  : Option (Nat × Nat)
  clrs  : Nat
  clrg  : Option Nat
  act   : CAct
deriving DecidableEq, Repr

/-- FLOE_STATUS (R615). -/
def Floe.status (x : Floe) : Nat :=
  b2n x.stopped * 2 ^ 31 + b2n x.cur.isNone * 2 ^ 30 + b2n (x.gov != 0) * 2 ^ 29 + x.xfers.length * 2 ^ 24
    + b2n x.cbout * 2 ^ 7 + b2n x.cbfold * 2 ^ 6

/-- Word n of a descriptor: its value, or none where it arrived poisoned (R141, R178). -/
def Item.wrd (it : Item) (n : Nat) : Option Word :=
  let w := match n / 2 with | 0 => it.w0 | 1 => it.w1 | 2 => it.w2 | _ => it.w3
  if it.px.getLsbD (n / 2) then none else some (w.extractLsb' (32 * (n % 2)) 32)

/-- Four words of a descriptor from 32 bytes. -/
def itemFrom (l : List Byte) : FItem :=
  { words := (nums 4).map fun i => ⟨BitVec.ofNat 64 (ofLe ((l.drop (8 * i)).take 8)), false⟩, side := 0 }

/-- CGET and CPUT (R137, R138): the local address is checked, and CPUT copies its data with their poison. -/
def xferOf (x : Floe) (w : Word) (dc du : List Nat) (o : COut) (f : Nat) : COut :=
  let get := opOf w == 0x37
  let size := 4 * 2 ^ sf w 10 8
  let loc := (x.regs.sr (sf w 25 21)).toNat
  let addr := sf w 7 0 * 2 ^ 32 + (x.regs.sr (sf w 20 16)).toNat
  match localFault loc size with
  | some c => { o with fault := some (c, 0, siteMacro f 6) }
  | none =>
    let k := if get then o.k else o.k.meet dc du (wordsOf loc size)
    let px := if get then [] else (nums (wordsOf loc size).length).filter fun i => k.m.poison.contains (loc / 8 + i)
    let t : Xfer := { isGet := get, loc := loc, size := size, addr := addr, pc := x.pc,
                      data := if get then [] else readBytes k.m.dmem loc size, px := px }
    { o with k := k, act := .xfer t }

/-- ENQ (R143): the descriptor is read as a load is. -/
def enqOf (x : Floe) (w : Word) (dc du : List Nat) (o : COut) (f : Nat) : COut :=
  let a := (x.regs.sr (sf w 20 16)).toNat
  match localFault a 32 with
  | some c => { o with fault := some (c, 0, siteMacro f 6) }
  | none =>
    let k := o.k.meet dc du (wordsOf a 32)
    match k.read a 32 with
    | .error w => { o with k := k, fault := some (4, 0, dwordSite f w) }
    | .ok l => { o with k := k, act := .enq (itemFrom l) }

/-- LOOP and LOOPI with their count (R126, R128). -/
def loopStart (x : Floe) (w : Word) (count : Nat) (o : COut) (f : Nat) : COut :=
  let stop := sf w 25 14
  if count = 0 then { o with go := some (stop + 1) }
  else if 4 ≤ x.regs.loops.length then { o with fault := some (6, 0, siteMacro f 6) }
  else { o with loops := { start := x.pc + 1, stop := stop, left := count } :: x.regs.loops }

/-- The C slot over the registers the bundle found, after the L slot's memory accesses. -/
def cRun (f : Nat) (x : Floe) (k : Look) (dc du : List Nat) (w : Word) : COut :=
  let r := x.regs
  let op := opOf w
  let sd := sf w 25 21
  let a := r.sr (sf w 20 16)
  let imm := sf w 15 0
  let o : COut := { k := k, fault := none, s := [], go := none, loops := r.loops, areg := none, link := none, clrs := 0,
                    clrg := none, act := .none }
  if 1 ≤ op ∧ op ≤ 8 then { o with s := [(sd, immOp op a imm)] }
  else if 0x10 ≤ op ∧ op ≤ 0x1D then { o with s := [(sd, scalarOp op a (r.sr (sf w 15 11)))] }
  else match op with
  | 0x20 | 0x21 | 0x22 | 0x23 =>
    { o with go := if branches op (r.sr sd) a then some (sf w 11 0) else none }
  | 0x24 => { o with go := some (sf w 11 0) }
  | 0x25 => { o with s := [(31, BitVec.ofNat 32 ((x.pc + 1) % 4096))], go := some (sf w 11 0) }
  | 0x26 => { o with go := some ((r.sr 31).toNat % 4096) }
  | 0x28 => loopStart x w (sf w 13 0) o f
  | 0x29 => loopStart x w (r.sr (sf w 13 9)).toNat o f
  | 0x2A => match r.loops with
    | e :: t => if a = 0 then o else { o with loops := t, go := some (e.stop + 1) }
    | [] => o
  | 0x30 => { o with areg := some (sd, a.truncate 18) }
  | 0x31 => { o with s := [(sd, r.areg (imm % 32))] }
  | 0x32 => { o with link := some (sd % 8, imm % 8) }
  | 0x34 => match (x.cur.bind fun it => it.wrd (imm % 8)) with
    | some d => { o with s := [(sd, d)] }
    | none => { o with fault := some (4, 0, siteMacro f 6) }
  | 0x35 => enqOf x w dc du o f
  | 0x36 => { o with act := .yield }
  | 0x37 | 0x38 => xferOf x w dc du o f
  | 0x39 => { o with act := .cwait (imm % 32) }
  | 0x3A => { o with s := [(sd, BitVec.ofNat 32 x.status)] }
  | 0x3B => { o with clrs := imm }
  | 0x3C => { o with clrg := some (imm % 8) }
  | 0x3E => { o with fault := some (8, imm % 256, siteMacro f 6) }
  | _ => o

/-! ## The end of a bundle (R115-R132, R160, R161, R615) -/

/-- The fold of a length write: every pointer linked to the triple whose offset lay within the former buffer at or beyond
the new length goes to b; whether one did (R132). The registers hold the bundle's pointer writes and the new length. -/
def fold (r : FloeRegs) (j : Nat) (old new : BitVec 18) : FloeRegs × Bool :=
  if old = 0 ∨ new = 0 then (r, false)
  else
    let b := (r.ad j).b
    let out := (nums 8).filter fun i =>
      let p := (r.ad i).p.toNat
      r.linkOf i == j && decide (b.toNat ≤ p) && decide (p < b.toNat + old.toNat) && decide (b.toNat + new.toNat ≤ p)
    (out.foldl (fun r i => r.modAd i fun a => { a with p := b }) r, !out.isEmpty)

/-- Where execution goes after the bundle at pc with loop stack l, when nothing branched (R126, R128). -/
def loopNext (pc : Nat) : List LoopEntry → Nat × List LoopEntry
  | [] => ((pc + 1) % 4096, [])
  | e :: t =>
    if e.stop = pc then
      if 1 < e.left then (e.start % 4096, { e with left := e.left - 1 } :: t) else loopNext pc t
    else ((pc + 1) % 4096, e :: t)

/-- GOV bits as a 64-bit value. -/
def govBits (l : List Nat) : BitVec 64 := l.foldl (fun g i => g ||| (1 <<< i)) 0

/-- Every slot's writes take effect together (R120, R132, R160, R161, R615). -/
def Floe.writeback (x : Floe) (m0 m1 : MacOut) (l : LOut) (c : COut) : Floe :=
  let r := x.regs
  let r := l.p.foldl (fun r p => r.modAd p.1 fun a => { a with p := p.2 }) r
  let r := (m0.v ++ m1.v ++ l.v).foldl (fun r v => r.setV v.1 v.2) r
  let r := (m0.s ++ m1.s ++ l.s ++ c.s).foldl (fun r v => r.setS v.1 v.2) r
  let r := (m0.lanes ++ m1.lanes).foldl (fun r v => r.setLane v.1 v.2) r
  let r := match c.link with | some (i, j) => { r with link := tabSet i r.link i j } | none => r
  let (r, folded) := match c.areg with
    | some (code, v) =>
      let j := code % 8
      let old := (r.ad j).l
      let r := r.setAreg code v
      if code / 8 = 2 then fold r j old v else (r, false)
    | none => (r, false)
  let (pc, loops) := match c.go with | some n => (n % 4096, c.loops) | none => loopNext x.pc c.loops
  let set := govBits (m0.gov ++ m1.gov)
  let clr : BitVec 64 := match c.clrg with | some a => 0xFF <<< (8 * a) | none => 0
  let new := set &&& ~~~x.gov
  { x with regs := { r with loops := loops }, pc := pc, gov := (x.gov &&& ~~~clr) ||| set,
           govMask := x.govMask ||| new, govPc := if x.govMask = 0 ∧ new ≠ 0 then x.pc else x.govPc,
           cbout := l.cbout || (x.cbout && !bitOf c.clrs 7), cbfold := folded || (x.cbfold && !bitOf c.clrs 6),
           stalls := if l.clash then sat32 (x.stalls + 1) else x.stalls }

/-! ## Retirement (R142, R145, R161, R175) -/

/-- A record of Floe f: type byte, FLAGS byte, chamber (R175). -/
def recItem (ty flags chamber f : Nat) (w1 w2 : DWord) : Item :=
  { w0 := BitVec.ofNat 64 (ty + flags * 2 ^ 8 + chamber * 2 ^ 32 + f * 2 ^ 48), w1 := w1, w2 := w2, w3 := 0, px := 0 }

/-- The module that owns a kind asks for GOV events (R161). -/
def govWanted (s : State) (kind : Nat) : Bool := s.mods.any fun m => m.govEvt && m.kinds.any fun k => k.1 == kind

/-- The next slot's item becomes current (R142 step 3). -/
def nextItem (s : State) (f : Nat) : State :=
  modFloe s f fun x =>
    { x with cur := x.nxt, nxt := none, started := false, stall := .none, retired := sat64 (x.retired + 1) }

/-- The current item retires: a GOV record where there is one to post, then the retire record; a full flume holds them
(R142, R145, R161). -/
def retire (s : State) (f : Nat) (failed : Bool) : State :=
  let x := floeOf s f
  match x.cur with
  | none => s
  | some it =>
    let gov := if govWanted s it.kind && x.govMask != 0 then
        [(recItem 0x80 0 it.chamber f (BitVec.ofNat 64 x.govPc) x.govMask).flit 2] else []
    let s := pushFlume s f (gov ++ [(recItem 0x40 (if failed then 4 else 0) it.chamber f 0 0).flit 1])
    if (flumeOf s f).held.isEmpty then nextItem s f else modFloe s f fun x => { x with stall := .push true }

/-- FLOE_FAULT (R145). -/
def Floe.faultWord (x : Floe) : Nat := x.faultCode * 2 ^ 24 + x.faultArg * 2 ^ 16 + x.faultPc

/-- Steps 3 to 6 of R145. The channel that owns the chamber is the one of its number, in service mode (R71). -/
def faultNow (s : State) (f : Nat) (e : FloeFault) : State :=
  let s := modFloe s f fun x =>
    { x with faultCode := e.code, faultArg := e.arg, faultPc := e.pc, faultCnt := min 0xFFFF (x.faultCnt + 1) }
  let ch := match (floeOf s f).cur with | some it => it.chamber | none => 0
  let s := logRec s 4 6 (objNo 2 (0x10000 + f)) (leBytes (floeOf s f).faultWord 4 ++ leBytes ch 2)
  let s := retire s f true
  if !s.dev.iceRuns || threadMode s || (chanOf s ch).floe != some f then s else lkpRun (faultChan s ch e.site) (f / 24)

/-- A module fault ends the item; outstanding transfers complete first (R145). -/
def moduleFault (s : State) (f : Nat) (e : FloeFault) : State :=
  if (floeOf s f).xfers.isEmpty then faultNow s f e else modFloe s f fun x => { x with stall := .drain (some e) }

/-! ## Canal transfers (R34-R41, R137-R139, R617) -/

/-- Mark the words of [a, a + n) given as poisoned. -/
def memPoison (s : State) (a : Nat) (ws : List Nat) : State :=
  match canalWhere s a with
  | .ddr a => modFab s fun t => { t with ddrPoison := ws.foldl (fun l w => addOnce l (a / 8 + w)) t.ddrPoison }
  | .neve o => modFab s fun t => { t with nevePoison := ws.foldl (fun l w => addOnce l (o / 8 + w)) t.nevePoison }
  | .floe f o =>
    if floeStopped s f ∧ o < 0x50000 then
      modFmem s f fun m => { m with poison := ws.foldl (fun l w => addOnce l (o / 8 + w)) m.poison }
    else s
  | _ => s

/-- Value of the Floe register at offset o of the register area, and the Floe after a read of it (R14, R145, R615). -/
def floeRegRead (s : State) (f o : Nat) : Nat × State :=
  let x := floeOf s f
  let put (g : Floe → Floe) : State := modFloe s f g
  match o with
  | 0x00 => (b2n x.threadMode * 4 + b2n x.fenced * 2 + b2n x.run, s)
  | 0x04 => (x.status, s)
  | 0x08 => (x.gov.toNat % 2 ^ 32, put fun x => { x with govHi := some (x.gov.extractLsb' 32 32) })
  | 0x0C => ((hiRead x.govHi (x.gov.toNat / 2 ^ 32)), put fun x => { x with govHi := none })
  | 0x10 => (x.faultWord, s)
  | 0x14 => (x.faultCnt, put fun x => { x with faultCnt := 0 })
  | 0x18 => (x.imUe * 2 ^ 24 + x.dmUe * 2 ^ 16 + x.imCe * 2 ^ 8 + x.dmCe,
             put fun x => { x with imUe := 0, dmUe := 0, imCe := 0, dmCe := 0 })
  | 0x1C => (x.retired % 2 ^ 32, put fun x => { x with retired := 0, retiredHi := some (BitVec.ofNat 32 (x.retired / 2 ^ 32)) })
  | 0x20 => (hiRead x.retiredHi (x.retired / 2 ^ 32), put fun x => { x with retiredHi := none })
  | 0x24 => (x.stalls, put fun x => { x with stalls := 0 })
  | 0x28 => ((s.mods.map fun m => m.dataX + m.dataY).sum * 2 ^ 16 + (s.mods.map (·.code)).sum, s)
  | 0x2C => (s.mods.length, s)
  | _ => (0, s)

/-- What waited for transfers goes on (R126, R138, R142, R145). -/
def xferWake (s : State) (f : Nat) : State :=
  let x := floeOf s f
  let go := modFloe s f fun x => { x with stall := .none }
  match x.stall with
  | .xfer => go
  | .cwait n => if x.xfers.length ≤ n then go else s
  | .drain e =>
    if !x.xfers.isEmpty then s
    else match e with
      | none => retire go f false
      | some e => faultNow go f e
  | _ => s

end Sys2Proof.Machine
end

