-- ==== Sys2Proof/Machine/Floe.lean ====
section
/-! DEFINITION. The events and register accesses of the Floes, and the writer's side of a flume (chapters 02, 04). -/

namespace Sys2Proof.Machine

/-- Floe f can issue a bundle: it runs, an item is in service and nothing holds it, a frame that finds no room included (R138,
R324). -/
def issues (s : State) (f : Nat) : Bool :=
  let x := floeOf s f
  decide (f < 96) && !s.dev.inReset && x.run && !x.fenced && x.cur.isSome && x.started && x.stall == .none
    && !txWaits s f

/-- A fetch meets uncorrectable words: the second time within 24 h fences the Floe, else the fetch waits for the rewrite
(R136, R146). -/
def fetchBad (s : State) (f pc : Nat) (iu : List Nat) : State :=
  let ws := iu.map fun w => 2 * pc + w
  let again := ws.find? fun w => (fmemOf s f).imFailed.any fun p => p.1 == w && decide (s.tb.elapsed < p.2 + dayTime)
  match again with
  | some w => fenceFloe s f (siteStage f 0 w)
  | none =>
    let old := (fmemOf s f).imFailed.filter fun p => decide (s.tb.elapsed < p.2 + dayTime)
    let s := modFmem s f fun m => { m with imFailed := old ++ ws.map fun w => (w, s.tb.elapsed) }
    modFloe s f fun x => { x with stall := .imem ws }

/-- A transfer cannot be issued: 16 are outstanding, or the flume to the Canal is full (R138). -/
def xferHeld (s : State) (f : Nat) : Bool :=
  decide (16 ≤ (floeOf s f).xfers.length) || (flumeOf s (192 + f)).fullW (flumeB (192 + f))

/-- What the C slot asks takes place after the bundle's writes (R126, R138, R142, R143). -/
def cAct (s : State) (f : Nat) : CAct → State
  | .none => s
  | .enq it =>
    let s := pushFlume s f [it]
    if (flumeOf s f).held.isEmpty then s else modFloe s f fun x => { x with stall := .push false }
  | .yield => if (floeOf s f).xfers.isEmpty then retire s f false else modFloe s f fun x => { x with stall := .drain none }
  | .xfer t => modFloe s f fun x => { x with xfers := x.xfers ++ [t] }
  | .cwait n => if (floeOf s f).xfers.length ≤ n then s else modFloe s f fun x => { x with stall := .cwait n }

/-- A legal bundle issues: every slot reads, then every slot writes; a fault leaves only the memory accesses made before it
(R120, R129-R132, R135, R145; log 102). -/
def bundle (s : State) (f : Nat) (b : BitVec 128) (dc du : List Nat) (acts : List ChanAct) : State :=
  let x := floeOf s f
  let q48 := s.dev.compatQ48
  let l := lRun f x.regs (fmemOf s f) dc du (slotL b)
  match l.fault with
  | some (c, site) =>
    let s := noteErrors (modFmem s f fun _ => l.k.m) f l.k.ue l.k.ce
    if (floeOf s f).fenced then s else moduleFault s f { code := c, arg := 0, pc := x.pc, site := site }
  | none =>
    let c := cRun f x l.k dc du (slotC b)
    let s := modFmem s f fun _ => c.k.m
    match c.fault with
    | some (n, a, site) =>
      let s := noteErrors s f c.k.ue c.k.ce
      if (floeOf s f).fenced then s else moduleFault s f { code := n, arg := a, pc := x.pc, site := site }
    | none =>
      let s := modFloe s f fun x => x.writeback (macRun q48 x.regs (slotM0 b)) (macRun q48 x.regs (slotM1 b)) l c
      let s := noteErrors (chanActs s f acts) f c.k.ue c.k.ce
      if (floeOf s f).fenced then s else cAct s f c.act

/-- BUNDLE_ISSUE (R120, R136, R145). ic, iu: instruction words 0 and 1 of the bundle found corrected and uncorrectable;
dc, du: data words found so; acts: what the module does to its channel in this bundle (log 103). -/
def execBundleIssue (f : Nat) (ic iu dc du : List Nat) (acts : List ChanAct) (s : State) : Out :=
  if !issues s f then .next s
  else
    let s := modFloe s f fun x => { x with imCe := min 255 (x.imCe + (ic.filter (· < 2)).eraseDups.length) }
    let pc := (floeOf s f).pc
    let iu := ((nums 2).filter fun w => iu.contains w || (fmemOf s f).poison.contains (32768 + 2 * pc + w))
    if !iu.isEmpty then fin (fetchBad s f pc iu)
    else
      let b := tabGet 0 (fmemOf s f).imem pc
      if !fetchable b then fin (moduleFault s f { code := 1, arg := 0, pc := pc, site := siteMacro f (badSlot b) })
      else if [0x37, 0x38].contains (opOf (slotC b)) && xferHeld s f then
        fin (modFloe s f fun x => { x with stall := .xfer })
      else fin (bundle s f b dc du acts)

/-- The current item starts at its kind's entry, or faults NOKIND (R141, R145, R161). -/
def startItem (s : State) (f : Nat) : State :=
  match (floeOf s f).cur with
  | none => s
  | some it =>
    let s := modFloe s f fun x => { x with started := true, govMask := 0, govPc := 0 }
    match s.mods.findSome? fun m => (m.kinds.find? fun k => k.1 == it.kind).map (·.2) with
    | some e => modFloe s f fun x => { x with pc := e }
    | none => moduleFault s f { code := 7, arg := it.kind, pc := 0, site := siteIsland f }

/-- WORK_ITEM_START (R140-R142): a running Floe takes a descriptor into a free slot, and the item in the current slot
starts. -/
def execWorkItemStart (f : Nat) (ecc : List Ecc) (s : State) : Out :=
  let x := floeOf s f
  if 96 ≤ f ∨ s.dev.inReset ∨ !x.run ∨ x.fenced then .next s
  else if x.cur.isSome && !x.started then fin (startItem s f)
  else if x.nxt.isSome then .next s
  else
    match popFlume s (96 + f) ecc with
    | none => .next s
    | some (it, s) =>
      if x.cur.isNone then fin (startItem (modFloe s f fun x => { x with cur := some it.item }) f)
      else fin (modFloe s f fun x => { x with nxt := some it.item })

/-- IMEM_REWRITE_DONE (R136): the words are whole again and the fetch proceeds. -/
def execImemRewriteDone (f : Nat) (s : State) : Out :=
  match (floeOf s f).stall with
  | .imem ws =>
    let s := modFmem s f fun m => { m with poison := m.poison.filter fun w => !(ws.map (32768 + ·)).contains w }
    fin (modFloe s f fun x => { x with stall := .none, imUe := min 255 (x.imUe + ws.length) })
  | _ => .next s

/-! ## Registers (R614, R615) -/

/-- A write to a Floe register: from the Icehouse only. -/
def iceWrite (ice : Bool) (f : Nat) (s : State) : Bool := ice && decide (f < 96) && !s.dev.inReset && s.dev.iceRuns

/-- FLOE_CTRL_WRITE (R614, R146): RUN stops or resumes a Floe that is not fenced. -/
def execFloeCtrlWrite (f : Nat) (ice : Bool) (w : Word) (s : State) : Out :=
  if !iceWrite ice f s || (floeOf s f).fenced then .next s
  else fin (modFloe s f fun x => { x with run := w.getLsbD 0 })

/-- FLOE_STATUS_WRITE (R615): CBOUT and CBFOLD are cleared by ones. A bundle of the same instant comes after the write, so
a bit it sets ends set (log 104). -/
def execFloeStatusWrite (f : Nat) (ice : Bool) (w : Word) (s : State) : Out :=
  if !iceWrite ice f s then .next s
  else fin (modFloe s f fun x => { x with cbout := x.cbout && !w.getLsbD 7, cbfold := x.cbfold && !w.getLsbD 6 })

/-- FLOE_GOV_WRITE (R159, R160): GOV bits of the low or high register are cleared by ones (log 104). -/
def execFloeGovWrite (f : Nat) (hi ice : Bool) (w : Word) (s : State) : Out :=
  if !iceWrite ice f s then .next s
  else
    let clr : BitVec 64 := if hi then w.zeroExtend 64 <<< 32 else w.zeroExtend 64
    fin (modFloe s f fun x => { x with gov := x.gov &&& ~~~clr })

/-- A read of Floe f's register at offset o by a Canal agent. -/
def floeRead (f o : Nat) (s : State) : Out :=
  if 96 ≤ f ∨ s.dev.inReset then .next s
  else
    let (v, s) := floeRegRead s f o
    fin (returned s v)

/-- FLOE_FAULT_CNT_READ (R145). -/
def execFloeFaultCntRead (f : Nat) (s : State) : Out := floeRead f 0x14 s
/-- FLOE_ECC_READ (R136). -/
def execFloeEccRead (f : Nat) (s : State) : Out := floeRead f 0x18 s
/-- FLOE_RETIRED_READ (R14). -/
def execFloeRetiredRead (f : Nat) (s : State) : Out := floeRead f 0x1C s
/-- FLOE_STALLS_READ (R129). -/
def execFloeStallsRead (f : Nat) (s : State) : Out := floeRead f 0x24 s

/-! ## The writer of a flume, and a Canal stop (R55, R56, R517) -/

/-- What waited for room in flume i goes on: a Floe's push, or its transfers (R138, R142, R143). -/
def pushWake (s : State) (i : Nat) : State :=
  if i < 96 then
    match (floeOf s i).stall with
    | .push retires =>
      if !(flumeOf s i).held.isEmpty then s
      else if retires then nextItem s i else modFloe s i fun x => { x with stall := .none }
    | _ => s
  else if 192 ≤ i ∧ i < 288 then
    if (floeOf s (i - 192)).stall == .xfer && !xferHeld s (i - 192) then modFloe s (i - 192) fun x => { x with stall := .none }
    else s
  else s

/-- FLUME_FULL_CLEAR (R54, R56): the writer sees the read pointer, and held pushes proceed. -/
def execFlumeFullClear (i : Nat) (s : State) : Out :=
  let f := flumeOf s i
  if f.rSeen = f.rptr || (flumeShape i).isNone then .next s
  else fin (pushWake (setFlume s i (f.fullClear (flumeB i))) i)

/-- Site of a stopped Canal stop: the reach it stands at, or the main die for one of no reach; never an island (R20, R22). -/
def stopSite : Option Nat → DWord
  | some r => siteReach (r % 4)
  | none => siteDie

/-- CANAL_STALL (R22, R517): the alarm with the stop's site, then HALTED. stop: the reach the stop serves, if any. -/
def execCanalStall (stop : Option Nat) (s : State) : Out :=
  if s.dev.inReset || !s.dev.iceRuns || s.dev.devState == .halted then .next s
  else fin (halt (alarm s 0x11 0 0 (stopSite stop)))

end Sys2Proof.Machine
end

