-- ==== Sys2Proof/Machine/Mods.lean ====
section
/-! DEFINITION. Floe modules: the image, the loader's checks, loading, and the commands of modules and Floes (chapter 04). -/

namespace Sys2Proof.Machine

/-! ## The image (R148) -/

/-- n bytes at offset o of an image payload. -/
def imgNum (l : List Byte) (o n : Nat) : Nat := ofLe ((l.drop o).take n)
/-- Code length in bundles. -/
def imgCode (l : List Byte) : Nat := imgNum l 16 2
/-- Static data in 256-byte units, banks X and Y. -/
def imgX (l : List Byte) : Nat := imgNum l 18 2
def imgY (l : List Byte) : Nat := imgNum l 20 2
/-- Kinds with their entry offsets. -/
def imgKinds (l : List Byte) : List (Nat × Nat) :=
  (nums (min 16 (imgNum l 22 1))).map fun i => (imgNum l (32 + 4 * i) 1, imgNum l (32 + 4 * i + 2) 2)
/-- MOD_IDs required. -/
def imgNeeds (l : List Byte) : List Nat := ((nums 4).map fun i => imgNum l (96 + 2 * i) 2).filter (· != 0xFFFF)
/-- The bundles. -/
def imgBundles (l : List Byte) : List (BitVec 128) :=
  (nums (imgCode l)).map fun a => BitVec.ofNat 128 (imgNum l (128 + 16 * a) 16)

/-- MAGIC, HDR_VER, every field within its range, reserved bytes zero, and the payload's length (R150, 0x0140). -/
def imgValid (l : List Byte) : Bool :=
  decide (128 ≤ l.length) && imgNum l 0 4 == 0x454F4C46 && imgNum l 4 2 == 3 && decide (imgNum l 12 4 < 8)
    && decide (1 ≤ imgCode l) && decide (imgCode l ≤ 4096) && decide (imgNum l 22 1 ≤ 16) && imgNum l 23 1 == 0
    && (nums 16).all (fun i => imgNum l (33 + 4 * i) 1 == 0) && (imgKinds l).all (fun k => decide (k.1 < 64))
    && imgNum l 104 24 == 0 && l.length == 128 + 16 * imgCode l + 256 * (imgX l + imgY l)

/-! ## Space (R150) -/

/-- The lowest address below limit at which n units fit beside the areas used; n bounds on the areas bound the search. -/
def lowFit (used : List (Nat × Nat)) (n limit : Nat) : Option Nat :=
  let starts := 0 :: used.map fun u => u.1 + u.2
  let ok := starts.filter fun a => decide (a + n ≤ limit) && used.all fun u => decide (a + n ≤ u.1) || decide (u.1 + u.2 ≤ a)
  ok.foldl (fun b a => match b with | none => some a | some c => some (min a c)) none

/-- Bundle address, and 256-byte units of banks X and Y, an image gets. -/
def fitCode (s : State) (l : List Byte) : Option Nat := lowFit (s.mods.map fun m => (m.base, m.code)) (imgCode l) 4096
def fitX (s : State) (l : List Byte) : Option Nat :=
  if imgX l = 0 then some 0 else lowFit ((s.mods.filter fun m => m.dataX != 0).map fun m => (m.baseX, m.dataX)) (imgX l) 512
def fitY (s : State) (l : List Byte) : Option Nat :=
  if imgY l = 0 then some 0 else lowFit ((s.mods.filter fun m => m.dataY != 0).map fun m => (m.baseY, m.dataY)) (imgY l) 512

/-! ## The checks (R149, R150) -/

/-- The signature's verdict on a MOD_ID (R149, R548): key types, bit 0 Floe modules. -/
def signed (s : State) (sig : Signer) (id : Nat) : Option Nat :=
  match sig with
  | .none => some 0x0411
  | .gufaber => if id < 0x8000 then none else some 0x0412
  | .other => some 0x0412
  | .key k => match s.ice.stored.keys[k]? with
    | some q => if 0x8000 ≤ id && !q.revoked && decide (q.lo ≤ id) && decide (id ≤ q.hi) && bitOf q.types 0 then none
                else some 0x0412
    | none => some 0x0412

/-- The loader's checks in order. -/
def modRules (s : State) (l : List Byte) : List (Bool × Nat × Word) :=
  let id := imgNum l 8 2
  let me := objNo 2 id
  let code := imgBundles l
  let kinds := imgKinds l
  let taken := (s.mods.map fun m => m.kinds.map (·.1)).flatten
  let need := (imgNeeds l).find? fun k => !s.mods.any fun m => m.modId == k
  [(imgValid l, 0x0140, me),
   (imgNum l 6 2 == 1 || imgNum l 6 2 == 2, 0x0141, me),
   (code.all legalBundle, 0x0142, me),
   (structureOk code && kinds.all fun k => decide (k.2 < imgCode l), 0x0143, me),
   (decide ((kinds.map (·.1)).eraseDups.length = kinds.length) && kinds.all fun k => !taken.contains k.1, 0x0144, me),
   (need.isNone, 0x0145, objNo 2 (need.getD 0)),
   (!s.mods.any fun m => m.modId == id, 0x0146, me),
   (decide (s.mods.length < 16), 0x0313, me),
   ((fitCode s l).isSome, 0x0311, me),
   ((fitX s l).isSome && (fitY s l).isSome, 0x0312, me)]

/-! ## Loading (R118, R150) -/

/-- The module an image makes at its addresses. -/
def modOf (l : List Byte) (base x y : Nat) : Module :=
  { modId := imgNum l 8 2, version := imgNum l 10 2, govEvt := bitOf (imgNum l 12 4) 0, thread := bitOf (imgNum l 12 4) 1,
    service := bitOf (imgNum l 12 4) 2, base := base, code := imgCode l, baseX := x, dataX := imgX l, baseY := y,
    dataY := imgY l, kinds := (imgKinds l).map fun k => (k.1, base + k.2), requires := imgNeeds l,
    fuCost := (nums 4).map fun i => imgNum l (24 + 2 * i) 2 }

/-- The image is written into one Floe's memories. -/
def modWrite (l : List Byte) (base x y : Nat) (m : FloeMem) : FloeMem :=
  let bs := ((nums (imgCode l)).zip (imgBundles l))
  let m := { m with imem := bs.foldl (fun t b => tabSet 0 t (base + b.1) (relocate base b.2)) m.imem }
  let d := l.drop (128 + 16 * imgCode l)
  let m := dmemWrite m (256 * x) (d.take (256 * imgX l))
  dmemWrite m (0x20000 + 256 * y) ((d.drop (256 * imgX l)).take (256 * imgY l))

/-- Every register but the work slots is cleared (R118, R159). -/
def Floe.cleared (x : Floe) : Floe := { x with regs := FloeRegs.reset, gov := 0 }

/-- Floe f's work slots are empty (R150). -/
def slotsEmpty (s : State) (f : Nat) : Bool := (floeOf s f).cur.isNone && (floeOf s f).nxt.isNone
    && (slotRecs (lkpBank s (bankOf f)) f).isEmpty

/-- The module is written into Floe f, which is stopped, and its registers are cleared (R118, R150). -/
def modPut (s : State) (l : List Byte) (base x y f : Nat) : State :=
  modFloe (modFmem s f (modWrite l base x y)) f Floe.cleared

/-- The checked image is loaded into every Floe at one address, none of them in service: at start-up (R150, R496; log 107). -/
def modLoad (s : State) (l : List Byte) : State :=
  let base := (fitCode s l).getD 0
  let x := (fitX s l).getD 0
  let y := (fitY s l).getD 0
  let s := (nums 96).foldl (fun s f => modPut s l base x y f) s
  { s with mods := s.mods ++ [modOf l base x y] }

/-- Dispatch to Floe f is withheld, or allowed again (R150, R614). -/
def setWithhold (s : State) (f : Nat) (b : Bool) : State :=
  if f < 96 then modFloe s f fun x => { x with withhold := b } else s

/-- The Floes from k on are taken in turn while the next one's work slots are empty: it is stopped, written and restarted, and
dispatch to it is allowed again. The first Floe still in service is left with its dispatch withheld (R150). n bounds the
Floes; the answer says how many hold the module. -/
def modTurn (s : State) (l : List Byte) (base x y : Nat) : Nat → Nat → Nat × State
  | k, 0 => (k, s)
  | k, n + 1 =>
    let s := setWithhold s k true
    if !slotsEmpty s k then (k, s)
    else
      let s := modPut (modFloe s k fun z => { z with run := false }) l base x y k
      let s := modFloe s k fun z => { z with run := !z.fenced, withhold := false }
      modTurn (lkpRun s (k / 24)) l base x y (k + 1) n

/-! ## Commands (R150, R482, R611) -/

/-- NX_MOD_LOAD (R149, R150): judged at once, the load itself the long command's work. sig: what the signature proved to
be; image: the verified payload. -/
def nxModLoad (sig : Signer) (image : List Byte) (_ : NxHdr) (s : State) : NxRes :=
  match signed s sig (imgNum image 8 2) with
  | some c => no c
  | none => checked (modRules s image) (.long s (.modLoad image none))
/-- The catalogue row of NxModLoad. -/
def spNxModLoad : NxSpec :=
  { opcode := 0x0201, cls := 2, states := [.ready] }
def execNxModLoad (b : Nat) (f : Fmt) (sig : Signer) (image : List Byte) (s : State) : Out :=
  runNx spNxModLoad b f (.nxModLoad b f sig image) (nxModLoad sig image) s

/-- The oldest module load in progress is the one whose work goes on. -/
def modFirst (s : State) (l : LongCmd) : Bool :=
  (s.nx.long.find? fun x => match x.work with | .modLoad _ _ => true | _ => false) == some l

/-- The work of NX_MOD_LOAD goes on (R150, R460): its checks are made again as it begins, the Floes are taken in turn as far as
they have retired what they serve, and with the last of them the module is loaded and the command ends. -/
def modLoadEnd (s : State) (l : LongCmd) (image : List Byte) (at_ : Option (Nat × Nat × Nat × Nat)) : Option State :=
  if !modFirst s l then none
  else
    let place : Except Nat (Nat × Nat × Nat × Nat) := match at_ with
      | some p => .ok p
      | none => match firstBad (modRules s image) with
        | some (c, _) => .error c
        | none => .ok ((fitCode s image).getD 0, (fitX s image).getD 0, (fitY s image).getD 0, 0)
    match place with
    | .error c => some (endLong s l c 0 [])
    | .ok (base, x, y, k) =>
      let (k', s) := modTurn s image base x y k (96 - k)
      if k' < 96 then
        some { s with nx := { s.nx with long := s.nx.long.map fun c =>
          if c == l then { c with work := .modLoad image (some (base, x, y, k')), done := k' } else c } }
      else some (endLong { s with mods := s.mods ++ [modOf image base x y] } l 0 0 [])

/-- NX_MOD_UNLOAD (R150). -/
def nxModUnload (h : NxHdr) (s : State) : NxRes :=
  let user := s.mods.find? fun m => m.requires.contains h.idx
  checked [(s.mods.any fun m => m.modId == h.idx, 0x0147, h.object), (user.isNone, 0x0145, objNo 2 (user.elim 0 (·.modId)))]
    (ok { s with mods := s.mods.filter fun m => m.modId != h.idx })
/-- The catalogue row of NxModUnload. -/
def spNxModUnload : NxSpec :=
  { opcode := 0x0202, cls := 2, states := [.ready] }
def execNxModUnload (b : Nat) (f : Fmt) (s : State) : Out :=
  runNx spNxModUnload b f (.nxModUnload b f) nxModUnload s

/-- NX_MOD_LIST (R482): a record for each module (log 108). -/
def nxModList (_ : NxHdr) (s : State) : NxRes :=
  .done s (replyOf (s.mods.map fun m =>
    [nv m.modId, nv m.version, nv m.base, nv m.code, nv m.baseX, nv m.dataX, nv m.baseY, nv m.dataY])) 0
/-- The catalogue row of NxModList. -/
def spNxModList : NxSpec :=
  { opcode := 0x0203, cls := 0, states := rsr, audit := false }
def execNxModList (b : Nat) (f : Fmt) (s : State) : Out :=
  runNx spNxModList b f (.nxModList b f) nxModList s

/-- NX_FLOE_STATS (R111, R482): the registers in address order (log 108); CLEAR clears the counts. -/
def nxFloeStats (h : NxHdr) (s : State) : NxRes :=
  let f := h.idx - 0x10000
  let x := floeOf s f
  let reg (o : Nat) : RVal := nv (floeRegRead s f o).1
  let vals := [reg 0, reg 4, .wide x.gov.toNat, reg 0x10, .ctr x.faultCnt, .ctr x.imUe, .ctr x.dmUe, .ctr x.imCe, .ctr x.dmCe,
               .ctr x.retired, .ctr x.stalls, reg 0x28, reg 0x2C]
  let clr (x : Floe) : Floe :=
    { x with faultCnt := 0, imUe := 0, dmUe := 0, imCe := 0, dmCe := 0, retired := 0, stalls := 0 }
  .done (if h.clear then modFloe s f clr else s) (replyOf [vals]) 0
/-- The catalogue row of NxFloeStats. -/
def spNxFloeStats : NxSpec :=
  { opcode := 0x0204, cls := 2, states := rsr, audit := false, counts := true }
def execNxFloeStats (b : Nat) (f : Fmt) (s : State) : Out :=
  runNx spNxFloeStats b f (.nxFloeStats b f) nxFloeStats s

end Sys2Proof.Machine
end

