-- ==== Sys2Proof/Machine/Tandem.lean ====
section
/-! DEFINITION. Tandem: the pair of devices, its hello records, takeover, lift and drills (chapters 11, 16). -/

namespace Sys2Proof.Machine

/-! ## Hello records and the peer (R502, R503) -/

/-- The Norux version of the berths (R463, DEV_ID). -/
def noruxVersion (s : State) : Nat := if s.dev.compatQ48 then 1 else 3

/-- This device's hello record. -/
def helloOf (s : State) : Hello :=
  { version := noruxVersion s, compat := s.dev.compatQ48, mods := s.mods.map fun m => (m.modId, m.version),
    devState := s.dev.devState.no, tdm := s.tdm.st.no, pref := s.tdm.pref, ident := s.tdm.ident,
    heard := s.tdm.peer.elim 1 (·.pref) }

/-- A peer is present: a hello has arrived within the last 30 ms (R502). -/
def peerHere (s : State) : Bool :=
  match s.tdm.peer, s.tdm.helloAt with
  | some _, some t => decide (s.tb.elapsed ≤ t + 30000000 * 65536)
  | _, _ => false

/-- The intended role of this device beside peer h is PRIMARY (R502). -/
def wantsPrimary (s : State) (h : Hello) : Bool :=
  decide (s.tdm.prefIn < h.pref) || (s.tdm.prefIn == h.pref && decide (s.tdm.ident < h.ident))

/-- The modules of two devices agree, in any order (R503). -/
def sameMods (a b : List (Nat × Nat)) : Bool := a.all b.contains && b.all a.contains

/-- Set entry 17: MODE holds the Tandem state and the peer's Norux version (R491). -/
def tdmNeg (s : State) (st : NegState) (result : Nat) : State :=
  negSet s 17 st result (s.tdm.st.no + 256 * s.tdm.peer.elim 0 (·.version))

/-- Set the Tandem state. -/
def setTdm (s : State) (st : TdmSt) : State := modTdm s fun t => { t with st := st }

/-- TANDEM runs: the strap is set and the Icehouse is up. -/
def tdmRuns (s : State) : Bool := s.dev.tandemEn && s.dev.iceRuns && s.dev.nxUp && !s.dev.inReset

/-- The TANDEM link carries records: at least one lane is in lock (R353). -/
def linkUp (s : State) : Bool := tdmRuns s && (s.tdm.lane0 || s.tdm.lane1)

/-- ALIVE_TOGGLE (R354): 100 µs have passed; fresh: the Icehouse has refreshed the alive timer within 500 µs; peer: a
toggle was seen on ALIVE_IN. -/
def execAliveToggle (fresh peer : Bool) (s : State) : Out :=
  if !s.dev.tandemEn || s.dev.inReset then .next s
  else
    let go := fresh && s.dev.iceRuns && s.dev.devState == .service
    fin (modTdm s fun t =>
      { t with aliveFresh := go, aliveOut := t.aliveOut ^^ go, aliveIn := t.aliveIn || peer })

/-- TANDEM_HELLO_SEND (R502): the preference enters the role computation once the peer has received it. -/
def execTandemHelloSend (s : State) : Out :=
  if !tdmRuns s then .next s
  else
    let heard := s.tdm.peer.any fun h => h.heard == s.tdm.pref
    let s := modTdm s fun t => { t with prefIn := if heard then t.pref else t.prefIn }
    fin (modTdm s fun t => { t with out := some (helloOf s), hellos := t.hellos + 1 })

/-- TANDEM_HELLO_RECEIVE (R353, R502, R504): a hello record h arrives; lane0 and lane1 are in lock, and c0 and c1 CRC
errors were counted. Of two devices in SOLO the one with the higher identifier leaves SERVICE. -/
def execTandemHelloReceive (h : Hello) (lane0 lane1 : Bool) (c0 c1 : Nat) (s : State) : Out :=
  if !tdmRuns s then .next s
  else
    let s := modTdm s fun t =>
      { t with peer := some h, helloAt := some s.tb.elapsed, lane0 := lane0, lane1 := lane1, crc0 := sat32 (t.crc0 + c0),
               crc1 := sat32 (t.crc1 + c1) }
    if s.tdm.st = .solo ∧ h.tdm = 1 ∧ h.ident < s.tdm.ident then
      fin (tdmNeg (setDevState s .ready) .failed 0x0856)
    else fin s

/-- TANDEM_LINK_LOSS (R354): the link fails; with ALIVE_IN still toggling the alarm is raised and roles are held. -/
def execTandemLinkLoss (s : State) : Out :=
  if !tdmRuns s || !(s.tdm.lane0 || s.tdm.lane1) then .next s
  else
    let s := modTdm s fun t => { t with lane0 := false, lane1 := false, helloAt := none }
    fin (if s.tdm.aliveIn then alarm s 0x44 0 0 noSite else s)

/-! ## Takeover (R360-R363) -/

/-- Channels whose transmit sink is a protected stream, in their order. -/
def protTx (s : State) : List Nat :=
  (s.media.chans.filter fun p => match p.2.core.txSink with | .stream n => (txsOf s n).p.weir | _ => false).map (·.1)

/-- Slots of the channels' legs that hold keys. -/
def legSlots (s : State) (cs : List Nat) (legB : Bool) : List Nat :=
  cs.filterMap fun c => if (chanOf s c).st.live then legKey s c legB else none

/-- Raise a slot's mark to the reported value plus 2^16; without a report, its own (R360, R425; log 93). -/
def raiseMark (s : State) (k : Nat) : State :=
  match (tabGet none s.tdm.report k).orElse fun _ => (slotOf s k).hot.hwm with
  | none => s
  | some w => hwmRaise s k (slotOf s k).gen (w + 65536)

/-- TANDEM_TAKEOVER: the slots raised with their new rollover counters (R361, R363, R466). -/
def takeover (s : State) (part : Bool) (ks : List Nat) : State :=
  let s := ks.foldl raiseMark s
  let more := ks.map fun k => (k, ((slotOf s k).hot.hwm).getD 0 / 65536)
  let s := modTdm s fun t => { t with takeovers := sat32 (t.takeovers + 1) }
  let s := unitEv s 0x20 (objNo 0x0D 0) (ks.length + if part then 2 ^ 63 else 0) more
  tdmNeg (alarm s 0x45 (objNo 0x0D 0) 0 noSite) .degraded 0x0854

/-- PEER_LOST (R354, R360, R363, R365): no toggle on ALIVE_IN for 1 ms. -/
def execPeerLost (s : State) : Out :=
  if !tdmRuns s || !s.tdm.aliveIn then .next s
  else
    let old := s.tdm.st
    let s := modTdm s fun t => { t with aliveIn := false }
    match old with
    | .standby => fin (takeover (setTdm s .solo) false (legSlots s (protTx s) false))
    | .lifting =>
      let cs := (s.media.chans.filter fun p => chanProt s p.1 && p.2.st.live && !s.tdm.lifted.contains p.1).map (·.1)
      let s := cs.foldl (fun s c => chanStateEv (releaseChan s c .defined) c) (setTdm s .solo)
      let up := (protTx s).filter s.tdm.lifted.contains
      fin (modTdm (takeover s true (legSlots s up false ++ legSlots s up true)) fun t => { t with lifted := [] })
    | .primary => fin (tdmNeg (modTdm s fun t => { t with st := .solo, drill := none }) .degraded 0x0854)
    | _ => fin s

/-! ## Mirroring, epochs and reports (R356, R357, R360, R363) -/

/-- The peer holds its standby or joining side. -/
def peerJoins (s : State) : Bool := s.tdm.peer.any fun h => h.tdm == 2 || h.tdm == 3

/-- MIRRORED_COMMAND (R356): a primary sends its oldest accepted command; a standby receives command i with header h, to
be applied at tick t. -/
def execMirroredCommand (t : Nat) (h : NxHdr) (i : Instr) (s : State) : Out :=
  if !linkUp s then .next s
  else
    match s.tdm.st with
    | .primary => if s.mirrorOut.isEmpty then .next s else fin { s with mirrorOut := s.mirrorOut.drop 1 }
    | .standby => fin { s with mirror := s.mirror ++ [(t, h, i)] }
    | _ => .next s

/-- STREAM_EPOCH_RECORD (R357): a primary sends stream n's SEQ_BASE and epoch; a standby or joiner takes base and epoch
for it. -/
def execStreamEpochRecord (n base epoch : Nat) (s : State) : Out :=
  let x := txsOf s n
  if !linkUp s || decide (16384 ≤ n) || !x.p.weir then .next s
  else
    let note (s : State) (b e : Nat) : State := modTdm s fun t => { t with epochs := tabSet none t.epochs n (some (b, e)) }
    match s.tdm.st with
    | .primary => if x.st = .enabled then fin (note s x.seqBase x.epoch) else .next s
    | .standby | .lifting =>
      let b := base % 65536
      fin (note (modTxs s n fun x => { x with seqBase := b, epoch := epoch, seq := (b + x.sent) % 65536 }) b epoch)
    | _ => .next s

/-- INDEX_REPORT (R360, R363): a primary reports its leg A marks, a survivor with a joining peer both legs'; a standby or
joiner receives marks. -/
def execIndexReport (marks : List (Nat × Nat)) (s : State) : Out :=
  if !linkUp s then .next s
  else
    let own (ks : List Nat) : State :=
      modTdm s fun t => { t with report := ks.foldl (fun m k => tabSet none m k (slotOf s k).hot.hwm) t.report }
    match s.tdm.st with
    | .primary => fin (own (legSlots s (protTx s) false))
    | .solo => if peerJoins s then fin (own (legSlots s (protTx s) false ++ legSlots s (protTx s) true)) else .next s
    | .standby | .lifting =>
      fin (modTdm s fun t => { t with report := marks.foldl (fun m k => tabSet none m k.1 (some k.2)) t.report })
    | .off => .next s

/-! ## Lift (R359, R363) -/

/-- A snapshot is installed: the channel's record, audio state, Basin, contexts and Floe data. -/
def installSnap (s : State) (c : Nat) (x : Snap) : State :=
  let s := modBasin (modDsp (modChan s c fun _ => x.chan) c fun _ => x.dsp) c fun _ => x.basin
  let s := x.ctxs.foldl (fun s k => setCtx s k.1 k.2) s
  x.mem.foldl (fun s m => memWrite s m.1 m.2) s

/-- LIFT_CHANNEL (R359): the survivor sends channel c's snapshot at boundary F; the joiner installs x. -/
def execLiftChannel (c : Nat) (x : Snap) (s : State) : Out :=
  if !linkUp s || decide (8192 ≤ c) || s.tdm.lifted.contains c then .next s
  else
    let s' := modTdm s fun t => { t with lifted := t.lifted ++ [c] }
    match s.tdm.st with
    | .solo => if peerJoins s && chanProt s c && (chanOf s c).st.live then fin s' else .next s
    | .lifting => fin (installSnap s' c x)
    | _ => .next s

/-- Exact index high-water marks that come with a handover; none lowers one (R359, R365, R425). -/
def takeMarks (s : State) (marks : List (Nat × Nat)) : State :=
  marks.foldl (fun s m => hwmRaise s m.1 (slotOf s m.1).gen m.2) s

/-- LIFT_COMPLETE (R359, R503): every channel is lifted; the joiner becomes STANDBY and takes leg B with the survivor's
marks, and the survivor becomes PRIMARY. -/
def execLiftComplete (marks : List (Nat × Nat)) (s : State) : Out :=
  if !linkUp s then .next s
  else
    let s' := modTdm s fun t => { t with lifted := [] }
    match s.tdm.st with
    | .lifting => fin (tdmNeg (takeMarks (setTdm s' .standby) marks) .full 0)
    | .solo =>
      let left := (s.media.chans.filter fun p => chanProt s p.1 && p.2.st.live && !s.tdm.lifted.contains p.1)
      if peerJoins s && left.isEmpty then fin (tdmNeg (setTdm s' .primary) .full 0) else .next s
    | _ => .next s

/-- LIFT_ABORT (R363): the link fails while the device joins and ALIVE_IN still toggles. -/
def execLiftAbort (s : State) : Out :=
  if !tdmRuns s || s.tdm.st ≠ .lifting || !s.tdm.aliveIn then .next s
  else
    let s := modTdm s fun t => { t with lane0 := false, lane1 := false, helloAt := none }
    fin (tdmNeg (setDevState s .ready) .failed 0x0857)

/-! ## Drills (R365) -/

/-- DRILL_SWAP (R365): at the scheduled boundary the roles are exchanged; marks are the peer's exact marks of the leg this
device takes over. -/
def execDrillSwap (marks : List (Nat × Nat)) (s : State) : Out :=
  if !tdmRuns s then .next s
  else
    match s.tdm.st, s.tdm.drill with
    | .primary, some (.swap t) =>
      if tick48 s < t then .next s
      else fin (tdmNeg (takeMarks (modTdm s fun t => { t with st := .standby, drill := none }) marks) .full 0)
    | .standby, _ => fin (tdmNeg (takeMarks (setTdm s .primary) marks) .full 0)
    | _, _ => .next s

/-- MUTE_END (R365): leg A resumes. -/
def execMuteEnd (s : State) : Out :=
  match s.tdm.drill with
  | some (.mute t) => if s.tb.elapsed < t then .next s else fin (modTdm s fun t => { t with drill := none })
  | _ => .next s

/-- NX_TDM_SET (R366, R502): 0 PRIMARY, 1 NONE, 2 STANDBY. -/
def nxTdmSet (pref : Nat) (_ : NxHdr) (s : State) : NxRes :=
  if 3 ≤ pref then no 0x0106 else ok (modTdm s fun t => { t with pref := pref })
/-- The catalogue row of NxTdmSet. -/
def spNxTdmSet : NxSpec :=
  { opcode := 0x0901, cls := 0x0D, states := [.ready], legal := fun s _ => s.tdm.st == .off || s.tdm.st == .solo }
def execNxTdmSet (b : Nat) (f : Fmt) (pref : Nat) (s : State) : Out :=
  runNx spNxTdmSet b f (.nxTdmSet b f pref) (nxTdmSet pref) s

/-- NX_TDM_DRILL (R365, R366, R367): a SWAP, or a MUTE of period seconds. -/
def nxTdmDrill (swap : Bool) (period : Nat) (h : NxHdr) (s : State) : NxRes :=
  checked [((swap || (decide (1 ≤ period) && decide (period ≤ 60))) && s.tdm.peer.any (fun p => p.tdm == 3), 0x01A5,
             h.object)]
    (ok (modTdm s fun t =>
      { t with drill := some (if swap then .swap (roundUp (tick48 s + 480) 480)
                              else .mute (s.tb.elapsed + period * unitsPerSec)) }))
/-- The catalogue row of NxTdmDrill. -/
def spNxTdmDrill : NxSpec :=
  { opcode := 0x0902, cls := 0x0D, states := [.service], legal := fun s _ => s.tdm.st == .primary }
def execNxTdmDrill (b : Nat) (f : Fmt) (swap : Bool) (period : Nat) (s : State) : Out :=
  runNx spNxTdmDrill b f (.nxTdmDrill b f swap period) (nxTdmDrill swap period) s

/-- NX_TDM_STATS (R366, R611): state, ALIVE_IN, lanes, CRC errors of both lanes, takeovers. -/
def nxTdmStats (h : NxHdr) (s : State) : NxRes :=
  let t := s.tdm
  let r : List RVal := [.val (t.st.no : Nat), .flag t.aliveIn, .flag t.lane0, .flag t.lane1, .ctr t.crc0, .ctr t.crc1,
    .ctr t.takeovers]
  .done (if h.clear then modTdm s fun t => { t with crc0 := 0, crc1 := 0, takeovers := 0 } else s) (replyOf [r]) 0
/-- The catalogue row of NxTdmStats. -/
def spNxTdmStats : NxSpec :=
  { opcode := 0x0903, cls := 0x0D, states := rsr, audit := false, counts := true }
def execNxTdmStats (b : Nat) (f : Fmt) (s : State) : Out :=
  runNx spNxTdmStats b f (.nxTdmStats b f)
    nxTdmStats s

end Sys2Proof.Machine
end

