-- ==== Sys2Proof/Machine/Boot.lean ====
section
/-! DEFINITION. Resets and the boot sequence: the straps, the boot ROM, the regulator, LPDDR5X training, the modules of the
image and the self-test (chapter 16). -/

namespace Sys2Proof.Machine

/-! ## Resets (R485, R618, R591) -/

/-- The exits follow the parameters in force (R549). -/
def setLanes (p : LogParams) (l : Lanes) : Lanes :=
  { l with ring := { l.ring with en := p.ringEn, minSev := p.sevRing },
           syslog := { l.syslog with en := p.syslogEn, minSev := p.sevSyslog },
           flash := { l.flash with en := p.flashEn, minSev := p.sevFlash } }

/-- The flash after a reset: the log partition's sectors and their counts stay, what waited to be written is lost. -/
def flashKept (f : Flash) : Flash :=
  { Flash.reset with sectors := f.sectors, erases := f.erases, retired := f.retired, spare := f.spare,
                     pwrLow := f.pwrLow,
                     batches := (nums 3).foldl (fun t k => tabMod Batch.reset t k fun b => { b with recs := [] }) f.batches }

/-- The Icehouse after a reset: its stored items (R618), the sensors' own memory empty, V_ABL as stored (R525); the
regulator's mode stays in a device-level reset (R485). -/
def iceKept (i : Ice) (all : Bool) : Ice :=
  let q := if all then Sense.reset
    else { Sense.reset with vrMode := i.sense.vrMode, step := i.sense.step, vBase := i.sense.vBase }
  let x := { q with vAbl := i.stored.vAbl, ablLimit := decide (600 ≤ i.stored.vAbl) }
  { Ice.reset with stored := i.stored, hold := i.stored.hold, params := i.stored.log,
                   lanes := setLanes i.stored.log Lanes.reset, flash := flashKept i.flash, sense := x }

/-- The straps a device-level reset keeps (R483). -/
def devKept (d : Dev) (all : Bool) : Dev :=
  let d' := { Dev.reset with variant := d.variant, inReset := all }
  if all then d' else { d' with compatQ48 := d.compatQ48, tandemEn := d.tandemEn, bootSrc := d.bootSrc }

/-- Negotiation entries after a reset: PCIe and the regulator stay in a device-level reset (R485). -/
def negKept (n : Neg) (all : Bool) : Neg :=
  if all then Neg.reset
  else { Neg.reset with entries := ([1, 14]).foldl (fun t k =>
           tabSet NegEntry.reset t k (tabGet NegEntry.reset n.entries k)) [] }

/-- The main die is reset: by RESET_N (all), or at the device level (R485, R618). A flash operation in progress still
completes inside the flash (R591). Waiting commands, host memory and the Nivo die are outside the main die. -/
def dieReset (s : State) (all : Bool) : State :=
  let s := if s.ice.flash.busy then flashOpOk s else s
  { State.reset with
      pending := s.pending, hostMem := s.hostMem, nivo := s.nivo, nivoFw := s.nivoFw, free := s.free,
      dev := devKept s.dev all, pcie := if all then Pcie.reset else s.pcie,
      msix := { Msix.reset with sent := s.msix.sent }, neg := negKept s.neg all,
      tdm := { Tandem.reset with ident := s.tdm.ident }, rime := { Rime.reset with rootGen := s.rime.rootGen + 1 },
      ice := iceKept s.ice all }

/-! ## The boot ROM (R484, R488, R493) -/

/-- STEP: the smallest multiple of 2.5 mV at or above the regulator's resolution, in 0.1 mV (R493). -/
def vrStep (res : Nat) : Nat := max 25 (ceilDiv res 25 * 25)

/-- The regulator's mode and the result that goes with it (R493). -/
def vrChoice (x : BootIn) : Nat × Nat :=
  match x.vr with
  | .silent => (2, 0x0832)
  | .other => (2, 0x0830)
  | .linear => if 100 < vrStep x.vrRes then (2, 0x0830) else (0, 0)
  | .vid => if 100 < vrStep x.vrRes then (2, 0x0830) else (1, 0)

/-- Step 2: the regulator is discovered and its entry set (R491, R493). -/
def vrBoot (s : State) (x : BootIn) : State :=
  let c := vrChoice x
  let step := if c.1 = 2 then 0 else vrStep x.vrRes
  let s := negBegin s 14
  let s := modSense s fun q => { q with vrMode := c.1, step := step, vBase := if c.1 = 2 then 7200 else x.vBase }
  let mode := c.1 + step / 5 * 256
  if c.1 ≠ 2 then negSet s 14 .full 0 mode
  else if x.core < 7150 then negSet s 14 .failed 0x0831 mode
  else negSet s 14 .degraded c.2 mode

/-- The slots BOOT_SRC names, in the order they are tried (R484). -/
def bootOrder (src active : Nat) : List Nat :=
  match src with
  | 0 => [active, 1 - active]
  | 1 => [1 - active, active]
  | 2 => [0]
  | _ => [1]

/-- Steps 4 and 5: the boot record is used and a slot verified (R484, R488; log 111): the slot and the result. -/
def romBoot (s : State) (x : BootIn) : State × Option (Nat × Nat) :=
  let st := s.ice.stored
  let flip := decide (3 ≤ st.tries) && decide (s.dev.bootSrc < 2)
  let act := if flip then 1 - st.active else st.active
  let write := holdupOk s .page
  let s := if flip && write then modStored_ s fun q => { q with active := act, tries := 0 } else s
  let order := if flip then [act, 1 - act] else bootOrder s.dev.bootSrc st.active
  match order.find? (fun k => if k = 0 then x.okA else x.okB) with
  | none => (s, none)
  | some k =>
    let res := if flip then 0x0872 else if order.head? = some k then 0 else 0x0870
    let s := if k = act ∧ write then modStored_ s fun q => { q with tries := q.tries + 1 } else s
    (s, some (k, res))

/-! ## LPDDR5X (R495, R496, R498) -/

/-- What training makes of channel c: fenced with a code, or its density in GiB and bin. -/
def ddrTrain (s : State) (x : BootIn) (c : Nat) : Nat ⊕ (Nat × Nat) :=
  let d := x.ddr.getD c (0, 3)
  if s.ice.stored.ddrFence.contains c then .inl 0x0824
  else if 3 ≤ d.2 then .inl 0x0821
  else .inr (2 ^ (d.1 % 4), d.2)

/-- Density of the lowest-numbered trained channel; 0 with none. -/
def ddrDensity (s : State) (x : BootIn) : Nat :=
  ((nums 8).filterMap fun c => match ddrTrain s x c with | .inl _ => none | .inr d => some d.1).headD 0

/-- Channel c as it comes out: live with a bin, or fenced with a code. -/
def ddrResult (s : State) (x : BootIn) (c : Nat) : Nat ⊕ Nat :=
  match ddrTrain s x c with
  | .inl e => .inl e
  | .inr d => if d.1 = ddrDensity s x then .inr d.2 else .inl 0x0823

/-- Channel c's entry after training. -/
def ddrEntry (s : State) (c : Nat) : Nat ⊕ Nat → State
  | .inl 0x0824 => negSet s (6 + c) .failed 0x0824 3
  | .inl e => negSet (negBegin s (6 + c)) (6 + c) .failed e 3
  | .inr 0 => negSet (negBegin s (6 + c)) (6 + c) .full 0 0
  | .inr b => negSet (negBegin s (6 + c)) (6 + c) .degraded 0x0820 b

/-- Step 7: every channel is trained, and the address mapping set. -/
def ddrBoot (s : State) (x : BootIn) : State :=
  let rs := (nums 8).map fun c => (c, ddrResult s x c)
  let live := rs.filterMap fun r => match r.2 with | .inl _ => none | .inr b => some (r.1, b)
  let d := ddrDensity s x
  rs.foldl (fun s r => ddrEntry s r.1 r.2) (modFab s fun f => { f with density := d, live := live })

/-! ## The boot sequence (R486-R490) -/

/-- Step 8: a module of the image is loaded, or the code of the check it fails (R489). -/
def bootMods (s : State) : List (List Byte) → State × Option Nat
  | [] => (s, none)
  | l :: t =>
    match firstBad (modRules s l) with
    | some (c, _) => (s, some c)
    | none => bootMods (modLoad s l) t

/-- The boot fails: entry 0 FAILED with the code, and the device halts. -/
def bootFail (s : State) (code slot : Nat) : State := halt (negSet s 0 .failed code slot)

/-- Steps 6 to 8: firmware of slot k runs, and SELFTEST is entered (R486-R489). -/
def bootFw (s : State) (x : BootIn) (k res : Nat) : State :=
  let s := modIce (modDev s fun d => { d with nxUp := true }) fun i => { i with slot := k }
  let s := modRime s fun r => { r with volatileRoots := true }
  let s := if res = 0 then negSet s 0 .full 0 k
    else alarm (negSet s 0 .degraded res k) 0x0C 0 (BitVec.ofNat 64 res) noSite
  let s := (nums 4).foldl (fun s n => negBegin s (2 + n)) s
  let s := if s.dev.tandemEn then negBegin s 17 else s
  let s := ddrBoot s x
  if s.fab.live.length < 4 then bootFail s 0x0822 k
  else
    let r := bootMods s x.mods
    match r.2 with
    | some c => bootFail r.1 c k
    | none =>
      let s := (nums 16).foldl (fun s l => modLane s l fun x => { x with std := true }) r.1
      setDevState ((nums 96).foldl (fun s f => modFloe s f fun q => { q with run := true }) s) .selftest

/-- The boot sequence up to SELFTEST, taken as one step (R486; log 117): all for RESET_N, from the regulator on; otherwise
from image verification on (R485). -/
def boot (s : State) (x : BootIn) (all : Bool) : State :=
  let s := modSense s fun q => { q with holdup := x.holdup }
  let s := if all then negBegin (vrBoot s x) 1 else s
  let r := romBoot (negBegin s 0) x
  match r.2 with
  | none => bootFail r.1 0x0871 0
  | some (k, res) => bootFw r.1 x k res

/-- A device-level reset: by NX_DEV_RESET or a Function Level Reset of function 0 (R450, R473, R485). -/
def deviceReset (s : State) (x : BootIn) : State := boot (dieReset s false) x false

/-- RESET_N_RISE (R483, R486): the straps are sampled and the boot sequence runs. -/
def execResetNRise (compat tandem : Bool) (src : Nat) (x : BootIn) (s : State) : Out :=
  if !s.dev.inReset then .next s
  else
    let s := modDev s fun d => { d with inReset := false, compatQ48 := compat, tandemEn := tandem, bootSrc := src % 4 }
    fin (boot s x true)

/-- RESET_N_FALL (R485, R590): RESET_N goes low for ns nanoseconds at least; below 1 µs it is ignored (log 113). -/
def execResetNFall (ns : Nat) (s : State) : Out :=
  if ns < 1000 then .next s else .next (dieReset s true)

/-- FUNCTION_LEVEL_RESET_0 (R450). -/
def execFunctionLevelReset0 (x : BootIn) (s : State) : Out :=
  if s.dev.inReset then .next s else fin (deviceReset s x)

/-- FUNCTION_LEVEL_RESET_1 (R450): no effect on Nivo or function 0. -/
def execFunctionLevelReset1 (s : State) : Out := .next s

/-! ## The self-test (R490, R510) -/

/-- An LPDDR5X channel is fenced by the self-test (R490, R495). -/
def fenceDdr (s : State) (c : Nat) : State :=
  let s := modFab s fun f => { f with live := f.live.filter fun l => l.1 != c }
  let site := siteIsland (222 + c)
  logRec (hwFault (negSet s (6 + c) .failed 0x0821 3) 0 site) 5 5 0 (leBytes site.toNat 8)

/-- The fences a self-test makes. -/
def selfFence (s : State) (floes quay ddr : List Nat) : State :=
  let s := (floes.filter (· < 96)).foldl (fun s f => hwFault (fenceFloe s f (siteIsland f)) (objNo 2 (0x10000 + f)) (siteIsland f)) s
  let s := (quay.filter (· < 4)).foldl (fun s n => hwFault (fencePort s n) (objNo 9 n) (siteIsland (212 + 2 * n))) s
  (ddr.filter fun c => s.fab.live.any fun l => l.1 == c).foldl fenceDdr s

/-- The long command of NX_DEV_SELFTEST, if one waits. -/
def selftestLong (s : State) : Option LongCmd := s.nx.long.find? fun l => l.work == .selftest

/-- SELFTEST_DONE (R490, R510): the self-test ends; floes, quay and ddr failed it, bad: a part that cannot be fenced
failed. -/
def execSelftestDone (floes quay ddr : List Nat) (bad : Bool) (s : State) : Out :=
  if s.dev.inReset || !s.dev.iceRuns || s.dev.devState != .selftest then .next s
  else
    let s := modDev (selfFence s floes quay ddr) fun d => { d with tested := true }
    let few := decide (s.fab.live.length < 4)
    let s := if few then negSet s 0 .failed 0x0822 s.ice.slot else s
    let l := selftestLong s
    let s := if bad || few then halt s else setDevState s .ready
    fin (match l with
      | some l => if s.nx.long.contains l then endLong s l 0 0 [] else s
      | none => s)

/-! ## PCI Express (R450-R452, R485, R494) -/

/-- The link is lost: its entry FAILED with 0x0802; accesses to host memory are held (R452, R494). -/
def linkDown (s : State) : State := negSet (modPcie s fun p => { p with linkUp := false }) 1 .failed 0x0802 0

/-- PCIE_PERST_N (R485): asserted alone, link training is repeated. -/
def execPciePerstN (s : State) : Out :=
  if s.dev.inReset then .next s else fin (linkDown s)

/-- PCIE_LINK_CHANGE (R494): the link goes down, or comes up at a generation and width (log2), against what the host's side
advertises. -/
def execPcieLinkChange (up : Bool) (gen width hostGen hostWidth : Nat) (s : State) : Out :=
  if s.dev.inReset then .next s
  else if !up then fin (linkDown s)
  else if gen = 0 ∨ 5 < gen ∨ 3 < width then .next s
  else
    let s := if (negOf s 1).st = .pending then s else negBegin s 1
    let s := modPcie s fun p => { p with linkUp := true, gen := gen, width := 2 ^ width }
    let mode := gen + 16 * 2 ^ width
    fin (if min 5 hostGen ≤ gen ∧ min 3 hostWidth ≤ width then negSet s 1 .full 0 mode else negSet s 1 .degraded 0x0801 mode)

/-- BUS_MASTER_ENABLE_CHANGE (R452): clear holds the device's accesses to host memory, set releases them. -/
def execBusMasterEnableChange (on : Bool) (s : State) : Out :=
  if s.dev.inReset then .next s else fin (modPcie s fun p => { p with busMaster := on })

/-- FUNCTION_1_WRITE (R451): discarded. -/
def execFunction1Write (off : Nat) (w : Word) (s : State) : Out :=
  let _ := (off, w)
  .next s

end Sys2Proof.Machine
end

