-- ==== Sys2Proof/Machine/Host.lean ====
section
/-! DEFINITION. The host's accesses to BAR0: register writes, berths, doorbells, the completion ring and MSI-X (chapters 00,
15). -/

namespace Sys2Proof.Machine

/-! ## The BAR0 map (R453, R454) -/

/-- Offset o lies in a range of the BAR0 map. -/
def bar0Mapped (o : Nat) : Bool :=
  ([(0x0, 0x24), (0x10000, 0x14000), (0x18000, 0x18030), (0x20000, 0x22000), (0x100000, 0x300000), (0x300000, 0x304000),
    (0x308000, 0x30C000), (0x400000, 0x500000), (0x500000, 0x502AE0), (0x600000, 0x601000), (0x601000, 0x601020)] :
      List (Nat × Nat)).any fun r => decide (r.1 ≤ o) && decide (o < r.2)

/-- The berth area. -/
def inBerths (o : Nat) : Bool := decide (0x10000 ≤ o) && decide (o < 0x14000)

/-- An access of n bytes at offset o is one R454 permits. -/
def accessOk (write : Bool) (o n : Nat) : Bool :=
  o % 4 == 0 && (n == 4 || (inBerths o && inBerths (o + n - 1) &&
    (if write then decide (8 ≤ n) && decide (n ≤ 256) else n == 8)))

/-- BAR0_UNMAPPED_ACCESS (R454). -/
def execBar0UnmappedAccess (write : Bool) (o n : Nat) (s : State) : Out :=
  if s.dev.inReset || (bar0Mapped o && accessOk write o n) then .next s
  else fin (modDev (if write then s else returned s 0) fun d => { d with unmapped := sat32 (d.unmapped + 1) })

/-- DEV_UNMAPPED_READ (R11, R454). -/
def execDevUnmappedRead (s : State) : Out :=
  if s.dev.inReset then .next s
  else fin (modDev (returned s s.dev.unmapped) fun d => { d with unmapped := 0 })

/-! ## Berths and doorbells (R456-R459, R463) -/

/-- Store one byte of a berth write unless its berth is busy, does not exist or the device owns the byte. -/
def berthByte (s : State) (o : Nat) (b : Byte) : State :=
  let k := o / berthSize s
  let i := o % berthSize s
  if s.nx.busy.contains k || decide (berthCount s ≤ k) || ([6, 7, 14, 15] : List Nat).contains i then s
  else modNx s fun x => { x with berthMem := tabSet 0 x.berthMem o b }

/-- A write of n bytes at offset o of the berth area meets a busy berth. -/
def touchesBusy (s : State) (o n : Nat) : Bool := (nums n).any fun i => s.nx.busy.contains ((o + i) / berthSize s)

/-- BERTH_WRITE (R454, R456, R458): bytes l at offset o of the berth area. Bytes of busy berths are discarded and the write
counted once; STATUS and RLEN are the device's. -/
def execBerthWrite (o : Nat) (l : List Byte) (s : State) : Out :=
  if s.dev.inReset then .next s
  else if !accessOk true (0x10000 + o) l.length then fin (modDev s fun d => { d with unmapped := sat32 (d.unmapped + 1) })
  else
    let s := if touchesBusy s o l.length then modNx s fun x => { x with berthDrop := sat32 (x.berthDrop + 1) } else s
    fin (((nums l.length).zip l).foldl (fun s p => berthByte s (o + p.1) p.2) s)

/-- Ring berth b: it becomes busy and joins the queue, or is counted when it is busy already (R458, R459). -/
def ringBerth (s : State) (b : Nat) : State :=
  if s.nx.busy.contains b then modNx s fun x => { x with dbBusy := sat32 (x.dbBusy + 1) }
  else modNx s fun x => { x with busy := x.busy ++ [b], rung := x.rung ++ [b] }

/-- NX_DOORBELL (R459, R463): a write of NX_DOORBELL_LO, or HI, rings each berth whose bit is 1, in ascending number. -/
def execNxDoorbell (hi : Bool) (w : Word) (s : State) : Out :=
  if s.dev.inReset || (hi && s.dev.compatQ48) then .next s
  else
    let bs := ((nums 32).filter fun i => w.getLsbD i).map fun i => if hi then 32 + i else i
    fin (bs.foldl ringBerth s)

/-- NX_COUNT_READ (R11, R458): NX_DB_BUSY, or NX_BERTH_DROP. -/
def execNxCountRead (drop : Bool) (s : State) : Out :=
  if !barLive s .host then fin (returned s 0)
  else if drop then fin (modNx (returned s s.nx.berthDrop) fun x => { x with berthDrop := 0 })
  else fin (modNx (returned s s.nx.dbBusy) fun x => { x with dbBusy := 0 })

/-! ## The completion ring (R464, R468) -/

/-- The ring settings pass R468. -/
def cplOk (n : Norux) : Bool := n.cplBase.toNat % 4096 == 0 && decide (7 ≤ n.cplLog2) && decide (n.cplLog2 ≤ 16)

/-- NX_CPL_CFG_EN_WRITE (R11, R12, R468): a write of NX_CPL_CFG; VECTOR and LOG2SIZE are written only while the ring is
stopped. -/
def execNxCplCfgEnWrite (w : Word) (s : State) : Out :=
  if !barLive s .host then .next s
  else
    let n := w.toNat
    let s := modNx s fun x => { x with cplModUs := bitsOf n 15 6 }
    let s := if s.nx.cplEn then s else modNx s fun x => { x with cplVector := bitsOf n 23 16, cplLog2 := bitsOf n 4 0 }
    if !bitOf n 31 then fin (modNx s fun x => { x with cplEn := false })
    else if s.nx.cplEn then fin s
    else if cplOk s.nx then
      fin (modNx s fun x => { x with cplEn := true, cplTail := 0, cplHead := 0, cplPhase := true, cplReason := 0 })
    else fin (modNx s fun x => { x with cplReason := 0x0107 })

/-- NX_CPL_HEAD_WRITE (R464, R467): an index at or above the ring size is discarded; room made is used at once. -/
def execNxCplHeadWrite (w : Word) (s : State) : Out :=
  if !barLive s .host then .next s
  else
    let h := w.toNat % 65536
    if ringSize s ≤ h then .next s else fin (modNx s fun x => { x with cplHead := h })

/-! ## MSI-X (R455) -/

/-- Vector v is unmasked: a pending bit sends the merged message. -/
def unmask (s : State) (v : Nat) : State :=
  let pend := s.msix.pendBits.contains v
  let s := modMsix s fun m => { m with unmasked := addOnce m.unmasked v, pendBits := m.pendBits.filter (· != v) }
  if pend then raiseVec s v else s

/-- MSIX_UNMASK (R455). -/
def execMsixUnmask (v : Nat) (s : State) : Out :=
  if !barLive s .host || decide (256 ≤ v) then .next s else fin (unmask s v)

/-- MOD_US_INTERVAL_END (R455, R461): the least interval since the source's last raise is over; a raise held back is made,
and its own interval starts. -/
def execModUsIntervalEnd (src : ModSrc) (s : State) : Out :=
  if s.dev.inReset || !s.modu.running.contains src then .next s
  else
    let held := s.modu.held.contains src
    let s := { s with modu := { running := s.modu.running.filter (· != src), held := s.modu.held.filter (· != src) } }
    if !held then fin s
    else match src with
      | .cpl => fin (raiseMod s src s.nx.cplVector s.nx.cplModUs)
      | .dmaRing q => fin (raiseMod s src (dmaOf s q).vector (dmaOf s q).modUs)

/-! ## Register writes (R6, R11-R13, R454) -/

/-- The half hi of a 64-bit base is written; the low half keeps bits [31:12] (R13). -/
def baseWrite (b : BitVec 64) (hi : Bool) (w : Word) : BitVec 64 :=
  if hi then BitVec.ofNat 64 (b.toNat % 2 ^ 32 + w.toNat * 2 ^ 32)
  else BitVec.ofNat 64 (b.toNat / 2 ^ 32 * 2 ^ 32 + w.toNat / 4096 * 4096)

/-- What a host write of one of its registers does (R454); of any other, nothing. -/
def regByHost (s : State) (r : RegName) (w : Word) : State :=
  match r with
  | .scratch => modDev s fun d => { d with scratch := w }
  | .cplBase hi =>
    if !s.dev.nxUp || s.nx.cplEn then s else modNx s fun n => { n with cplBase := baseWrite n.cplBase hi w }
  | .ringBase q hi =>
    if !s.dev.nxUp || decide (128 ≤ q) || (dmaOf s q).en || !ringIdle s q then s
    else modDma s q fun d => { d with base := baseWrite d.base hi w }
  | .msix v k =>
    if !s.dev.nxUp || decide (256 ≤ v) || decide (4 ≤ k) then s
    else if k < 3 then modMsix s fun m => { m with table := tabSet 0 m.table (4 * v + k) w }
    else if w.getLsbD 0 then modMsix s fun m => { m with unmasked := m.unmasked.filter (· != v) }
    else unmask s v
  | _ => s

/-- A port's register as the Icehouse writes it. -/
def quayWrite (c : PortCfg) (r : RegName) (n : Nat) : PortCfg :=
  match r with
  | .quayCtrl _ => { c with rxEn := bitOf n 0, txEn := bitOf n 1, gateEn := bitOf n 2 }
  | .quayMaxFrame _ => { c with maxFrame := n % 2 ^ 14 }
  | .quayCorr _ false => { c with corrRx := BitVec.ofNat 24 n }
  | .quayCorr _ true => { c with corrTx := BitVec.ofNat 24 n }
  | .quayFilter _ => { c with pauseRx := bitOf n 3, promisc := bitOf n 2, mcAll := bitOf n 1, bcast := bitOf n 0 }
  | .quayTxcfg _ => { c with ptpClass := bitsOf n 14 12, txRes := bitsOf n 10 0 }
  | .quayDefring _ => { c with defRing := n % 16 }
  | .quayUc _ u hi =>
    if 16 ≤ u then c
    else { c with uc := tabMod 0 c.uc u fun e =>
             if hi then e % 2 ^ 32 + n % 65536 * 2 ^ 32 + b2n (bitOf n 31) * 2 ^ 48 else e / 2 ^ 32 * 2 ^ 32 + n }
  | .quayHash _ x =>
    if 128 ≤ x then c
    else { c with bins := (c.bins.filter fun b => b / 32 != x) ++ ((nums 32).filter (bitOf n)).map (32 * x + ·) }
  | _ => c

/-- The port a register belongs to. -/
def RegName.port : RegName → Option Nat
  | .quayCtrl p | .quayMaxFrame p | .quayFilter p | .quayTxcfg p | .quayDefring p => some p
  | .quayCorr p _ | .quayHash p _ => some p
  | .quayUc p _ _ => some p
  | _ => none

/-- What a write by the Icehouse over the Canal does (log 112: a value is stored as written); Rime's window is unmapped on GFQ9640-ME
(R40). -/
def regByIce (s : State) (r : RegName) (w : Word) : State :=
  let n := w.toNat
  match r.port with
  | some p => if 4 ≤ p then s else modCfg s p fun c => quayWrite c r n
  | none =>
    match r with
    | .lkpCeil => modLkp s fun l => { l with ceil := n % 128 }
    | .lkpWeight g => if 8 ≤ g then s else modLkp s fun l => { l with weights := tabSet 1 l.weights g (n % 256) }
    | .sluCoef l k =>
      if 16 ≤ l ∨ k < 1776 ∨ 2048 ≤ k ∨ (laneOf s l).run then s else modLane s l fun x => { x with coefs := tabSet 0 x.coefs k w }
    | .sluSync => modSlu s fun x => { x with pinEn := bitOf n 0 }
    | .tbCtrl => modTb s fun t => { t with auto := bitOf n 2 }
    | .tbPps => modTb s fun t =>
        { t with clkA := { t.clkA with outEn := bitOf n 0, inEn := bitOf n 2 },
                 clkB := { t.clkB with outEn := bitOf n 1, inEn := bitOf n 3 } }
    | .tsqCfg p =>
      if 4 ≤ p then s
      else modTb s fun t =>
        { t with tsq := tabMod Tsq.reset t.tsq p fun q => { q with oneStep := bitOf n 8, vector := n % 256 } }
    | .rimeCtrl => if s.dev.variant = .me then canalAddr s 233 0x1120000000 else modRime s fun x => { x with strength := n % 4 }
    | _ => s

/-- REGISTER_WRITE (R6, R11-R13, R454): a write to a register whose fields have no row of their own. Reserved and read-only
fields ignore it; an RWS field keeps its value while its unit runs. -/
def execRegisterWrite (a : Agent) (r : RegName) (w : Word) (s : State) : Out :=
  if s.dev.inReset then .next s
  else match a with
    | .host => fin (regByHost s r w)
    | .canal => if s.dev.iceRuns then fin (regByIce s r w) else .next s

end Sys2Proof.Machine
end

