-- ==== Sys2Proof/Machine/DevCmd.lean ====
section
/-! DEFINITION. The commands on the device as a whole: information, changes of device state, resets, the negotiation
object, the LPDDR5X fence list and the Névé partitions (chapters 01, 15, 16). -/

namespace Sys2Proof.Machine

/-! ## Information (R453, R482, R491) -/

/-- DEV_ID, DEV_STEP, DEV_COMPAT, DEV_STRAPS and DEV_UNITS (R453). -/
def devId : Nat := 0x96401E6D
def devStep : Nat := 0x0A01
def devCompat (s : State) : Nat := noruxVersion s * 256 + b2n s.dev.compatQ48
def devStraps (s : State) : Nat := b2n s.dev.tandemEn * 8 + s.dev.bootSrc * 2 + b2n s.dev.compatQ48
/-- Floes passed by self-test and not fenced. -/
def floesLive (s : State) : Nat := if s.dev.tested then ((nums 96).filter fun f => !(floeOf s f).fenced).length else 0
/-- Ports present, one bit each. -/
def quayBits (s : State) : Nat := ((nums 4).filter fun n => !s.dev.quayFenced.contains n).foldl (fun a n => a + 2 ^ n) 0
def devUnits (s : State) : Nat :=
  floesLive s * 2 ^ 16 + quayBits s * 256 + b2n (s.dev.variant != .me) * 2 + b2n (s.dev.variant != .nx)
/-- DEV_STATE (R453, R471). -/
def devStateReg (s : State) : Nat := b2n s.dev.rcvDone * 512 + b2n s.dev.nxUp * 256 + s.dev.devState.no

/-- What function n presents in configuration space: vendor, device, class code, revision, subsystem vendor and subsystem, bytes of
BAR0, MSI-X vectors; function 1 is not enumerated on GFQ9640-NX (R2, R448). -/
def pciFunction (s : State) (n : Nat) : Option (List Nat) :=
  let sub := s.ice.stored.subsys.toNat
  let ids (device class_ bar vectors : Nat) : List Nat :=
    [0x1E6D, device, class_, 1, sub % 2 ^ 16, sub / 2 ^ 16, bar, vectors]
  match n with
  | 0 => some (ids 0x9640 0x048000 0x1000000 256)
  | 1 => if s.dev.variant = .nx then none else some (ids 0x9641 0x118000 0x10000 0)
  | _ => none

/-- NX_DEV_INFO (R482, R611; log 118): the identity and presence registers. -/
def nxDevInfo (_ : NxHdr) (s : State) : NxRes :=
  .done s (replyOf [[nv devId, nv devStep, nv (devCompat s), nv (devStraps s), nv (devUnits s), .wide s.tdm.ident]]) 0
/-- The catalogue row of NxDevInfo. -/
def spNxDevInfo : NxSpec :=
  { opcode := 0x0001, cls := 0, states := allStates, audit := false }
def execNxDevInfo (b : Nat) (f : Fmt) (s : State) : Out :=
  runNx spNxDevInfo b f (.nxDevInfo b f) nxDevInfo s

/-- NX_DEV_STATUS (R482, R611; log 118): DEV_STATE, DEV_HEARTBEAT and DEV_UNITS. -/
def nxDevStatus (_ : NxHdr) (s : State) : NxRes :=
  .done s (replyOf [[nv (devStateReg s), nv s.dev.heartbeat.toNat, nv (devUnits s)]]) 0
/-- The catalogue row of NxDevStatus. -/
def spNxDevStatus : NxSpec :=
  { opcode := 0x0002, cls := 0, states := allStates, audit := false }
def execNxDevStatus (b : Nat) (f : Fmt) (s : State) : Out :=
  runNx spNxDevStatus b f (.nxDevStatus b f) nxDevStatus s

/-- The 216 bytes of the negotiation status object (R491). -/
def negObject (s : State) : List Byte :=
  leBytes 26 2 ++ leBytes 0 2 ++ leBytes s.neg.gen 4 ++ ((nums 26).map fun k => negBytes k (negOf s k)).flatten

/-- NX_NEG_STATUS (R491). -/
def nxNegStatus (_ : NxHdr) (s : State) : NxRes := .done s (negObject s) 0
/-- The catalogue row of NxNegStatus. -/
def spNxNegStatus : NxSpec :=
  { opcode := 0x0008, cls := 0, states := allStates, audit := false }
def execNxNegStatus (b : Nat) (f : Fmt) (s : State) : Out :=
  runNx spNxNegStatus b f (.nxNegStatus b f) nxNegStatus s

/-! ## Into and out of SERVICE (R503, R508-R512) -/

/-- What R503 makes of NX_DEV_SERVICE: refused with a code, or the Tandem state with its entry's STATE and RESULT. -/
def tdmOutcome (s : State) : Nat ⊕ (TdmSt × NegState × Nat) :=
  if !s.dev.tandemEn then .inr (.off, .disabled, 0)
  else match (if peerHere s then s.tdm.peer else none) with
    | some h =>
      if h.version ≠ noruxVersion s ∨ h.compat ≠ s.dev.compatQ48 then .inl 0x0850
      else if !sameMods (s.mods.map fun m => (m.modId, m.version)) h.mods then .inl 0x0851
      else if h.devState = 3 then .inr (.lifting, .pending, 0)
      else if wantsPrimary s h then .inr (.solo, .pending, 0)
      else .inl 0x0855
    | none => if s.tdm.aliveIn then .inl 0x0853 else .inr (.solo, .degraded, 0x0854)

/-- At least one Quay port or one local port is enabled (R508; log 119). -/
def portEnabled (s : State) : Bool := decide (0 < quayBits s) || s.ice.lports.any fun p => p.2.en

/-- NX_DEV_SERVICE (R503, R508, R509). -/
def nxDevService (_ : NxHdr) (s : State) : NxRes :=
  checked [(!s.lkp.thread, 0x0203, noObj), (decide (1 ≤ floesLive s), 0x01F4, noObj), (portEnabled s, 0x01F5, noObj)]
    (match tdmOutcome s with
     | .inl c => no c
     | .inr (st, e, r) =>
       let s := modTdm (setDevState s .service) fun t => { t with st := st, lifted := [] }
       ok (if s.dev.tandemEn then tdmNeg s e r else negSet s 17 .disabled 0 0))
/-- The catalogue row of NxDevService. -/
def spNxDevService : NxSpec :=
  { opcode := 0x0003, cls := 0, states := [.ready] }
def execNxDevService (b : Nat) (f : Fmt) (s : State) : Out :=
  runNx spNxDevService b f (.nxDevService b f) nxDevService s

/-- NX_DEV_READY (R471, R512): from SERVICE with R80 applied, from RECOVERY once RCV_DONE is 1. -/
def nxDevReady (_ : NxHdr) (s : State) : NxRes :=
  checked [(s.dev.devState != .recovery || s.dev.rcvDone, 0x0206, noObj)] (ok (setDevState s .ready))
/-- The catalogue row of NxDevReady. -/
def spNxDevReady : NxSpec :=
  { opcode := 0x0004, cls := 0, states := [.service, .recovery] }
def execNxDevReady (b : Nat) (f : Fmt) (s : State) : Out :=
  runNx spNxDevReady b f (.nxDevReady b f) nxDevReady s

/-- NX_DEV_SELFTEST (R510): thread mode, and the self-test as a long command. -/
def nxDevSelftest (_ : NxHdr) (s : State) : NxRes :=
  match modeRefusal s true with
  | some (c, n) => .refuse c noObj n
  | none => .long (setDevState (setMode s true) .selftest) .selftest
/-- The catalogue row of NxDevSelftest. -/
def spNxDevSelftest : NxSpec :=
  { opcode := 0x0005, cls := 0, states := [.ready] }
def execNxDevSelftest (b : Nat) (f : Fmt) (s : State) : Out :=
  runNx spNxDevSelftest b f (.nxDevSelftest b f) nxDevSelftest s

/-- NX_DEV_HALT (R471). -/
def nxDevHalt (_ : NxHdr) (s : State) : NxRes := ok (halt s)
/-- The catalogue row of NxDevHalt. -/
def spNxDevHalt : NxSpec :=
  { opcode := 0x0007, cls := 0, states := [.boot, .selftest, .ready, .service, .recovery] }
def execNxDevHalt (b : Nat) (f : Fmt) (s : State) : Out :=
  runNx spNxDevHalt b f (.nxDevHalt b f)
    nxDevHalt s

/-- NX_DEV_RESET as the interpreter judges it: it returns nothing and changes nothing before the reset. -/
def nxDevReset (_ : NxHdr) (s : State) : NxRes := ok s
/-- Its catalogue row. -/
def devResetSpec : NxSpec := { opcode := 0x0006, cls := 0, states := allStates }
/-- NX_DEV_RESET (R473, R485): its own completion is written first; every berth is then abandoned (log 71). -/
def execNxDevReset (b : Nat) (f : Fmt) (x : BootIn) (s : State) : Out :=
  let r := runNx devResetSpec b f (.nxDevReset b f x) nxDevReset s
  if !nxAccepted devResetSpec b f s then r
  else match r with
    | .next s' => fin (deviceReset s' x)
    | o => o

/-! ## The LPDDR5X fence list (R498) -/

/-- NX_DDR_FENCE (R498): adds channel c to the list, or removes it. -/
def nxDdrFence (add : Bool) (c : Nat) (_ : NxHdr) (s : State) : NxRes :=
  let l := if add then addOnce (fenceList s) c else (fenceList s).filter (· != c)
  checked [(decide (c < 8), 0x01F6, noObj), (!add || decide (l.length ≤ 4), 0x01F7, noObj)] (ok (flashAsk s 0 (.fence l)))
/-- The catalogue row of NxDdrFence. -/
def spNxDdrFence : NxSpec :=
  { opcode := 0x0009, cls := 0, states := [.ready] }
def execNxDdrFence (b : Nat) (f : Fmt) (add : Bool) (c : Nat) (s : State) : Out :=
  runNx spNxDdrFence b f (.nxDdrFence b f add c) (nxDdrFence add c) s

/-! ## Névé partitions (R44-R47) -/

/-- Channels that need a Basin head: not FREE, with a STREAM, HOST or TDM receive source (R46). -/
def headChans (s : State) : Nat :=
  (s.media.chans.filter fun c => c.2.st != .free && c.2.core.usesBasin).length

/-- NX_NEVE_PARTITION (R45, R46): the seven sizes in KiB, in the order of R44. -/
def nxNevePartition (p : List Nat) (_ : NxHdr) (s : State) : NxRes :=
  let z (k : Nat) : Nat := p.getD k 0
  checked [(p.all fun n => n % 256 == 0, 0x0120, objNo 0x16 0), (p.sum == 32768 && p.length == 7, 0x0121, objNo 0x16 0),
           (decide (4 * 1024 ≤ z 0) && decide (4 * 512 ≤ z 1), 0x0122, objNo 0x16 0),
           (decide (2048 ≤ z 2) && decide (headChans s ≤ z 2), 0x0123, objNo 0x16 0),
           (decide (1024 ≤ z 3), 0x0124, objNo 0x16 0),
           (decide (1024 ≤ z 4) && decide (512 ≤ z 5), 0x0125, objNo 0x16 0)]
    (ok (modFab s fun f => { f with partsNext := some p }))
/-- The catalogue row of NxNevePartition. -/
def spNxNevePartition : NxSpec :=
  { opcode := 0x0010, cls := 0x16, states := [.ready] }
def execNxNevePartition (b : Nat) (f : Fmt) (p : List Nat) (s : State) : Out :=
  runNx spNxNevePartition b f (.nxNevePartition b f p) (nxNevePartition p) s

end Sys2Proof.Machine
end

