-- ==== Sys2Proof/Machine/Jct.lean ====
section
/-! DEFINITION. The events, register accesses and commands of the Junction (chapter 08). -/

namespace Sys2Proof.Machine

/-- BLOCK_BOUNDARY (R256-R258): the boundary after the last one, once the selected time has reached it. late: enabled
buses whose output of the block now beginning is unfinished; xpUe, busUe: crosspoints and buses found poisoned. -/
def execBlockBoundary (late xpUe busUe : List Nat) (s : State) : Out :=
  match s.jct.block with
  | none => .next s
  | some j =>
    if s.dev.devState != .service || decide (tick48 s < 6 * (j + 1)) then .next s
    else fin (jctBoundary s (j + 1) late xpUe busUe)

/-- JCT_SLICE_STATUS_WRITE (R260, R11): the Icehouse writes 1 to bit 30 and clears OVR_SEEN. -/
def execJctSliceStatusWrite (n : Nat) (w : Word) (s : State) : Out :=
  if 8 ≤ n then .next s
  else if w.getLsbD 30 then fin (modSlice s n fun x => { x with ovrSeen := false }) else fin s

/-- JCT_SLICE_COUNT_READ (R260): count 0 OVERRUN, 1 SRC_LATE, 2 UE, cleared by the read. -/
def execJctSliceCountRead (n k : Nat) (s : State) : Out :=
  let x := sliceOf s n
  match k with
  | 0 => fin (returned (modSlice s n fun x => { x with overrun := 0 }) x.overrun)
  | 1 => fin (returned (modSlice s n fun x => { x with late := 0 }) x.late)
  | 2 => fin (returned (modSlice s n fun x => { x with ue := 0 }) x.ue)
  | _ => .next s

/-! ## Commands (R269-R271) -/

/-- A source number exists (R251). -/
def srcOk (x : Nat) : Bool := x < 12288
/-- A gain in Q3.13 (R249). -/
def gainOk (g : Int) : Bool := decide (-32768 ≤ g) && decide (g ≤ 32767)

/-- Every Junction object is protected in Tandem (R356). -/
def allProt : State → Nat → Bool := fun _ _ => true

/-- NX_JCT_BUS_DEFINE (R248, R269). -/
def nxJctBusDefine (share : Bool) (parent : Nat) (minus : Option Nat) (h : NxHdr) (s : State) : NxRes :=
  if 4096 ≤ parent || !(minus.all srcOk) then no 0x0106
  else ok (modBus s h.idx fun _ => { Bus.reset with st := .defined, share := share, parent := parent, minus := minus })
/-- The catalogue row of NxJctBusDefine. -/
def spNxJctBusDefine : NxSpec :=
  { opcode := 0x0501, cls := 5, states := rs, legal := fun s k => (busOf s k).st == .free, prot := allProt }
def execNxJctBusDefine (b : Nat) (f : Fmt) (share : Bool) (parent : Nat) (minus : Option Nat) (s : State) : Out :=
  runNx spNxJctBusDefine b f (.nxJctBusDefine b f share parent minus) (nxJctBusDefine share parent minus) s

/-- A block boundary is due: a command executed at its instant counts as executed after it, and so waits for it (R263). -/
def blockDue (s : State) : Bool :=
  match s.jct.block with
  | some j => s.dev.devState == .service && decide (6 * (j + 1) ≤ tick48 s)
  | none => false

/-- Bus b with its MINUS written as m. -/
def withMinus (s : State) (b : Nat) (m : Option Nat) : State :=
  if s.dev.devState = .service then modBus s b fun x => { x with minusNext := some m }
  else modBus s b fun x => { x with minus := m }

/-- NX_JCT_BUS_SET (R248, R267, R269). -/
def nxJctBusSet (share : Option Bool) (parent : Option Nat) (minus : Option (Option Nat)) (h : NxHdr) (s : State) :
    NxRes :=
  let x := busOf s h.idx
  let structural := share.isSome || parent.isSome
  if structural && x.st != .defined then no 0x0201
  else if !(parent.all (· < 4096)) || !(minus.all fun m => m.all srcOk) then no 0x0106
  else
    let toShare := share == some true && !x.share
    checked [(!(toShare && (!x.xps.isEmpty || decide (1 < (listBuses s h.idx).length))), 0x0170, objNo 5 h.idx),
             (match minus with
              | some m => x.st != .enabled || termsFit (withMinus s h.idx m) (busSlice h.idx)
              | none => true, 0x0331, objNo 5 h.idx)]
      (let s := modBus s h.idx fun x => { x with share := share.getD x.share, parent := parent.getD x.parent }
       match minus with
       | none => ok s
       | some m => ok (withMinus s h.idx m))
/-- The catalogue row of NxJctBusSet. -/
def spNxJctBusSet : NxSpec :=
  { opcode := 0x0502, cls := 5, states := rs, legal := fun s k => (busOf s k).st != .free, prot := allProt }
def execNxJctBusSet (b : Nat) (f : Fmt) (share : Option Bool) (parent : Option Nat) (minus : Option (Option Nat))
    (s : State) : Out :=
  if blockDue s then .next s
  else runNx spNxJctBusSet b f (.nxJctBusSet b f share parent minus) (nxJctBusSet share parent minus) s

/-- NX_JCT_BUS_ENABLE (R259, R271). -/
def nxJctBusEnable (h : NxHdr) (s : State) : NxRes :=
  let x := busOf s h.idx
  let p := busOf s x.parent
  let me := objNo 5 h.idx
  let after := modBus s h.idx fun x => { x with st := .enabled, faulted := false }
  checked [(!x.share || (p.st == .enabled && !p.share && busSlice x.parent == busSlice h.idx), 0x0170,
              objNo 5 x.parent),
           (!onCycle s h.idx, 0x0174, me), (termsFit after (busSlice h.idx), 0x0331, me), ((poolFit s 32768).isSome, 0x0332, me)]
    (match poolFit s 32768 with
     | none => no 0x0332
     | some base => ok (poolTake after 2 h.idx base 32768))
/-- The catalogue row of NxJctBusEnable. -/
def spNxJctBusEnable : NxSpec :=
  { opcode := 0x0503, cls := 5, states := [.service], legal := fun s k => (busOf s k).st == .defined, prot := allProt }
def execNxJctBusEnable (b : Nat) (f : Fmt) (s : State) : Out :=
  runNx spNxJctBusEnable b f (.nxJctBusEnable b f) nxJctBusEnable s

/-- An enabled SHARE bus that names b. -/
def shareOf (s : State) (b : Nat) : Option Nat :=
  (s.jct.buses.find? fun p => p.2.st == .enabled && p.2.share && p.2.parent == b).map (·.1)

/-- NX_JCT_BUS_DISABLE (R269, R271). -/
def nxJctBusDisable (h : NxHdr) (s : State) : NxRes :=
  match shareOf s h.idx with
  | some k => .refuse 0x0177 (objNo 5 k) 0
  | none => ok (poolFree (modBus s h.idx fun x => { x with st := .defined }) 2 h.idx)
/-- The catalogue row of NxJctBusDisable. -/
def spNxJctBusDisable : NxSpec :=
  { opcode := 0x0504, cls := 5, states := rs, legal := fun s k => (busOf s k).st == .enabled, prot := allProt }
def execNxJctBusDisable (b : Nat) (f : Fmt) (s : State) : Out :=
  runNx spNxJctBusDisable
    b f (.nxJctBusDisable b f) nxJctBusDisable s

/-- A channel holding Floe units one of whose ends names bus b. -/
def busUser (s : State) (b : Nat) : Option Nat :=
  (s.media.chans.find? fun p => p.2.st.live && p.2.core.ends.contains (.bus b)).map (·.1)

/-- NX_JCT_BUS_FREE (R269, R271, R479): crosspoints are freed at once. A bus an enabled channel names stays: 0x013A
(log 37). -/
def nxJctBusFree (h : NxHdr) (s : State) : NxRes :=
  match shareOf s h.idx with
  | some k => .refuse 0x0177 (objNo 5 k) 0
  | none =>
    match busUser s h.idx with
    | some c => .refuse 0x013A (objNo 1 c) 0
    | none => ok (modBus ((busOf s h.idx).xps.foldl xpFree s) h.idx fun _ => Bus.reset)
/-- The catalogue row of NxJctBusFree. -/
def spNxJctBusFree : NxSpec :=
  { opcode := 0x0505, cls := 5, states := rs, legal := fun s k => (busOf s k).st == .defined, prot := allProt }
def execNxJctBusFree (b : Nat) (f : Fmt) (s : State) : Out :=
  runNx spNxJctBusFree
    b f (.nxJctBusFree b f) nxJctBusFree s


/-- The rules of R271 for a crosspoint to be added: code and object of the first that fails. -/
def addRules (s : State) (b src ramp : Nat) : List (Bool × Nat × Word) :=
  let me := objNo 5 b
  [(!onList s b src, 0x0173, me), (!closesCycle s b src, 0x0174, me), (decide (ramp ≤ 1000), 0x0175, me),
   ((freeXp s (busSlice b)).isSome, 0x0330, me),
   (match freeXp s (busSlice b) with
    | some k => termsFit (xpPut s b k src 0 0 none) (busSlice b)
    | none => true, 0x0331, me)]

/-- NX_JCT_XP_ADD (R249, R271): the reply gives the crosspoint's number. -/
def nxJctXpAdd (src : Nat) (gain : Int) (ramp : Nat) (h : NxHdr) (s : State) : NxRes :=
  if !srcOk src || !gainOk gain then no 0x0106
  else
    checked (addRules s h.idx src ramp)
      (match freeXp s (busSlice h.idx) with
       | none => no 0x0330
       | some k => .done (xpPut s h.idx k src gain ramp none) (replyOf [[.val k]]) 0)
/-- The catalogue row of NxJctXpAdd. -/
def spNxJctXpAdd : NxSpec :=
  { opcode := 0x0506, cls := 5, states := rs, prot := allProt,
    legal := fun s k => (busOf s k).st != .free && !(busOf s k).share }
def execNxJctXpAdd (b : Nat) (f : Fmt) (src : Nat) (gain : Int) (ramp : Nat) (s : State) : Out :=
  runNx spNxJctXpAdd b f (.nxJctXpAdd b f src gain ramp)
    (nxJctXpAdd src gain ramp) s

/-- One entry of NX_JCT_XP_SET: crosspoint, gain, ramp. -/
abbrev XpSet := Nat × Int × Nat

/-- The rules one entry must pass, in their order (R269, R271). -/
def xpSetRules (s : State) (e : XpSet) : List (Bool × Nat × Word) :=
  let me := objNo 6 e.1
  [(decide (e.1 < 32768) && gainOk e.2.1, 0x0106, me), (xpUsed s e.1, 0x0201, me), (decide (e.2.2 ≤ 1000), 0x0175, me),
   (!(xpOf s e.1).deleting, 0x0176, me)]

/-- Write one gain: at the next boundary, or at once outside SERVICE, where none falls (R263; log 36). -/
def xpSet1 (s : State) (e : XpSet) : State :=
  if s.dev.devState = .service then modXp s e.1 fun x => { x with pend := some (e.2.1, e.2.2) }
  else modXp s e.1 fun x => { x with gain := e.2.1, target := e.2.1, rampMs := e.2.2, g0 := 0, done := 0, total := 0 }

/-- The rules of NX_JCT_XP_SET: each for every entry before the next (R271). -/
def xpSetAll (s : State) (es : List XpSet) : List (Bool × Nat × Word) :=
  ((nums 4).map fun i => es.filterMap fun e => (xpSetRules s e)[i]?).flatten

/-- NX_JCT_XP_SET (R263-R265): up to 30 crosspoints, all or none. -/
def nxJctXpSet (es : List XpSet) (_ : NxHdr) (s : State) : NxRes :=
  if 30 < es.length then no 0x0106
  else checked (xpSetAll s es) (ok (es.foldl xpSet1 s))
/-- The catalogue row of NxJctXpSet. -/
def spNxJctXpSet : NxSpec :=
  { opcode := 0x0507, cls := 0, states := rs, prot := allProt }
def execNxJctXpSet (b : Nat) (f : Fmt) (es : List XpSet) (s : State) : Out :=
  if blockDue s then .next s else runNx spNxJctXpSet b f (.nxJctXpSet b f es) (nxJctXpSet es) s

/-- NX_JCT_XP_DELETE (R266): the target becomes 0 with the crosspoint's own RAMP; outside SERVICE it is freed at once
(log 36). -/
def nxJctXpDelete (h : NxHdr) (s : State) : NxRes :=
  let x := xpOf s h.idx
  checked [(x.entry.isNone && !x.deleting, 0x0176, objNo 6 h.idx)]
    (if s.dev.devState = .service then
       ok (modXp s h.idx fun x => { x with pend := some (0, x.rampMs), deleting := true })
     else ok (xpFree s h.idx))
/-- The catalogue row of NxJctXpDelete. -/
def spNxJctXpDelete : NxSpec :=
  { opcode := 0x0508, cls := 6, states := rs, legal := xpUsed, prot := allProt }
def execNxJctXpDelete (b : Nat) (f : Fmt) (s : State) : Out :=
  if blockDue s then .next s else runNx spNxJctXpDelete b f (.nxJctXpDelete b f) nxJctXpDelete s

/-- Insert into a rising list of numbers. -/
def insNat (x : Nat) : List Nat → List Nat
  | [] => [x]
  | y :: t => if x ≤ y then x :: y :: t else y :: insNat x t

/-- NX_JCT_STATS (R262, R271, R611): the bus, its crosspoints in ascending order, its slice. -/
def nxJctStats (h : NxHdr) (s : State) : NxRes :=
  let x := busOf s h.idx
  let n := busSlice h.idx
  let y := sliceOf s n
  let bus : List RVal := [.val x.st.no, .flag x.share, .val x.parent, .val (x.minus.elim (-1) fun m => (m : Int)),
                          .val (listOf s h.idx).length, .ctr x.clip]
  let xp (k : Nat) : List RVal :=
    let p := xpOf s k
    [.val p.gain, .val p.target, .val (p.total - p.done : Nat), .flag p.faulted]
  let sl : List RVal := [.val (xpsUsed s n).length, .val (enabledBuses s n).length, .val (sliceTerms s n),
                         .ctr y.overrun, .ctr y.late, .ctr y.ue]
  let clr (s : State) : State :=
    modSlice (modBus s h.idx fun x => { x with clip := 0 }) n fun y => { y with overrun := 0, late := 0, ue := 0 }
  .done (if h.clear then clr s else s) (replyOf [bus] ++ replyOf ((x.xps.foldl (fun l k => insNat k l) []).map xp) ++ replyOf [sl]) 0
/-- The catalogue row of NxJctStats. -/
def spNxJctStats : NxSpec :=
  { opcode := 0x0509, cls := 5, states := rsr, audit := false, counts := true }
def execNxJctStats (b : Nat) (f : Fmt) (s : State) : Out :=
  runNx spNxJctStats b f (.nxJctStats b f) nxJctStats s

end Sys2Proof.Machine
end

