-- ==== Sys2Proof/Machine/Slu.lean ====
section
/-! DEFINITION. The events, register accesses and commands of the Sluice (chapter 09). -/

namespace Sys2Proof.Machine

/-- SLUICE_REQUEST (R34, R273, R284): island dom writes data to lane l's request port; a write of another size than 32 bytes is
unmapped, and the lane takes nothing from another reach. -/
def execSluiceRequest (l dom : Nat) (data : List Byte) (s : State) : Out :=
  if s.dev.inReset || decide (16 ≤ l) || !canalIssuer dom then .next s
  else if data.length = 32 then fin (if sluServes l dom then sluPut s l (sluReqOf data) else s)
  else fin (canalAddr s dom (0x1100000000 + (0x18 + l / 4) * 0x1000000 + l % 4 * 0x4000 + 0x1000))

/-- Process request q of lane l (R283, R285, R286). hist: a history word of the context arrived poisoned (R292); errs: what the code
checks find in the memory words it reads (R43). -/
def sluServe (s : State) (l : Nat) (q : SluReq) (hist : Bool) (errs : List (Nat × Ecc)) : State :=
  let x := laneOf s l
  let bad := q.rsvd || q.count == 0 || decide (4096 < q.count) || q.inPtr % 32 != 0 || q.outPtr % 32 != 0
  match ctxOf s (512 * l + q.ctx) with
  | none => sluErr s l q true
  | some c =>
    if bad then sluErr s l q true
    else
      match x.prof c.prof with
      | none => sluErr s l q true
      | some p =>
        if x.faulted.contains c.prof then sluErr s l q false
        else
          let s := neveReadUe (memFind s q.inPtr (4 * q.count) errs) q.inPtr (4 * q.count)
          let (xs, np) := sluIn s q
          let r0 : SluRun := { c := c.begin p q, out := [], sat := 0, mark := 0, moved := false, late := 0, slip := 0 }
          let r := sluLoop x.coef p (ctxEps s c) q.tick 0 xs r0
          let n := r.out.length
          if 8192 < n then sluErr s l q true
          else
            let c' := { r.c with sat := sat64 (r.c.sat + r.sat), stepPend := hist }
            let s := memMissed s (128 + l) q.inPtr (4 * q.count)
            let s := memMissed s (128 + l) q.outPtr (4 * n)
            let s := mergeFind s q.outPtr (4 * n) errs
            let s := memWrite s q.outPtr ((r.out.reverse.map fun y => leBytes (BitVec.ofInt 32 y).toNat 4).flatten)
            let s := modLane s l fun x =>
              { x with sat := sat32 (x.sat + r.sat), ue := sat32 (x.ue + np + b2n hist),
                       slip := sat32 (x.slip + r.slip), late := sat32 (x.late + r.late) }
            let s := setCtx s (512 * l + q.ctx) (some c')
            sluPost s l c' q (sluArg n r.mark (decide (0 < r.sat)) (decide (0 < np)) r.moved false)

/-- SLUICE_REQUEST_DONE (R43, R285, R302): the head request of a running lane. coef: a coefficient word found poisoned; hist: a
history word of its context found poisoned; errs: what the code checks find in the memory words read. While a bank holds the lane's
last completion the lane waits (R198, R284). -/
def execSluiceRequestDone (u : UnitRead) (coef : Option Nat) (hist : Bool) (s : State) : Out :=
  let l := u.no
  let errs := u.errs
  let x := laneOf s l
  match x.queue with
  | [] => .next s
  | q :: t =>
    if !x.run || x.rewrite || unitStalled s (128 + l) then .next s
    else
      let s := match coef with | some w => if w < 2048 then coefUe s l w else s | none => s
      if (laneOf s l).rewrite then fin s
      else fin (modLane (sluServe (modLane s l fun x => { x with queue := t }) l q hist errs) l SluLane.refill)

/-- SLU_SYNC_EDGE (R295, R296): a rising edge on the ball. skip: one less than 100 ns before a media tick is registered
after that tick. -/
def execSluSyncEdge (skip : Bool) (s : State) : Out :=
  if !s.slu.pinEn || s.dev.inReset then .next s
  else
    let left := tickTime 48000 (tick48 s + 1) - s.tb.sel
    fin (syncEvent s (skip && decide (left < 100 * 65536)))

/-- COEF_REWRITE_DONE (R302): the standard word is good again and requests proceed. -/
def execCoefRewriteDone (l : Nat) (s : State) : Out := fin (modLane s l fun x => { x with rewrite := false })

/-- SLU_LANE_CTRL_WRITE (R297, R32): the Icehouse alone writes RUN. -/
def execSluLaneCtrlWrite (l : Nat) (a : Agent) (w : Word) (s : State) : Out :=
  if 16 ≤ l || a == .host then .next s
  else fin (modLane s l fun x => SluLane.refill { x with run := w.getLsbD 0 })

/-- SLU_COUNT_READ (R11, R302): count 0 SAT, 1 UE, 2 SYNC_SLIP, 3 SYNC_LATE, 4 BADREQ, cleared by the read. -/
def execSluCountRead (l k : Nat) (s : State) : Out :=
  let x := laneOf s l
  if 16 ≤ l then .next s
  else
    match k with
    | 0 => fin (returned (modLane s l fun x => { x with sat := 0 }) x.sat)
    | 1 => fin (returned (modLane s l fun x => { x with ue := 0 }) x.ue)
    | 2 => fin (returned (modLane s l fun x => { x with slip := 0 }) x.slip)
    | 3 => fin (returned (modLane s l fun x => { x with late := 0 }) x.late)
    | 4 => fin (returned (modLane s l fun x => { x with bad := 0 }) x.bad)
    | _ => .next s

/-- SLU_SYNC_TICK_READ (R14): the low half, which latches the high half; hi: the latched high half, once (log 162). -/
def execSluSyncTickRead (hi : Bool) (s : State) : Out :=
  if hi then fin (returned (modSlu s fun u => { u with tickHi := none }) (hiRead s.slu.tickHi (s.slu.tick / 2 ^ 32)))
  else fin (returned (modSlu s fun u => { u with tickHi := some (BitVec.ofNat 32 (u.tick / 2 ^ 32)) }) (s.slu.tick % 2 ^ 32))

/-- SLU_SYNC_IGN_READ (R296): cleared by the read. -/
def execSluSyncIgnRead (s : State) : Out := fin (returned (modSlu s fun u => { u with ign := 0 }) s.slu.ign)

/-! ## Commands (R297-R301) -/

/-- A context of lane l whose channel holds it (R298). -/
def chanCtx (s : State) (l : Nat) : Option Nat := ((laneOf s l).bound.findSome? fun p => p.2.owner)

/-- NX_SLU_STOP (R298). -/
def nxSluStop (h : NxHdr) (s : State) : NxRes :=
  match chanCtx s h.idx with
  | some c => .refuse 0x0183 (objNo 1 c) 0
  | none => ok (modLane s h.idx fun x => { x with run := false })
/-- The catalogue row of NxSluStop. -/
def spNxSluStop : NxSpec :=
  { opcode := 0x0601, cls := 7, states := rs, legal := fun s k => (laneOf s k).run }
def execNxSluStop (b : Nat) (f : Fmt) (s : State) : Out :=
  runNx spNxSluStop b f (.nxSluStop b f) nxSluStop s

/-- NX_SLU_START (R298): held requests proceed. -/
def nxSluStart (h : NxHdr) (s : State) : NxRes :=
  ok (modLane s h.idx fun x => SluLane.refill { x with run := true })
/-- The catalogue row of NxSluStart. -/
def spNxSluStart : NxSpec :=
  { opcode := 0x0602, cls := 7, states := rs, legal := fun s k => !(laneOf s k).run }
def execNxSluStart (b : Nat) (f : Fmt) (s : State) : Out :=
  runNx spNxSluStart b f (.nxSluStart b f)
    nxSluStart s

/-- A profile as NX_SLU_LOAD carries it: number, input rate, stages. -/
abbrev ProfIn := Nat × Nat × List Stage

/-- One to six stages, DCB only first, at most one ADAPT (R275, 0x0180). -/
def chainShape (l : List Stage) : Bool :=
  decide (1 ≤ l.length) && decide (l.length ≤ 6) && (l.drop 1).all (fun g => g.kind != .dcb)
    && decide ((l.filter fun g => g.kind == .adapt).length ≤ 1)

/-- Every parameter within its range (R275, 0x0181). -/
def stageOk (g : Stage) : Bool :=
  match g.kind with
  | .dcb => decide (4 ≤ g.k) && decide (g.k ≤ 24)
  | .adapt => decide (2 ≤ g.p) && decide (g.p ≤ 512) && decide (1 ≤ g.t) && decide (g.t ≤ 255) && decide (g.shift ≤ 31)
      && decide (g.coef + g.words ≤ 2048)
  | _ => decide (1 ≤ g.ratio) && decide (g.ratio ≤ 4096) && decide (1 ≤ g.n) && decide (g.n ≤ 2048)
      && decide (g.shift ≤ 31) && decide (g.coef + g.words ≤ 2048) && (g.kind != .int || g.n % g.ratio == 0)

/-- History need and taps of a DEC output (R288, 0x0184). -/
def historyOk (l : List Stage) : Bool :=
  decide ((l.map Stage.need).sum ≤ 256) && l.all (fun g => g.kind != .dec || decide (g.n ≤ 256))

/-- Input rates of R276. -/
def sluRates : List Nat := [8000, 16000, 32000, 48000, 96000]

/-- The bound context of lane l that names profile p (R299). -/
def profUsed (s : State) (l p : Nat) : Option Nat := ((laneOf s l).bound.find? fun e => e.2.prof == p).map (·.1)

/-- NX_SLU_LOAD (R299, R301, R479): a long command; the checks are made at execution. -/
def nxSluLoad (profs : List ProfIn) (coefs : List (Nat × BitVec 32)) (h : NxHdr) (s : State) : NxRes :=
  let me := objNo 7 h.idx
  let user := profs.findSome? fun p => profUsed s h.idx p.1
  checked [(profs.all fun p => chainShape p.2.2, 0x0180, me), (profs.all fun p => p.2.2.all stageOk, 0x0181, me),
           (profs.all (fun p => decide (6 ≤ p.1) && decide (p.1 ≤ 15))
              && coefs.all (fun c => decide (1776 ≤ c.1) && decide (c.1 ≤ 2047)), 0x0182, me),
           (profs.all fun p => historyOk p.2.2, 0x0184, me),
           (profs.all fun p => sluRates.contains p.2.1 && ratesWhole p.2.2 p.2.1, 0x0185, me),
           (user.isNone, 0x0187, objNo 8 (h.idx * 512 + user.getD 0))]
    (.long s (.sluLoad (profs.map fun p => (p.1, some (mkProfile p.2.1 p.2.2))) coefs))
/-- The catalogue row of NxSluLoad. -/
def spNxSluLoad : NxSpec :=
  { opcode := 0x0603, cls := 7, states := rs, legal := fun s k => !(laneOf s k).run }
def execNxSluLoad (b : Nat) (f : Fmt) (profs : List ProfIn) (coefs : List (Nat × BitVec 32)) (s : State) : Out :=
  runNx spNxSluLoad b f (.nxSluLoad b f profs coefs) (nxSluLoad profs coefs) s

/-- The load is written: profiles with U and reserved rate, coefficient words; a reloaded profile is good again
(R299, R302). -/
def sluLoaded (s : State) (l : Nat) (profs : List (Nat × Option Profile)) (coefs : List (Nat × BitVec 32)) : State :=
  modLane s l fun x =>
    { x with profs := profs.foldl (fun t p => tabSet none t p.1 p.2) x.profs,
             coefs := coefs.foldl (fun t c => tabSet 0 t c.1 c.2) x.coefs,
             faulted := x.faulted.filter fun p => !(profs.any fun e => e.1 == p) }

/-- NX_SLU_CTX_BIND (R289, R300): reach, profile and routing of completions; the reply gives lane and context. -/
def nxSluCtxBind (reach prof kind chamber : Nat) (atomic : Bool) (target : Nat) (_ : NxHdr) (s : State) : NxRes :=
  if 4 ≤ reach || 16 ≤ prof || 64 ≤ kind || 65536 ≤ chamber || targetReach target != some reach then no 0x0106
  else
    match sluPlace s reach prof with
    | .error c => no c
    | .ok k => .done (sluBind s k prof kind chamber atomic target none)
        (replyOf [[.val (k / 512 : Nat), .val (k % 512 : Nat)]]) 0
/-- The catalogue row of NxSluCtxBind. -/
def spNxSluCtxBind : NxSpec :=
  { opcode := 0x0604, cls := 0, states := [.service] }
def execNxSluCtxBind (b : Nat) (f : Fmt) (reach prof kind chamber : Nat) (atomic : Bool) (target : Nat) (s : State) :
    Out :=
  runNx spNxSluCtxBind b f (.nxSluCtxBind b f reach prof kind chamber atomic target)
    (nxSluCtxBind reach prof kind chamber atomic target) s

/-- Context k is owned by no channel (0x0186). -/
def hostCtx (s : State) (k : Nat) : Bool := match ctxOf s k with | some x => x.owner.isNone | none => false

/-- The effect of NX_SLU_CTX_SET on a bound context (R292, R294). -/
def ctxSet (s : State) (k : Nat) (freeze : Option Bool) (restart : Bool) (prof : Option Nat) : State :=
  match ctxOf s k with
  | none => s
  | some x =>
    let x := match freeze with | some v => { x with frzPend := some v } | none => x
    let x := match prof with | some p => { x with prof := p } | none => x
    let x := if restart || prof.isSome then
        match (laneOf s (k / 512)).prof x.prof with | some p => x.start p | none => x
      else x
    setCtx s k (some x)

/-- NX_SLU_CTX_SET (R294, R297, R300, R301). -/
def nxSluCtxSet (freeze : Option Bool) (restart : Bool) (prof : Option Nat) (h : NxHdr) (s : State) : NxRes :=
  let l := h.idx / 512
  let x := laneOf s l
  let me := objNo 8 h.idx
  if ((freeze.isSome || restart) && s.dev.devState != .service) || (prof.isSome && x.run) then no 0x0201
  else if !(prof.all (· < 16)) then no 0x0106
  else
    checked [(hostCtx s h.idx, 0x0186, me), (prof.all fun p => (x.prof p).isSome, 0x0187, me),
             (decide ((laneOf (ctxSet s h.idx none false prof) l).load ≤ sluLimit), 0x0340, me)]
      (ok (ctxSet s h.idx freeze restart prof))
/-- The catalogue row of NxSluCtxSet. -/
def spNxSluCtxSet : NxSpec :=
  { opcode := 0x0605, cls := 8, states := rs, legal := fun s k => (ctxOf s k).isSome }
def execNxSluCtxSet (b : Nat) (f : Fmt) (freeze : Option Bool) (restart : Bool) (prof : Option Nat) (s : State) : Out :=
  runNx spNxSluCtxSet b f (.nxSluCtxSet b f freeze restart prof) (nxSluCtxSet freeze restart prof) s

/-- NX_SLU_CTX_FREE (R300, R301). -/
def nxSluCtxFree (h : NxHdr) (s : State) : NxRes :=
  checked [(hostCtx s h.idx, 0x0186, objNo 8 h.idx)] (ok (setCtx s h.idx none))
/-- The catalogue row of NxSluCtxFree. -/
def spNxSluCtxFree : NxSpec :=
  { opcode := 0x0606, cls := 8, states := rs, legal := fun s k => (ctxOf s k).isSome }
def execNxSluCtxFree (b : Nat) (f : Fmt) (s : State) : Out :=
  runNx spNxSluCtxFree b f (.nxSluCtxFree b f)
    nxSluCtxFree s

/-- NX_SLU_SYNC (R295). -/
def nxSluSync (_ : NxHdr) (s : State) : NxRes := ok (syncEvent s false)
/-- The catalogue row of NxSluSync. -/
def spNxSluSync : NxSpec :=
  { opcode := 0x0607, cls := 0, states := rs }
def execNxSluSync (b : Nat) (f : Fmt) (s : State) : Out :=
  runNx spNxSluSync b f (.nxSluSync b f) nxSluSync s

/-- NX_SLU_STATS (R291, R300, R611; log 40): the lane's registers with the sync registers and coefficients, then U of each
profile, then each bound context. -/
def nxSluStats (h : NxHdr) (s : State) : NxRes :=
  let x := laneOf s h.idx
  let u := s.slu
  let lane : List RVal :=
    [.flag x.run, .flag (!x.run), .flag (!x.faulted.isEmpty), .val x.bound.length, .val x.queue.length,
     .val (ceilDiv x.load 1000000 : Nat), .ctr x.sat, .ctr x.ue, .ctr x.slip, .ctr x.late, .ctr x.bad]
    ++ (nums 2048).map (fun w => .val (x.coef w)) ++
    [.flag (syncPending s), .flag u.pinEn, .wide u.tick, .ctr u.ign]
  let prof (k : Nat) : List RVal := [.val ((x.prof k).elim 0 (·.u) : Nat)]
  let ctx (p : Nat × Ctx) : List RVal := [.val p.2.prof, .flag p.2.frozen, .val p.2.left, .ctr p.2.sat]
  let clr (s : State) : State :=
    modSlu (modLane s h.idx fun x =>
      { x with sat := 0, ue := 0, slip := 0, late := 0, bad := 0,
               ctxs := x.ctxs.map fun p => (p.1, p.2.map fun c => { c with sat := 0 }) }) fun u => { u with ign := 0 }
  .done (if h.clear then clr s else s) (replyOf [lane] ++ replyOf ((nums 16).map prof) ++ replyOf (x.bound.map ctx)) 0
/-- The catalogue row of NxSluStats. -/
def spNxSluStats : NxSpec :=
  { opcode := 0x0608, cls := 7, states := rsr, audit := false, counts := true }
def execNxSluStats (b : Nat) (f : Fmt) (s : State) : Out :=
  runNx spNxSluStats b f (.nxSluStats b f) nxSluStats s

end Sys2Proof.Machine
end

