-- ==== Sys2Proof/Machine/Icehouse.lean ====
section
/-! DEFINITION. The Icehouse's sensors, the faults that change the device state, and the background activities Plough,
Sounding, Ablation and Drift (chapters 01, 17). -/

namespace Sys2Proof.Machine

/-- The Icehouse firmware runs. -/
def iceUp (s : State) : Bool := s.dev.nxUp && s.dev.iceRuns && !s.dev.inReset
/-- The background activities run: in every device state but HALTED (R520). -/
def bgRuns (s : State) : Bool := iceUp s && s.dev.devState != .halted

/-- A list as a sparse table. -/
def tabOf {α : Type} [DecidableEq α] (d : α) (l : List α) : Tab α :=
  ((nums l.length).zip l).foldl (fun t p => tabSet d t p.1 p.2) []

/-! ## Sensors (R515, R516, R586, R587) -/

/-- V_SET in 0.1 mV; 0.72 V in FIXED mode (R493, R525; log 120). -/
def vSet (s : State) : Nat := if s.ice.sense.vrMode = 2 then 7200 else s.ice.sense.vBase + s.ice.sense.vAbl

/-- Least and greatest permitted reading of monitor i, in 0.1 mV (R586, R587). -/
def voltLimits (s : State) (i : Nat) : Nat × Nat :=
  if i < 8 then (if s.ice.sense.vrMode = 2 then (7200, 8000) else (vSet s - 150, vSet s + 250))
  else ([(7275, 7725), (11640, 12360), (7275, 7725), (4700, 5700), (7275, 7725), (17100, 18900), (31350, 34650),
         (17460, 18540)] : List (Nat × Nat)).getD (i - 8) (0, 0)

/-- Reading v of monitor i lies within its rail's limits. -/
def voltOk (s : State) (i v : Nat) : Bool := decide ((voltLimits s i).1 ≤ v) && decide (v ≤ (voltLimits s i).2)

/-- Object of the Icehouse. -/
def iceObj : Word := objNo 0x11 0

/-- Site of a temperature sensor: T0 to T15 stand in the reaches, the others at the centre (R22, R515). -/
def tempSite (i : Nat) : DWord := if i < 16 then siteReach (i / 4) else siteDie
/-- Site of a voltage monitor: V0 to V7 watch VDD_CORE in the reaches, the others rails of the whole die (R22, R515). -/
def voltSite (i : Nat) : DWord := if i < 8 then siteReach (i / 2) else siteDie

/-- A sensor at or above 100 °C raises TEMP_HIGH; it may again once below 97 °C (R516). -/
def tempCheck (s : State) (i : Nat) : State :=
  let t := tabGet 0 s.ice.sense.temps i
  if 10000 ≤ t ∧ !s.ice.sense.hot.contains i then
    alarm (modSense s fun x => { x with hot := x.hot ++ [i] }) 3 iceObj (BitVec.ofNat 64 i) (tempSite i)
  else if t < 9700 then modSense s fun x => { x with hot := x.hot.filter (· != i) }
  else s

/-- Island d measures more than 3 % slower than the worst-corner period its OTP records (R30). -/
def islandLate (s : State) (d : Nat) : Bool :=
  decide (103 * tabGet 0 s.ice.stored.worst d < 100 * tabGet 0 s.ice.sense.periods d)

/-- Since when each island has measured slow, after a reading of the monitors (R30). -/
def slowNote (s : State) (d : Nat) : State :=
  modSense s fun x =>
    let old := tabGet none x.slowSince d
    { x with slowSince := tabSet none x.slowSince d (if islandLate s d then some (old.getD s.tb.elapsed) else none) }

/-- In FIXED mode a voltage monitor of VDD_CORE below 0.715 V gives the regulator's entry 0x0831, where it stays (R493, R525; log
199). -/
def coreLow (s : State) : State :=
  if s.ice.sense.vrMode = 2 ∧ (nums 8).any (fun i => decide (tabGet 0 s.ice.sense.volts i < 7150)) then
    negSet s 14 .failed 0x0831 (negOf s 14).mode
  else s

/-- SENSOR_READ (R493, R515, R516): T0-T23 in 0.01 °C, V0-V15 and HOLDUP_SENSE in 0.1 mV, the 212 monitors in ps. -/
def execSensorRead (temps : List Int) (volts periods : List Nat) (holdup : Nat) (s : State) : Out :=
  if !iceUp s then .next s
  else
    let s := modSense s fun x =>
      { x with temps := tabOf 0 (temps.take 24), volts := tabOf 0 (volts.take 16), periods := tabOf 0 (periods.take 212),
               holdup := holdup }
    let s := modSense s fun x => { x with out := x.out.filter fun i => !voltOk s i (tabGet 0 s.ice.sense.volts i) }
    fin (coreLow ((nums 24).foldl tempCheck ((nums 212).foldl slowNote s)))

/-- TEMP_TRIP (R516, R517): sensor i has been at t, 110 °C or above, for 1 ms: the package's thermal limit (R22). -/
def execTempTrip (i : Nat) (t : Int) (s : State) : Out :=
  if !iceUp s || decide (24 ≤ i) || decide (t < 11000) then .next s
  else
    let s := modSense s fun x => { x with temps := tabSet 0 x.temps i t }
    fin (halt (alarm s 4 iceObj (BitVec.ofNat 64 i) sitePackage))

/-- VOLT_RANGE (R516, R517): monitor i has read v, outside its rail's limits, for 100 µs, or with ms for 1 ms. VDD_CORE
below the setpoint less 50 mV for 1 ms sends the device to RECOVERY. -/
def execVoltRange (i v : Nat) (ms : Bool) (s : State) : Out :=
  if !iceUp s || decide (16 ≤ i) || voltOk s i v then .next s
  else
    let known := s.ice.sense.out.contains i
    let s := coreLow (modSense s fun x => { x with volts := tabSet 0 x.volts i v, out := addOnce x.out i })
    let s := if known then s else alarm s 5 iceObj (BitVec.ofNat 64 i) (voltSite i)
    fin (if ms && decide (i < 8) && decide (v + 500 < vSet s) then recover s 5 else s)

/-! ## Faults (R517, R519) -/

/-- ICE_LOCKSTEP (R517): the device halts and the Icehouse stops. -/
def execIceLockstep (s : State) : Out :=
  if s.dev.inReset || !s.dev.iceRuns then .next s
  else fin (modDev (halt (alarm s 1 iceObj 0 (siteIsland 233))) fun d => { d with iceRuns := false })

/-- ICE_SRAM_UE (R517): an uncorrectable word w of Icehouse SRAM. -/
def execIceSramUe (w : Nat) (s : State) : Out :=
  if s.dev.inReset || !s.dev.iceRuns then .next s else fin (halt (alarm s 2 iceObj 0 (siteStage 233 0 w)))

/-- The condition RECOVERY waits for has ended, as far as the sensors tell (R519). -/
def condOver (s : State) (c : Nat) : Bool :=
  if c = 5 then (nums 8).all fun i => voltOk s i (tabGet 0 s.ice.sense.volts i) else c != 0x14

/-- RECOVERY_DONE (R519): steps 1 to 3 are done and the condition has ended for 1 s; for DDR_UE it never does. bad: the
part's self-test failed and it cannot be fenced. -/
def execRecoveryDone (bad : Bool) (s : State) : Out :=
  if !iceUp s || s.dev.devState != .recovery || s.dev.rcvDone then .next s
  else match s.dev.recovering with
    | none => .next s
    | some c =>
      if bad then fin (halt s)
      else if condOver s c then fin (modDev s fun d => { d with rcvDone := true })
      else .next s

/-! ## The millisecond (R453, R526, R537, R539) -/

/-- A step of V_ABL that waited for 10 s is made (R526). -/
def ablLate (s : State) : State :=
  match s.ice.sense.ablWant with
  | some d => if bgRuns s then ablStep s d else s
  | none => s

/-- DEV_HEARTBEAT (R453): each millisecond the count rises; the log bucket takes its two tokens (R537) and staged traces
move on (R539). -/
def execDevHeartbeat (s : State) : Out :=
  if !iceUp s then .next s
  else
    let s := modDev s fun d => { d with heartbeat := d.heartbeat + 1 }
    let s := modLanes s fun l => { l with tokens := min 20000 (l.tokens + 2) }
    fin (ablLate (traceMove s))

/-! ## Ablation (R30, R146, R526, R527) -/

/-- Island d has measured slow for 1 s (R30). -/
def slowFor (s : State) (d : Nat) : Bool :=
  match tabGet none s.ice.sense.slowSince d with
  | some t => decide (t + unitsPerSec ≤ s.tb.elapsed)
  | none => false

/-- ISLAND_SLOW (R30, R146, R526): island d has been more than 3 % slow for 1 s; with V_ABL at its full +60 mV a slow Floe
is fenced. -/
def execIslandSlow (d : Nat) (s : State) : Out :=
  if !iceUp s || decide (212 ≤ d) || !slowFor s d then .next s
  else
    let s := alarm s 6 0 (BitVec.ofNat 64 d) (siteIsland d)
    if !bgRuns s then fin s
    else if 600 ≤ s.ice.sense.vAbl ∧ d < 96 then fin (fenceFloe s d (siteIsland d))
    else fin (ablStep s d)

/-- ABLATION_CHECK (R526, R527): slow: the island, if one, whose scaled period exceeds 98 % of its recorded one; proj: the
greatest erase count projected for a log sector at 40 years (log 121). -/
def execAblationCheck (slow : Option Nat) (proj : Nat) (s : State) : Out :=
  if !bgRuns s then .next s
  else
    let s := match slow with | some d => ablStep s d | none => s
    let wear := s.ice.flash.wear
    if 90000 < proj ∧ !wear then fin (alarm (modFlash s fun f => { f with wear := true }) 0xB iceObj (BitVec.ofNat 64 proj) noSite)
    else if proj < 80000 then fin (modFlash s fun f => { f with wear := false })
    else fin s

/-! ## Plough (R521, R522) -/

/-- Number of a memory in PLG_CE and PLG_UE. -/
def PlMem.no : PlMem → Nat
  | .ddr => 0 | .neve => 1 | .xp => 2 | .bus => 3 | .flow => 4 | .rime => 5 | .ring => 6 | .lkp k _ _ => 8 + k
  | .coef l => 16 + l | .ctx l => 32 + l | .imem f => 64 + f | .dmem f => 192 + f

/-- The context replay ring n has in its manager: the number of lower rings enabled there (R235, R246; log 163). -/
def ringCtx (s : State) (n : Nat) : Nat :=
  (s.media.rings.filter fun p => decide (p.1 < n) && (p.2.st == .enabled || p.2.st == .rewinding) && p.2.mgr == (ringOf s n).mgr).length

/-- Domain, macro and stage of word w of a memory; a word of LPDDR5X has no macro (R42, R65, R147, R172, R246, R272, R302, R319,
R433). -/
def plPlace (s : State) (m : PlMem) (w : Nat) : Option (Nat × Nat × Nat) :=
  match m with
  | .ddr => none
  | .neve => some (neveRing (8 * w), bitsOf (8 * w) 10 6 % 16, neveStage (8 * w))
  | .imem f => some (f, 0, w)
  | .dmem f => some (if w < 16384 then (f, 1, w) else (f, 2, w - 16384))
  | .coef l => some (128 + l, 0, w)
  | .ctx l => some (128 + l, 1, w)
  | .xp => some (148 + xpSlice w, 0, w % 4096)
  | .bus => some (148 + busSlice w, 1, w % 512)
  | .lkp k mac _ => some (156 + k, mac, w)
  | .flow => match flowOf s w with | some x => some (180 + x.bank, 0, x.idx) | none => none
  | .rime => match (slotOf s w).home with | some r => some (96 + 8 * r, 0, hotEntry s w) | none => none
  | .ring => some (168 + (ringOf s w).mgr, 1, ringCtx s w)

/-- Site of word w of a memory at level 2. -/
def plSite (s : State) (m : PlMem) (w : Nat) : DWord :=
  match plPlace s m w with
  | some (d, mac, st) => siteStage d mac st
  | none => siteIsland (222 + ddrChan s (8 * w))
/-- Site of a bit of it at level 1. -/
def plBit (s : State) (m : PlMem) (w bit : Nat) : DWord :=
  match plPlace s m w with
  | some (d, mac, st) => siteBit d mac st bit
  | none => siteIsland (222 + ddrChan s (8 * w))

/-- An uncorrectable Lockkeeper word: LKP_UE with its site; a pound or group-queue item's poison travels with it (R172,
R178, R522; log 164). -/
def lkpWordBad (s : State) (k mac q w : Nat) : State :=
  let hurt (h : Held) : Held := { h with it := { h.it with px := h.it.px ||| (1 <<< q) } }
  let s := modReach s (k / 2) fun x =>
    if mac = 0 then { x with pounds := tabMod [] x.pounds (w / 2048) fun l => l.modify (w % 2048) hurt }
    else if mac = 1 then { x with groups := tabMod [] x.groups (w / 1024) fun l => l.modify (w % 1024) hurt }
    else if mac = 4 then { x with inject := x.inject.modify ((w + 64 - x.injAt) % 64) fun it => { it with px := it.px ||| (1 <<< q) } }
    else x
  alarm s 0x2A 0 0 (siteStage (156 + k) mac w)

/-- An uncorrectable history word: counted, SLU_UE with its site, and the context's next request begins with a step (R292,
R302). -/
def histUe (s : State) (l w : Nat) : State :=
  let s := modLane s l fun x => { x with ue := sat32 (x.ue + 1) }
  let s := match ctxOf s (512 * l + w / 256) with
    | some c => setCtx s (512 * l + w / 256) (some { c with stepPend := true })
    | none => s
  alarm s 0x34 (objNo 8 (512 * l + w / 256)) 0 (siteStage (128 + l) 1 w)

/-- Word w of Névé is uncorrectable: counted, NEVE_UE; a word of the Lockkeeper's chamber queue, in the second 512 KiB of the
chamber spill partition, is word w mod 4 of the item at that place; a word of a Basin head faults its channel (R43, R171, R178,
R246; log 165). -/
def neveBad (s : State) (w : Nat) : State :=
  let s := neveUeAt (modFab s fun f => { f with nevePoison := addOnce f.nevePoison w }) (8 * w)
  let s := ((s.media.basins.map (·.1)).filter (headHurt s)).foldl headFault s
  let o := 8 * w - chqBase s
  if chqBase s ≤ 8 * w ∧ o < 0x80000 then chqHurt s (o / 32) (o / 8 % 4) else s

/-- What an uncorrectable word w does in its unit: the poison bit, the unit's alarm with the site, and its rules (R522). -/
def plBad (s : State) (m : PlMem) (w : Nat) : State :=
  match m with
  | .ddr => ddrBad s w
  | .neve => neveBad s w
  | .imem f => imemBad s f w
  | .dmem f => noteErrors (modFmem s f fun x => { x with poison := addOnce x.poison w }) f 1 0
  | .coef l => coefUe s l w
  | .ctx l => histUe s l w
  | .xp => xpFault s w
  | .bus => busFault s w
  | .lkp k mac q => lkpWordBad s k mac q w
  | .flow => match flowOf s w with
    | some x => alarm (setFlow s w (some { x with poison := true })) 0x38 (objNo 0x0C w) 0 (siteStage (180 + x.bank) 0 x.idx)
    | none => s
  | .rime => match (slotOf s w).home with
    | some r => if (slotOf s w).st = .empty then s else slotFault s r w true (siteStage (96 + 8 * r) 0 (hotEntry s w))
    | none => s
  | .ring => resolveRewind (modRing s w fun r => { r with bodyUe := true }) w

/-- Words of a Lockkeeper bank's macro: pounds, group queues and the injection buffer stand in bank 2r; the caches are of the sizes
R170 gives (R170, R172). -/
def lkpWords (k mac : Nat) : Nat :=
  if mac = 0 then (if k % 2 = 0 then 32768 else 0) else if mac = 1 then (if k % 2 = 0 then 8192 else 0)
  else if mac = 2 then 8192 else if mac = 3 then 256 else if mac = 4 then (if k % 2 = 0 then 64 else 0) else 0

/-- A memory, and a word of it, that exist. -/
def plExists (s : State) (m : PlMem) (w : Nat) : Bool :=
  match m with
  | .ddr => decide (8 * w < ddrUsable s)
  | .neve => decide (w < 4194304)
  | .imem f => decide (f < 96) && decide (w < 8192)
  | .dmem f => decide (f < 96) && decide (w < 32768)
  | .coef l => decide (l < 16) && decide (w < 2048)
  | .ctx l => decide (l < 16) && decide (w < 131072)
  | .xp => decide (w < 32768) | .bus => decide (w < 4096)
  | .lkp k mac q => decide (k < 8) && decide (q < 4) && decide (w < lkpWords k mac)
  | .flow => decide (w < 65536)
  | .rime => decide (w < 16384) | .ring => decide (w < 1024)

/-- PLOUGH_READ (R521, R522): Plough reads word w of a memory (a word, or a crosspoint, bus, entry, slot or ring by
number); changed: the word has been written since, so a correction is discarded. A corrected bit is recorded with its site, and one of Névé counts as at
any read (R22, R43; log 160). -/
def execPloughRead (m : PlMem) (w : Nat) (e : Ecc) (changed : Bool) (s : State) : Out :=
  if !bgRuns s || !plExists s m w then .next s
  else match e with
    | .ok => .next s
    | .corrected bit =>
      let s := if m = .neve then modFab s fun f => { f with neveCe := sat32 (f.neveCe + 1) } else s
      if changed then fin s
      else fin (hwFault (modSense s fun x => { x with plgCe := tabMod 0 x.plgCe m.no (· + 1) }) 0 (plBit s m w bit))
    | .bad => fin (plBad (modSense s fun x => { x with plgUe := tabMod 0 x.plgUe m.no (· + 1) }) m w)

/-! ## Sounding (R523, R524) -/

/-- SOUNDING_RETRAIN (R523): channel c is retrained at its PHY sensor's present temperature; a failure keeps the working
settings, and the third in a row raises DDR_RETRAIN_FAIL. -/
def execSoundingRetrain (c : Nat) (ok : Bool) (s : State) : Out :=
  if !bgRuns s || !s.fab.live.any (fun l => l.1 == c) then .next s
  else if ok then
    fin (modSense s fun x => { x with sndFail := tabSet 0 x.sndFail c 0,
                                      sndTemp := tabSet 0 x.sndTemp c (tabGet 0 x.temps (4 * (c / 2) + 3)) })
  else
    let n := tabGet 0 s.ice.sense.sndFail c + 1
    let s := modSense s fun x => { x with sndFail := tabSet 0 x.sndFail c n }
    fin (if n = 3 then alarm s 0x15 0 (BitVec.ofNat 64 c) (siteIsland (222 + c)) else s)

/-- SOUNDING_CALIBRATE (R524): the sensors and monitors are calibrated against their trims. -/
def execSoundingCalibrate (s : State) : Out :=
  if !bgRuns s then .next s else fin (modSense s fun x => { x with sndCal := x.sndCal + 1 })

/-! ## Drift (R528) -/

/-- Lockkeeper depths by reach: pounds, group queues, delay lists; then the chamber queues. -/
def lkpDepths (s : State) : List Nat :=
  ((nums 4).map fun r => [poundDepth s r, groupDepth s r, towDepth s r]).flatten ++ [(chqAll s).length]

/-- The snapshot taken now. -/
def snapNow (s : State) : Snapshot :=
  let x := s.ice.sense
  { seq := s.ice.snapSeq, time := nowNs s, temps := (nums 24).map (tabGet 0 x.temps), volts := (nums 16).map (tabGet 0 x.volts),
    vAbl := x.vAbl, quay := ((nums 4).map fun p => (nums 24).map (tabGet 0 (portOf s p).ctr)).flatten, lkp := lkpDepths s,
    probes := (s.ice.probes.filter (·.2.en)).map fun p => (p.1, p.2.min, p.2.max, p.2.cnt), neg := negObject s }

/-- An element of a telemetry packet (R528). -/
def tlmElem (ty : Nat) (l : List Byte) : List Byte := leBytes ty 2 ++ leBytes l.length 2 ++ l

/-- The elements of a snapshot's packet; margin is the smallest margin to 98 % in ps (log 121). -/
def tlmElems (x : Snapshot) (margin : Nat) : List (List Byte) :=
  [tlmElem 1 ((x.temps.map fun t => leBytes (BitVec.ofInt 16 t).toNat 2).flatten),
   tlmElem 2 ((x.volts.map fun v => leBytes v 2).flatten), tlmElem 3 (leBytes x.vAbl 4 ++ leBytes margin 4)]
  ++ ((nums 4).map fun p => tlmElem 4 (((nums 24).map fun k => leBytes (x.quay.getD (24 * p + k) 0) 8).flatten))
  ++ (x.probes.map fun p => tlmElem 5 (leBytes (BitVec.ofInt 32 p.2.1).toNat 4 ++ leBytes (BitVec.ofInt 32 p.2.2.1).toNat 4
        ++ leBytes p.2.2.2 8))
  ++ [tlmElem 6 x.neg]

/-- Elements parted at their boundaries into packets of at most mtu bytes. -/
def tlmSplit (mtu : Nat) : List Byte → List (List Byte) → List (List Byte)
  | acc, [] => if acc.isEmpty then [] else [acc]
  | acc, e :: t =>
    if acc.isEmpty || decide (32 + acc.length + e.length ≤ mtu) then tlmSplit mtu (acc ++ e) t
    else acc :: tlmSplit mtu e t

/-- The telemetry packets of a snapshot (R528). -/
def tlmPackets (s : State) (x : Snapshot) (margin : Nat) : List (List Byte) :=
  (tlmSplit Config.mgmtMtu [] (tlmElems x margin)).map fun l =>
    leBytes 0x4C544647 4 ++ leBytes 1 2 ++ leBytes (32 + l.length) 2 ++ leBytes x.seq 8 ++ leBytes x.time 8
      ++ leBytes s.tdm.ident 8 ++ l

/-- DRIFT_SNAPSHOT (R528): a snapshot is kept, the last 60 stay, and it leaves as telemetry. -/
def execDriftSnapshot (margin : Nat) (s : State) : Out :=
  if !bgRuns s then .next s
  else
    let x := snapNow s
    let k := s.ice.snaps ++ [x]
    let s := modIce s fun i => { i with snaps := k.drop (k.length - 60), snapSeq := i.snapSeq + 1 }
    if !s.ice.params.tlmEn then fin s
    else
      let ps := tlmPackets s x margin
      fin (modIce s fun i => { i with tlm := ps, tlmSent := i.tlmSent + ps.length })

end Sys2Proof.Machine
end

