-- ==== Sys2Proof/Machine/Flash.lean ====
section
/-! DEFINITION. The exits' seconds, flash writes under the hold-up check, firmware update, keys and the Icehouse commands
(chapter 17). -/

namespace Sys2Proof.Machine

/-! ## The whole second (R534, R537, R538) -/

/-- ALARM_SECOND (R534): every pending record with a count is sent, and one that stayed at zero stops being pending. -/
def execAlarmSecond (s : State) : Out :=
  if !iceUp s then .next s else fin (modLanes s fun l => l.each LaneExit.second)

/-- A SUPPRESSED record of n records, first and last (R536). -/
def suppressed (s : State) (n first last : Nat) : LogRec :=
  { code := 1, sev := 5, object := 0, time := nowNs s, data := leBytes n 4 ++ leBytes first 8 ++ leBytes last 8 }

/-- An exit that skipped records sends a SUPPRESSED record for itself (R538). -/
def LaneExit.tell (e : LaneExit) (s : State) : LaneExit :=
  if e.skipped = 0 then e
  else ({ e with skipped := 0, skFirst := 0, skLast := 0 }).log (suppressed s e.skipped e.skFirst e.skLast) (nowNs s)

/-- LOG_SECOND (R537, R538): suppressed records are told of, without a token. -/
def execLogSecond (s : State) : Out :=
  if !iceUp s then .next s
  else
    let l := s.ice.lanes
    let s := if l.supp = 0 then s
      else queueLog (modLanes s fun l => { l with supp := 0, suppFirst := 0, suppLast := 0 }) (suppressed s l.supp l.suppFirst l.suppLast)
    fin (modLanes s fun l => l.each fun e => e.tell s)

/-! ## Log sectors (R527, R540-R542) -/

/-- First sector of region r, and how many it has (R540). -/
def regionAt (r : Nat) : Nat × Nat :=
  match r with
  | 0 => (0, 1024)
  | 1 => (1024, 10240)
  | _ => (11264, 4096)

/-- The spare that serves a retired sector, followed to its end (spares retire too). -/
def spareOf (l : List (Nat × Nat)) (sec : Nat) : Nat :=
  match l with
  | [] => sec
  | (a, b) :: t => spareOf t (if a = sec then b else sec)

/-- Sectors in which region r's writes are placed. -/
def regionSectors (s : State) (r : Nat) : List Nat :=
  (numsFrom (regionAt r).1 (regionAt r).2).map (spareOf s.ice.flash.retired)

/-- The least-erased of some sectors, the first of equals (R527). -/
def leastErased (s : State) (l : List Nat) : Nat :=
  (l.foldl (fun b k =>
    let n := tabGet 0 s.ice.flash.erases k
    match b with
    | some (_, m) => if n < m then some (k, n) else b
    | none => some (k, n)) (none : Option (Nat × Nat))).elim 0 (·.1)

/-- Records that fit in n bytes, from the front. -/
def fitRecs : Nat → List (List Byte) → List (List Byte)
  | _, [] => []
  | n, r :: t => if r.length ≤ n then r :: fitRecs (n - r.length) t else []

/-- A batch after k OUT_FULL results: halved each time, until it always fits (R542); whether a result was left at that
limit. -/
def halved (limit : Nat) : Nat → List (List Byte) → List (List Byte) × Bool
  | 0, l => (l, false)
  | k + 1, l =>
    if l.flatten.length ≤ limit ∨ l.length ≤ 1 then (l, true) else halved limit k (l.take (l.length / 2))

/-- LOG_FLUSH (R541, R542): region r's batch goes to a sector, after k OUT_FULL results of the compression. -/
def execLogFlush (r k : Nat) (s : State) : Out :=
  let b := tabGet Batch.reset s.ice.flash.batches r
  let waits := s.ice.flash.queue.any fun o => match o.job with | .sector q .. => q == r | _ => false
  if !bgRuns s || decide (3 ≤ r) || b.recs.isEmpty || waits then .next s
  else
    let h := halved (if s.ice.archive.isSome then 4059 else 4041) k (fitRecs 12288 b.recs)
    let comp := !(s.dev.compatQ48 && h.2)
    fin (flashAsk s 0 (.sector r (leastErased s (regionSectors s r)) h.1.length comp s.ice.archive))

/-! ## Flash operations (R544, R545) -/

/-- HOLDUP_RECHECK (R544): 10 ms have passed; HOLDUP_SENSE reads v. -/
def execHoldupRecheck (v : Nat) (s : State) : Out :=
  if !iceUp s || s.ice.flash.busy || s.ice.flash.queue.isEmpty then .next s
  else fin (flashStart (modSense s fun x => { x with holdup := v }))

/-- Drop the operations of firmware writes. -/
def dropFw (q : List FlashOp) : List FlashOp := q.filter fun o => match o.job with | .fw _ => false | _ => true

/-- A second failure of the head operation: FLASH_FAIL, counted; a log sector's write begins again on a spare, another
write begins again, and an update ends (R545, R546; log 125). -/
def flashFail (s : State) (o : FlashOp) : State :=
  let s := alarm (modFlash s fun f => { f with fails := f.fails + 1 }) 0xA iceObj 0 noSite
  match o.job with
  | .sector r sec n comp enc =>
    let f := s.ice.flash
    if 1024 ≤ f.spare then modFlash s fun f => { f with queue := f.queue.dropWhile fun x => x.job == o.job }
    else
      let sp := 15360 + f.spare
      modFlash s fun f =>
        { f with spare := f.spare + 1, retired := f.retired ++ [(sec, sp)],
                 queue := flashPlan 0 (.sector r sp n comp enc) ++ f.queue.dropWhile fun x => x.job == o.job }
  | .fw k =>
    let s := modFlash s fun f => { f with queue := dropFw f.queue }
    let s := match s.nx.long.find? fun l => l.hdr.opcode == 0x0D05 with
      | some l => endLong s l 0x0603 0 []
      | none => s
    flashAsk s 0 (.fwVoid k)
  | _ => modFlash s fun f => { f with queue := flashAgain 0 f.queue }

/-- FLASH_OP_DONE (R545): the operation in progress ends; ok: it verifies. A failure is retried once. -/
def execFlashOpDone (ok : Bool) (s : State) : Out :=
  if s.dev.inReset || !s.dev.iceRuns || !s.ice.flash.busy then .next s
  else if ok then fin (flashStart (flashOpOk s))
  else match s.ice.flash.queue with
    | [] => .next s
    | o :: t =>
      let s := modFlash s fun f => { f with busy := false }
      if !o.retry then fin (flashStart (modFlash s fun f => { f with queue := { o with retry := true } :: t }))
      else fin (flashStart (flashFail s o))

/-- PWRFAIL_N_FALL (R545): no operation starts while it is low; PWRFAIL leaves at once. -/
def execPwrfailNFall (s : State) : Out :=
  if s.ice.flash.pwrLow then .next s
  else
    let s := modFlash s fun f => { f with pwrLow := true }
    fin (if s.dev.inReset then s else alarm s 8 iceObj 0 noSite)

/-- PWRFAIL_N_RISE (R545): it has been high for 100 ms; a log sector's write that had begun begins again. -/
def execPwrfailNRise (s : State) : Out :=
  if !s.ice.flash.pwrLow then .next s
  else
    let s := modFlash s fun f => { f with pwrLow := false }
    let again := match s.ice.flash.queue with | o :: _ => (match o.job with | .sector .. => !s.ice.flash.busy | _ => false) | [] => false
    let s := if again then modFlash s fun f => { f with queue := flashAgain 0 f.queue } else s
    fin (if iceUp s then flashStart s else s)

/-! ## NX_ICE_SENSORS and NX_ICE_LOG_READ (R515, R528, R549) -/

/-- The values of a snapshot (R528, R611). -/
def snapVals (x : Snapshot) : List RVal :=
  [.ctr x.seq, .wide x.time] ++ (x.temps.map .val) ++ (x.volts.map fun v => nv v) ++ [nv x.vAbl] ++ (x.quay.map .ctr)
    ++ (x.lkp.map fun n => nv n) ++ (x.probes.map fun p => [nv p.1, .val p.2.1, .val p.2.2.1, .ctr p.2.2.2]).flatten
    ++ [.blob x.neg 216]

/-- The sensors, the Ablation state and the hold-up state (R515; log 126). -/
def sensorVals (s : State) : List RVal :=
  let x := s.ice.sense
  ((nums 24).map fun i => .val (tabGet 0 x.temps i)) ++ ((nums 16).map fun i => nv (tabGet 0 x.volts i))
    ++ ((nums 212).map fun i => nv (tabGet 0 x.periods i)) ++ [nv x.holdup]
    ++ [nv x.vrMode, nv x.vBase, nv x.vAbl, nv x.step, .flag x.ablLimit]
    ++ [nv (x.holdup * s.ice.hold.hdiv / 1000), .flag s.ice.flash.pwrLow, nv s.ice.flash.queue.length, .ctr s.ice.flash.fails]

/-- NX_ICE_SENSORS (R515, R528): the latest values, or snapshot n, 0 the newest; one not kept is refused with 0x01D0. -/
def nxIceSensors (snap : Option Nat) (_ : NxHdr) (s : State) : NxRes :=
  match snap with
  | none => .done s (replyOf [sensorVals s]) 0
  | some n => match s.ice.snaps.reverse[n]? with
    | some x => .done s (replyOf [snapVals x]) 0
    | none => no 0x01D0
/-- The catalogue row of NxIceSensors. -/
def spNxIceSensors : NxSpec :=
  { opcode := 0x0D01, cls := 0x11, states := [.selftest, .ready, .service, .recovery, .halted], audit := false }
def execNxIceSensors (b : Nat) (f : Fmt) (snap : Option Nat) (s : State) : Out :=
  runNx spNxIceSensors b f (.nxIceSensors b f snap) (nxIceSensors snap) s

/-- Every record kept of a kind with its sequence: regions 0 to 2 of the flash, 3 the trace ring. A sector encrypted through
a slot that is not LOADED cannot be read (R542). -/
def keptRecs (s : State) (kind : Nat) : List (Nat × List Byte) :=
  if kind = 3 then s.ice.lanes.traceRing.map fun r => (r.seq, traceBytes r)
  else
    let ok (x : Sector) : Bool := x.region == kind && x.enc.all fun k => (slotOf s k).st == .loaded
    (s.ice.flash.sectors.filterMap fun e => match e.2 with
      | some x => if ok x then some ((nums x.recs.length).zip x.recs |>.map fun p => (x.first + p.1, p.2)) else none
      | none => none).flatten

/-- Insert by sequence. -/
def seqInsert (r : Nat × List Byte) : List (Nat × List Byte) → List (Nat × List Byte)
  | [] => [r]
  | x :: t => if r.1 ≤ x.1 then r :: x :: t else x :: seqInsert r t

/-- The first count records from sequence first on. -/
def logRecs (s : State) (kind first count : Nat) : List (List Byte) :=
  let l := (keptRecs s kind).filter fun r => decide (first ≤ r.1)
  ((l.foldr seqInsert []).take count).map (·.2)

/-- NX_ICE_LOG_READ (R462, R549): whole records by DMA, as a long command (log 127). -/
def nxIceLogRead (kind first count : Nat) (h : NxHdr) (s : State) : NxRes :=
  let n := (logRecs s kind first count).flatten.length
  if !h.dma then no 0x0102
  else checked [(decide (kind < 4), 0x01D0, h.object)]
    (if h.outLen < n then .refuse 0x0301 noObj n else .long s (.logRead kind first count))
/-- The catalogue row of NxIceLogRead. -/
def spNxIceLogRead : NxSpec :=
  { opcode := 0x0D02, cls := 0x11, states := [.selftest, .ready, .service, .recovery, .halted], audit := false }
def execNxIceLogRead (b : Nat) (f : Fmt) (kind first count : Nat) (s : State) : Out :=
  runNx spNxIceLogRead b f (.nxIceLogRead b f kind first count) (nxIceLogRead kind first count) s

/-- Its end: what is kept now, as far as the buffer holds whole records; DETAIL counts them. -/
def logReadEnd (s : State) (l : LongCmd) (kind first count : Nat) : State :=
  let rs := fitRecs l.hdr.outLen (logRecs s kind first count)
  endLong s l 0 rs.length rs.flatten

/-! ## NX_ICE_LOG_SET and NX_ICE_HOLDUP (R544, R549, R550) -/

/-- A destination; a port not given is the exit's default (R549). -/
def destOf (port : Nat) (d : Option (BitVec 128 × Option Nat)) : Option (BitVec 128 × Nat) :=
  d.map fun x => (x.1, x.2.getD port)

/-- Apply one parameter; ARCHIVE_SLOT is none of the stored ones. -/
def LogParams.set (p : LogParams) : LogSet → LogParams
  | .ringEn b => { p with ringEn := b } | .syslogEn b => { p with syslogEn := b } | .tlmEn b => { p with tlmEn := b }
  | .flashEn b => { p with flashEn := b } | .sevRing n => { p with sevRing := n } | .sevSyslog n => { p with sevSyslog := n }
  | .sevFlash n => { p with sevFlash := n } | .mgmtAddr a => { p with mgmtAddr := a }
  | .syslogDest d => { p with syslogDest := destOf 514 d } | .tlmDest d => { p with tlmDest := destOf 4711 d }
  | .drift n => { p with drift := n }
  | .traceMask n => { p with traceMask := n } | .traceFlash b => { p with traceFlash := b } | .flush n => { p with flush := n }
  | .archive _ => p

/-- A value within its table. -/
def LogSet.inRange : LogSet → Bool
  | .sevRing n | .sevSyslog n | .sevFlash n => decide (2 ≤ n) && decide (n ≤ 7)
  | .mgmtAddr a => a.all fun x => if x.v6 then decide (x.prefix_ ≤ 128)
      else decide (x.prefix_ ≤ 32) && decide (x.addr.toNat < 2 ^ 32) && decide (x.gateway.toNat < 2 ^ 32)
  | .syslogDest d | .tlmDest d => d.all fun x => x.2.all (decide <| · < 65536)
  | .drift n => decide (100 ≤ n) && decide (n ≤ 60000)
  | .traceMask n => decide (n < 32)
  | .flush n => decide (1 ≤ n) && decide (n ≤ 60)
  | .archive k => k.all fun k => decide (k < 16384)
  | _ => true

/-- ARCHIVE_SLOT after the command. -/
def archiveAfter (old : Option Nat) (l : List LogSet) : Option Nat :=
  l.foldl (fun a x => match x with | .archive k => k | _ => a) old

/-- ARCHIVE_SLOT is among the parameters. -/
def namesArchive (l : List LogSet) : Bool := l.any fun x => match x with | .archive (some _) => true | _ => false

/-- The exit has an address and a destination. -/
def exitAddr (en : Bool) (p : LogParams) (d : Option (BitVec 128 × Nat)) : Bool := !en || (p.mgmtAddr.isSome && d.isSome)

/-- NX_ICE_LOG_SET (R549, R550). -/
def nxIceLogSet (l : List LogSet) (h : NxHdr) (s : State) : NxRes :=
  let p := l.foldl LogParams.set s.ice.params
  let a := archiveAfter s.ice.archive l
  let aOk := a.all fun k => (slotOf s k).st == .loaded && ((slotOf s k).mode == 7 || (slotOf s k).mode == 8)
  checked [(l.all LogSet.inRange, 0x01D0, h.object),
           (exitAddr p.syslogEn p p.syslogDest && exitAddr p.tlmEn p p.tlmDest, 0x01D1, h.object), (aOk, 0x01D2, h.object)]
    (ok (flashAsk (modIce s fun i => { i with params := p, archive := a, lanes := setLanes p i.lanes }) 0 (.config p)))
/-- The catalogue row of NxIceLogSet. -/
def spNxIceLogSet (l : List LogSet) : NxSpec :=
  { opcode := 0x0D03, cls := 0x11, states := rs, rime := namesArchive l }
def execNxIceLogSet (b : Nat) (f : Fmt) (l : List LogSet) (s : State) : Out :=
  runNx (spNxIceLogSet l) b f (.nxIceLogSet b f l) (nxIceLogSet l) s

/-- The hold-up parameters lie within R544. -/
def HoldParams.ok (h : HoldParams) : Bool :=
  let within (lo hi n : Nat) : Bool := decide (lo ≤ n) && decide (n ≤ hi)
  within 1000 100000000 h.c && within 10000 300000 h.vmin && within 1000 32000 h.hdiv && within 1000 10000 h.margin
    && within 50 10000 h.pHold && within 100 10000000 h.tPage && within 100 10000000 h.tErase4 && within 100 10000000 h.tErase64

/-- NX_ICE_HOLDUP (R544, R550). -/
def nxIceHoldup (p : HoldParams) (h : NxHdr) (s : State) : NxRes :=
  checked [(p.ok, 0x01D4, h.object)] (ok (flashAsk (modIce s fun i => { i with hold := p }) 0 (.hold p)))
/-- The catalogue row of NxIceHoldup. -/
def spNxIceHoldup : NxSpec :=
  { opcode := 0x0D04, cls := 0x11, states := [.ready] }
def execNxIceHoldup (b : Nat) (f : Fmt) (p : HoldParams) (s : State) : Out :=
  runNx spNxIceHoldup b f (.nxIceHoldup b f p) (nxIceHoldup p) s

/-! ## Firmware and keys (R546-R548) -/

/-- NX_FW_UPDATE (R546, R550): an image of size bytes for the slot the device does not run from; ice: it is of the Icehouse
type; v: its security version. A long command (log 128). -/
def nxFwUpdate (ice : Bool) (size v : Nat) (h : NxHdr) (s : State) : NxRes :=
  let k := 1 - s.ice.slot
  checked [(ice && decide (size ≤ 67108864), 0x01D7, h.object), (decide (s.ice.stored.otpFloor ≤ v), 0x0413, h.object)]
    (let s := modFlash (modStored_ s fun x => { x with verified := x.verified.filter (· != k) }) fun f => { f with fwDone := 0 }
     .long (flashAsk s (ceilDiv size 65536) (.fw k)) (.fwUpdate k v))
/-- The catalogue row of NxFwUpdate. -/
def spNxFwUpdate : NxSpec :=
  { opcode := 0x0D05, cls := 0x11, states := rs }
def execNxFwUpdate (b : Nat) (f : Fmt) (ice : Bool) (size v : Nat) (s : State) : Out :=
  runNx spNxFwUpdate b f (.nxFwUpdate b f ice size v) (nxFwUpdate ice size v) s

/-- The slot is written and verified with result c: VERIFIED, or its first block is erased (R546). None while blocks are
still to be written. -/
def fwEnd (s : State) (l : LongCmd) (k v c : Nat) : Option State :=
  if s.ice.flash.queue.any (fun o => match o.job with | .fw _ => true | _ => false) && c != 0x0510 then none
  else if c = 0 then
    some (endLong (modStored_ s fun x => { x with verified := addOnce x.verified k, secVer := x.secVer.set k v }) l 0 0 [])
  else if [0x0411, 0x0412, 0x0510].contains c then
    let s := modFlash s fun f => { f with busy := f.busy && !(f.queue.head?.any fun o => match o.job with | .fw _ => true | _ => false),
                                          queue := dropFw f.queue }
    some (endLong (flashAsk s 0 (.fwVoid k)) l c s.ice.flash.fwDone [])
  else none

/-- NX_FW_ACTIVATE (R547, R550): one boot-record write; 0x0601 where the hold-up check defers it. -/
def nxFwActivate (h : NxHdr) (s : State) : NxRes :=
  match s.ice.stored.verified with
  | [] => .refuse 0x01D8 h.object 0
  | k :: _ =>
    if !holdupOk s .page then no 0x0601
    else
      let s := modStored_ s fun x => { x with active := k, tries := 0, verified := x.verified.filter (· != k), fresh := true }
      let boot (o : FlashOp) : Bool := match o.job with | .boot _ _ => true | _ => false
      ok (modFlash s fun f => { f with busy := f.busy && !(f.queue.head?.any boot), queue := f.queue.filter fun o => !boot o })
/-- Its catalogue row. -/
def fwActivateSpec : NxSpec := { opcode := 0x0D06, cls := 0x11, states := rs }
/-- A deferred write raises HOLDUP_LOW as every deferral does (R544). -/
def execNxFwActivate (b : Nat) (f : Fmt) (s : State) : Out :=
  let late := nxAccepted fwActivateSpec b f s && !s.ice.stored.verified.isEmpty && !holdupOk s .page
  runNx fwActivateSpec b f (.nxFwActivate b f) nxFwActivate (if late then holdupLow s .page else s)

/-- NX_KEY_ENROLL (R548, R550): a certificate; good: it verifies for this device. A key goes to OTP, or is revoked. -/
def nxKeyEnroll (good : Bool) (c : KeyCert) (h : NxHdr) (s : State) : NxRes :=
  let ks := s.ice.stored.keys
  match c with
  | .enroll lo hi types =>
    checked [(good, 0x0411, h.object), (decide (0x8000 ≤ lo) && decide (lo ≤ hi) && decide (hi ≤ 0xFFFF), 0x01D0, h.object),
             (decide (ks.length < 4), 0x0414, h.object)]
      (ok (modStored_ s fun x => { x with keys := x.keys ++ [{ lo := lo, hi := hi, types := types, revoked := false }] }))
  | .revoke k =>
    checked [(good, 0x0411, h.object), (decide (k < ks.length), 0x01D0, h.object)]
      (ok (modStored_ s fun x => { x with keys := x.keys.modify k fun q => { q with revoked := true } }))
/-- The catalogue row of NxKeyEnroll. -/
def spNxKeyEnroll : NxSpec :=
  { opcode := 0x0D07, cls := 0x11, states := [.ready] }
def execNxKeyEnroll (b : Nat) (f : Fmt) (good : Bool) (c : KeyCert) (s : State) : Out :=
  runNx spNxKeyEnroll b f (.nxKeyEnroll b f good c) (nxKeyEnroll good c) s

end Sys2Proof.Machine
end

