-- ==== Sys2Proof/Machine/Lport.lean ====
section
/-! DEFINITION. The local TDM/I2S ports: their frames, format detection and commands (chapters 02, 07, 16). -/

namespace Sys2Proof.Machine

/-- Change local port n. -/
def modLport (s : State) (n : Nat) (f : Lport → Lport) : State :=
  modIce s fun i => { i with lports := tabMod Lport.reset i.lports n f }

/-! ## Frames on their way to the Basins (R61, R213) -/

/-- Flume items of a frame of k slots, two slots a word. -/
def tdmItems (k : Nat) : Nat := (k + 1) / 2

/-- The items of a frame. -/
def tdmWords : List Word → List FItem
  | [] => []
  | [a] => [{ words := [⟨BitVec.ofNat 64 a.toNat, false⟩], side := 0 }]
  | a :: b :: t => { words := [⟨BitVec.ofNat 64 (a.toNat + b.toNat * 2 ^ 32), false⟩], side := 0 } :: tdmWords t

/-- The slot words two-slot words spell, with their poison. -/
def tdmSlots (l : List (BitVec 64 × Bool)) : List (Word × Bool) :=
  (l.map fun w => [(BitVec.ofNat 32 w.1.toNat, w.2), (BitVec.ofNat 32 (w.1.toNat / 2 ^ 32), w.2)]).flatten

/-- Frames of a position of 125 µs. -/
def Lport.perPos (x : Lport) : Nat := max 1 ((x.fmt.elim 8 (·.2)) / 8)

/-- A whole position k of port n goes to the manager of the channel that takes slot j: its samples as 32-bit words
(R213; log 129). -/
def tdmPos (s : State) (n k : Nat) (frames : List (List (Word × Bool))) (c : Nat) (ch : Chan) : State :=
  match ch.core.rxSrc with
  | .tdm p j =>
    if p ≠ n ∨ !ch.st.live then s
    else
      let ws := frames.map fun f => f.getD j (0, false)
      let pk : Pkt :=
        { seq := k % 65536, ts := k * tsStep s ch % 2 ^ 32, ssrc := 0, marker := false, pt := ch.core.pt, rxTime := nowNs s,
          legB := false, frame := none, poison := ws.any (·.2), head := [],
          payload := (ws.map fun w => leBytes w.1.toNat 4).flatten, pad := 0 }
      postArr s [(mgrOf s c, [(c, pk)])]
  | _ => s

/-- Channels that moving transmit audio take slots of port n as their source capture their sample of frame num; a poisoned word
counts as a lost one (R69, R77; log 170). -/
def tdmCapture (s : State) (n num : Nat) (ws : List (Word × Bool)) : State :=
  s.media.chans.foldl (fun s p =>
    match p.2.core.txSrc with
    | .tdm q j =>
      let w := ws.getD j (0, true)
      if q ≠ n ∨ p.2.starting ∨ (p.2.st ≠ .running ∧ p.2.st ≠ .draining) then s
      else modDsp s p.1 fun d =>
        { d with cap := if w.2 then d.cap else d.cap ++ [(num, w.1.toInt)], capAt := some (d.capAt.getD num) }
    | _ => s) s

/-- A frame has been read whole: its samples are captured, and it joins its position, which goes on once complete; a position with a
frame missing is never complete. -/
def tdmFrameIn (s : State) (n num : Nat) (ws : List (Word × Bool)) : State :=
  let s := tdmCapture s n num ws
  let x := lportOf s n
  let r := x.perPos
  let old := x.pos.filter fun p => p.1 / r == num / r
  let pos := old ++ [(num, ws)]
  if pos.length < r then modLport s n fun x => { x with pos := pos }
  else
    let s := modLport s n fun x => { x with pos := [] }
    s.media.chans.foldl (fun s c => tdmPos s n (num / r) (pos.map (·.2)) c.1 c.2) s

/-- An item of port n's receive flume has been read. -/
def tdmTake (s : State) (n : Nat) (i : FItem) : State :=
  let x := lportOf s n
  let asm := x.asm ++ i.words.map fun w => (w.data, w.poison)
  match x.inflight with
  | [] => s
  | (num, k) :: t =>
    if asm.length < tdmItems k then modLport s n fun x => { x with asm := asm }
    else tdmFrameIn (modLport s n fun x => { x with asm := [], inflight := t }) n num ((tdmSlots asm).take k)

/-! ## Samples on their way out (R68, R254) -/

/-- A word read from port p's transmit flume: a sample with its slot and its number; a poisoned one is dropped (log 170). -/
def tdmOut (s : State) (p : Nat) (i : FItem) : State :=
  i.words.foldl (fun s w =>
    let v := w.data.toNat
    if w.poison then s
    else modLport s p fun x =>
      { x with out := x.out ++ [(v / 2 ^ 32 % 64, v / 2 ^ 38, BitVec.ofNat 32 v)] }) s

/-- The sample slot j sends with number k: the one due, of a channel that is still live; else digital silence (R79, R254). -/
def tdmDue (s : State) (p j k : Nat) : Word :=
  let mine (ch : Chan) : Bool := ch.st.live && (ch.core.rxSink == .tdm p j || ch.core.txSink == .tdm p j)
  if s.media.chans.any fun c => mine c.2 then
    (((lportOf s p).out.find? fun o => o.1 == j && o.2.1 == k).map fun o => o.2.2).getD 0
  else 0

/-- Port p sends a frame of n slots, each the sample due now; samples past their time are dropped. -/
def tdmSend (s : State) (p n r : Nat) : State :=
  let k := ticksOf (r * 1000) s.tb.sel % 2 ^ 26
  let later (m : Nat) : Bool := decide (0 < (m + 2 ^ 26 - k) % 2 ^ 26) && decide ((m + 2 ^ 26 - k) % 2 ^ 26 < 2 ^ 25)
  let ws := (nums n).map fun j => tdmDue s p j k
  modLport s p fun x => { x with tx := x.tx + 1, sent := ws, out := x.out.filter fun o => later o.2.1 }

/-! ## Format detection (R491, R506) -/

/-- The width a port uses: AUTO means 32 (R505). -/
def Lport.bits (x : Lport) : Nat := if x.width = 0 then 32 else x.width

/-- The rate nearest a measured frame rate in mHz, within 1,000 ppm. -/
def rateNear (m : Nat) : Option Nat :=
  ([8, 16, 48, 96]).find? fun k => decide (k * 999000 ≤ m) && decide (m ≤ k * 1001000)

/-- Framing found from a frame of b bit clocks with the sync high for w: 0 I2S, 1 LJ, 2 PULSE. -/
def framing (x : Lport) (b w : Nat) : Option Nat :=
  if x.format ≠ 0 then some (x.format - 1)
  else if 2 * w ≤ b + 1 ∧ b ≤ 2 * w + 1 then some 0
  else if 1 ≤ w ∧ w ≤ 4 then some 2 else none

/-- The format the measure gives: framing, slots, rate; none where detection fails (R506; log 130). -/
def detect (x : Lport) (b w m : Nat) : Option (Nat × Nat × Nat) :=
  if b % x.bits ≠ 0 then none
  else
    let k := b / x.bits
    match framing x b w, rateNear m with
    | some f, some r =>
      if (x.slots ≠ 0 ∧ x.slots ≠ k) ∨ (x.rate ≠ 0 ∧ x.rate ≠ r) ∨ k < 2 ∨ 64 < k ∨ (f < 2 ∧ k ≠ 2) then none
      else some (f, k, r)
    | _, _ => none

/-- MODE of a local port's entry (R491). -/
def lportMode (x : Lport) (f k r : Nat) : Nat :=
  let rc := if r = 8 then 0 else if r = 16 then 1 else if r = 48 then 2 else 3
  f + 4 * (k - 1) + 256 * ((x.bits - 16) / 8) + 1024 * rc + 4096 * b2n x.master

/-- One more frame is measured: 64 in a row that agree within one bit clock give the format, or detection fails and starts
again. -/
def tdmMeasure (s : State) (n b w m : Nat) : State :=
  let x := lportOf s n
  let near (u v : Nat) : Bool := decide (u ≤ v + 1) && decide (v ≤ u + 1)
  let agrees := x.meas.any fun q => near q.1 b && near q.2.1 w
  let q := if agrees then x.meas.getD (b, w, m) else (b, w, m)
  let k := if agrees then x.agree + 1 else 1
  if k < 64 then modLport s n fun x => { x with agree := k, meas := some q }
  else
    let s := modLport s n fun x => { x with agree := 0, meas := none }
    match detect x q.1 q.2.1 m with
    | some (f, k, r) => negSet (modLport s n fun x => { x with found := some (f, k, r) }) (18 + n) .full 0 (lportMode x f k r)
    | none => negSet (modLport s n fun x => { x with restarts := x.restarts + 1 }) (18 + n) .failed 0x0861 0

/-- TDM_FRAME (R61, R213, R506): a frame of port n with its slot words, b bit clocks long with the sync high for w, at a
frame rate of m mHz by the media clock. A slave port without a format measures it; else the frame enters flume 426 + n
whole, or is dropped and counted, and the port sends the samples due (R254). -/
def execTdmFrame (n : Nat) (ws : List Word) (b w m : Nat) (s : State) : Out :=
  let x := lportOf s n
  if s.dev.inReset || decide (8 ≤ n) || !x.en then .next s
  else
    match x.fmt with
    | none => fin (if iceUp s then tdmMeasure s n b w m else s)
    | some (k, r) =>
      let s := if s.dev.devState = .halted then s else tdmSend s n k r
      let s := modLport s n fun x => { x with rx := x.rx + 1, num := x.num + 1 }
      let i := 426 + n
      match (flumeOf s i).pushUnit (flumeB i) (tdmWords ((ws ++ List.replicate (k - ws.length) 0).take k)) with
      | some f => fin (modLport (setFlume s i f) n fun y => { y with inflight := y.inflight ++ [(x.num, k)] })
      | none => fin (modLport s n fun y => { y with ovr := y.ovr + 1 })

/-- LPORT_NO_CLOCK (R506): eight frame periods without a sync edge. -/
def execLportNoClock (n : Nat) (s : State) : Out :=
  let x := lportOf s n
  if !iceUp s || decide (8 ≤ n) || !x.en || x.master then .next s
  else fin (negSet (modLport s n fun x => { x with found := none, agree := 0, meas := none }) (18 + n) .failed 0x0860 0)

/-- LPORT_UNLOCKED (R506): the frame rate has been off the media clock by more than 1 ppm over 10 s; the channels run on. -/
def execLportUnlocked (n : Nat) (s : State) : Out :=
  let x := lportOf s n
  if !iceUp s || decide (8 ≤ n) || !x.en || x.found.isNone then .next s
  else fin (negSet s (18 + n) .degraded 0x0862 (negOf s (18 + n)).mode)

/-! ## Commands (R505, R507) -/

/-- Apply one parameter. -/
def Lport.set (x : Lport) : LpSet → Lport
  | .en b => { x with en := b } | .master b => { x with master := b } | .format n => { x with format := n }
  | .delay n => { x with delay := n } | .slots n => { x with slots := n } | .width n => { x with width := n }
  | .rate n => { x with rate := n }

/-- Within R505. -/
def Lport.inRange (x : Lport) : Bool :=
  decide (x.format < 4) && decide (x.delay < 2) && (x.slots == 0 || (decide (2 ≤ x.slots) && decide (x.slots ≤ 64)))
    && ([0, 16, 24, 32] : List Nat).contains x.width && ([0, 8, 16, 48, 96] : List Nat).contains x.rate

/-- The bit clock is within 98.304 MHz, and at 96 kHz SLOTS at most 32, as far as they are named. -/
def Lport.clockOk (x : Lport) : Bool :=
  decide (x.rate * 1000 * x.slots * x.bits ≤ 98304000) && (x.rate != 96 || decide (x.slots ≤ 32))

/-- The framing a MASTER port drives; under AUTO I2S with two slots, PULSE with more (log 130). -/
def Lport.drives (x : Lport) : Nat := if x.format = 0 then (if x.slots = 2 then 0 else 2) else x.format - 1

/-- The port's negotiation starts afresh with its new parameters (R491, R506). -/
def lportStart (s : State) (n : Nat) (x : Lport) : State :=
  let s := modLport s n fun _ => { x with found := none, agree := 0, meas := none, pos := [] }
  if !x.en then negSet s (18 + n) .disabled 0 0
  else
    let s := negBegin s (18 + n)
    if x.master then negSet s (18 + n) .full 0 (lportMode x x.drives x.slots x.rate) else s

/-- NX_LPORT_SET (R505-R507). -/
def nxLportSet (l : List LpSet) (h : NxHdr) (s : State) : NxRes :=
  let x := l.foldl Lport.set (lportOf s h.idx)
  checked [(x.inRange, 0x01E0, h.object), (x.clockOk, 0x01E1, h.object),
           (!(x.format == 1 || x.format == 2) || x.slots == 0 || x.slots == 2, 0x01E2, h.object),
           (!x.master || (x.rate != 0 && x.slots != 0 && x.width != 0), 0x01E3, h.object)]
    (ok (lportStart s h.idx x))
/-- The catalogue row of NxLportSet. -/
def spNxLportSet : NxSpec :=
  { opcode := 0x1001, cls := 0x14, states := [.ready] }
def execNxLportSet (b : Nat) (f : Fmt) (l : List LpSet) (s : State) : Out :=
  runNx spNxLportSet b f (.nxLportSet b f l) (nxLportSet l) s

/-- NX_LPORT_STATS (R507, R611): the port's entry, frames received and sent, the overrun count and the restarts; CLEAR
clears the counts. -/
def nxLportStats (h : NxHdr) (s : State) : NxRes :=
  let x := lportOf s h.idx
  .done (if h.clear then modLport s h.idx fun x => { x with rx := 0, tx := 0, ovr := 0, restarts := 0 } else s)
    (replyOf [[.blob (negBytes (18 + h.idx) (negOf s (18 + h.idx))) 8, .ctr x.rx, .ctr x.tx, .ctr x.ovr, .ctr x.restarts]]) 0
/-- The catalogue row of NxLportStats. -/
def spNxLportStats : NxSpec :=
  { opcode := 0x1002, cls := 0x14, states := rsr, audit := false, counts := true }
def execNxLportStats (b : Nat) (f : Fmt) (s : State) : Out :=
  runNx spNxLportStats b f (.nxLportStats b f) nxLportStats s

end Sys2Proof.Machine
end

