-- ==== Sys2Proof/Machine/Flume.lean ====
section
/-! DEFINITION. The events and register accesses of the flumes (chapter 02). -/

namespace Sys2Proof.Machine

/-- Flumes whose pushes happen inside another event: Floes and banks, frames, PTP messages, transmit time-stamps and TDM frames
received, samples for a TDM port, frames to send, work items posted to a bank. -/
def ownWriter (i : Nat) : Bool := i < 192 || (384 ≤ i && i < 400) || (426 ≤ i && i < 442) || (632 ≤ i && i < 640)
/-- Flumes whose pops happen inside another event: banks, Floes, the classifiers, transmit MACs and the Timebase. -/
def ownReader (i : Nat) : Bool := i < 192 || (384 ≤ i && i < 396) || (632 ≤ i && i < 640)

/-- The reader of flume i has been stopped and withholds acknowledge: a Floe, a Sluice lane or a Firn engine, the units with a
stop command (R32, R66). -/
def readerStopped (s : State) (i : Nat) : Bool :=
  let d := flumeDomain i
  if d < 96 then !(floeOf s d).run || (floeOf s d).fenced
  else if 128 ≤ d ∧ d < 144 then !(laneOf s (d - 128)).run
  else if 144 ≤ d ∧ d < 148 then !(tabGet FirnEng.reset s.firn (d - 144)).run
  else false

/-- A manager that a received TDM sample would go to withholds acknowledge, so its port's flume is not read (R198, R213). -/
def readerFull (s : State) (i : Nat) : Bool :=
  decide (426 ≤ i) && decide (i < 434) && s.media.chans.any fun c =>
    match c.2.core.rxSrc with
    | .tdm p _ => p == i - 426 && c.2.st.live && mgrFull s (mgrOf s c.1)
    | _ => false

/-- Flumes of no-wait writers that reserve room before they send, and so never find it short (R61). -/
def neverShort (i : Nat) : Bool := 416 ≤ i && i ≤ 424

/-- What the reader does with an item popped: a transmit time-stamp reaches the Timebase (R390), a TDM port's samples go on to their
channels (R213), and samples for one wait in it for their frame (R254). -/
def popped (s : State) (i : Nat) (x : FItem) : State :=
  if 396 ≤ i ∧ i < 400 then stampTake s (i - 396) x
  else if 426 ≤ i ∧ i < 434 then tdmTake s (i - 426) x
  else if 434 ≤ i ∧ i < 442 then tdmOut s (i - 434) x else s

/-- FLUME_PUSH (R55, R61): a writer presents items of one unit. Flumes written within another event are pushed there. A
management frame that finds no room is dropped whole and counted by the Icehouse; a writer that reserves its room sends
nothing while it is short. -/
def execFlumePush (i : Nat) (xs : List FItem) (s : State) : Out :=
  match flumeShape i with
  | none => .next s
  | some h =>
    if ownWriter i || s.dev.inReset || xs.any (fun x => x.words.length != h.width) then .next s
    else if h.noWait then
      match (flumeOf s i).pushUnit (flumeB i) xs with
      | some f => fin (setFlume s i f)
      | none => if neverShort i then .next s else fin (modIce s fun x => { x with rgmiiDrop := sat32 (x.rgmiiDrop + 1) })
    else if (flumeOf s i).held.isEmpty then fin (pushFlume s i xs)
    else .next s

/-- FLUME_POP (R55, R58-R60): a reader asks for the output stage's item; while EMPTY_R is set the request stays
raised. A stopped reader asks for nothing (R66). -/
def execFlumePop (i : Nat) (ecc : List Ecc) (s : State) : Out :=
  if ownReader i || (flumeShape i).isNone || s.dev.inReset || readerStopped s i || readerFull s i then .next s
  else
    match popFlume s i ecc with
    | some (x, s') => fin (popped s' i x)
    | none => fin (setFlume s i { flumeOf s i with popWaits := true })

/-- FLUME_EMPTY_CLEAR (R54, R56): the reader sees the write pointer; a waiting pop is granted, unless the reader has been
stopped since (R66). -/
def execFlumeEmptyClear (i : Nat) (ecc : List Ecc) (s : State) : Out :=
  let f := flumeOf s i
  if f.wSeen = f.wptr || (flumeShape i).isNone then .next s
  else
    let s := setFlume s i (f.emptyClear (flumeB i))
    if f.popWaits && !readerStopped s i && !readerFull s i then
      match popFlume (setFlume s i { flumeOf s i with popWaits := false }) i ecc with
      | some (x, s') => fin (popped s' i x)
      | none => fin s
    else fin s

/-- FLM_CE_READ (R63): the count, cleared by the read. -/
def execFlmCeRead (a : Agent) (i : Nat) (s : State) : Out :=
  if !barLive s a then fin (returned s 0)
  else if (flumeShape i).isNone then fin (if a = .host then unmapped s else returned s 0)
  else fin (returned (setFlume s i { flumeOf s i with ce := 0 }) (flumeOf s i).ce)

/-- FLM_UE_READ (R64): UE_SEEN and the count, the count cleared by the read. -/
def execFlmUeRead (a : Agent) (i : Nat) (s : State) : Out :=
  let f := flumeOf s i
  if !barLive s a then fin (returned s 0)
  else if (flumeShape i).isNone then fin (if a = .host then unmapped s else returned s 0)
  else fin (returned (setFlume s i { f with ue := 0 }) f.ueWord)

/-- FLM_UE_WRITE (R64, R11): a 1 in bit 31 clears UE_SEEN; a host write is discarded, the register being none of those
R454 lets the host write. -/
def execFlmUeWrite (a : Agent) (i : Nat) (w : Word) (s : State) : Out :=
  if !barLive s a then .next s
  else if (flumeShape i).isNone then fin (if a = .host then unmapped s else s)
  else if a = .canal && w.getLsbD 31 then fin (setFlume s i { flumeOf s i with ueSeen := false })
  else fin s

end Sys2Proof.Machine
end

