-- ==== Sys2Proof/Machine/NivoOps.lean ====
section
/-! DEFINITION. Nivo's operations: records and the audit counter, programmes and usage, update mode, tap frames and the
inspection registers (chapter 18). -/

namespace Sys2Proof.Machine

/-- The package has a Nivo die (R551). -/
def nivoFitted (s : State) : Bool := s.dev.variant != .nx
/-- Nivo runs. -/
def nivoUp (s : State) : Bool := nivoFitted s && s.nivo.powered
/-- Nivo writes records: it runs without a fault of its own die and its hold-up has not closed (R557, R576). -/
def nivoWrites (s : State) : Bool := nivoUp s && !s.nivo.fault && !s.nivo.holdLow

/-! ## Records (R569, R570) -/

/-- A signed number as its two's complement bytes. -/
def intBytes (n : Int) (k : Nat) : List Byte := leBytes (BitVec.ofInt (8 * k) n).toNat k

/-- Bytes [63:0] of a record, which its signature covers (R569). -/
def NRec.bytes (r : NRec) : List Byte :=
  leBytes 0x4F56494E 4 ++ leBytes r.seq 4 ++ leBytes r.type 1 ++ leBytes r.tsrc 1 ++ leBytes r.flags 1 ++ leBytes 0 1
    ++ leBytes r.audit 4 ++ leBytes r.tStart 8 ++ leBytes r.tEnd 8 ++ leBytes r.obj 2 ++ leBytes r.gen 2 ++ fitTo 28 r.body

/-- The 128 bytes of a record: its signature by the Nivo signing key, which no port carries, follows (R556, R569). -/
def NRec.signed (r : NRec) : List Byte := r.bytes ++ beBytes (Config.nivoSign r.bytes).toNat 64

/-- Records the records partition holds (R570). -/
def nivoRecMax : Nat := 1835008
/-- AUDIT records the parameters partition holds, which is never overwritten (R570). -/
def nivoAuditMax : Nat := 131072

/-- Write a record of a TYPE with its span, OBJ, the INVALID and CONCEALED flags, GEN and BODY; AUDIT records are kept a second
time, as far as the parameters partition holds them (R569, R570, R572). -/
def nivoRec (s : State) (type t0 t1 obj : Nat) (inv conc : Bool) (gen : Nat) (body : List Byte) : State :=
  if !nivoWrites s then s
  else
    let n := s.nivo
    let r : NRec :=
      { seq := n.seq, type := type, tsrc := n.tsrc, flags := b2n (!n.sealLow) + 2 * b2n inv + 4 * b2n conc, audit := n.audit,
        tStart := t0, tEnd := t1, obj := obj, gen := gen % 65536, body := fitTo 28 body }
    let l := n.recs ++ [r]
    let s := modNivo s fun n => { n with recs := l.drop (l.length - nivoRecMax), seq := n.seq + 1 }
    if type = 4 ∧ s.nivoFw.audits.length < nivoAuditMax then modNivoFw s fun f => { f with audits := f.audits ++ [r] } else s

/-- Slot i of function 1's record window: the newest record whose SEQ is congruent to i modulo 480; over NIVO_I2C the
record i places after the SEQ last selected (R573). -/
def nivoWindow (n : Nivo) (i2c : Bool) (i : Nat) : Option NRec :=
  match i2c, n.winSeq with
  | true, some q => n.recs.find? fun r => r.seq == q + i
  | _, _ => n.recs.reverse.find? fun r => r.seq % 480 == i

/-- An audited event: the counter goes up and its AUDIT record is stored before anything else; none where Nivo accepts no
audited event or can write no record (R571). -/
def nivoAudit (s : State) (now code gen : Nat) (data : List Byte) (secVer : Nat := 0) : Option State :=
  if !nivoWrites s || decide (0xFFFFFFFF ≤ s.nivo.audit) then none
  else
    some (nivoRec (modNivo s fun n => { n with audit := n.audit + 1 }) 4 now now 0xFFFF false false gen
      (leBytes code 2 ++ fitTo 16 data ++ leBytes secVer 4))

/-- A GAP record: first missing block and their number (R569). -/
def nivoGap (s : State) (now first n : Nat) : State :=
  nivoRec s 6 s.nivo.clock now 0xFFFF false false s.nivo.gen (leBytes first 4 ++ leBytes n 4)

/-! ## Programmes and usage (R564-R567) -/

/-- The programmes of a table. -/
def TapTable.progs (t : TapTable) : List Nat := (t.entries.map (·.prog)).eraseDups
/-- The entries of a programme. -/
def TapTable.of (t : TapTable) (p : Nat) : List TapEntry := t.entries.filter fun e => e.prog == p
/-- A selection is in force in Nivo. -/
def nivoInForce (s : State) : Bool := s.nivo.table.any fun t => !t.entries.isEmpty

/-- Sums of n consecutive steps, the newest window first. -/
def windowSums (n : Nat) (l : List Nat) : List Nat := (nums (l.length + 1 - n)).map fun i => ((l.drop i).take n).sum

/-- Loudness of an energy over n blocks; 0x8000 at or below the absolute gate (R564). -/
def loudness (e n : Nat) : Int := if Config.aboveGate e n then Config.lufs e n else -32768

/-- The value that stands at place k of a list in rising order. -/
def kthLeast (l : List Nat) (k : Nat) : Nat :=
  (l.find? fun x => decide ((l.filter fun y => decide (y < x)).length ≤ k) &&
    decide (k < (l.filter fun y => decide (y ≤ x)).length)).getD 0

/-- The values of a meter (R564): the maxima over its last k steps; integrated loudness over 400 ms blocks overlapping by 75 %, with
the absolute and the relative gate; loudness range as the 95th less the 10th percentile of the gated short-term values. -/
def Meter.vals (m : Meter) (k : Nat) (peak : Option Int) : LoudVals :=
  let mom := windowSums 4 m.steps
  let short := windowSums 30 m.steps
  let a := mom.filter (Config.aboveGate · 3200)
  let g := a.filter fun x => decide (a.sum < x * 10 * a.length)
  let b := short.filter (Config.aboveGate · 24000)
  let r := b.filter fun x => decide (b.sum ≤ x * 100 * b.length)
  let at_ (p : Nat) : Int := Config.lufs (kthLeast r (((r.length - 1) * p + 50) / 100)) 24000
  { mom := loudness ((mom.take k).foldl max 0) 3200, short := loudness ((short.take k).foldl max 0) 24000,
    integ := if g.isEmpty then -32768 else Config.lufs g.sum (3200 * g.length), peak := peak.getD (-32768),
    range := if r.isEmpty then 0 else (at_ 95 - at_ 10).toNat, gated := g.length }

/-- The weight of a role in hundredths; LFE is left out (R558). -/
def roleWeight (role : Nat) : Nat := if role = 3 then 0 else if role = 4 ∨ role = 5 then 141 else 100

/-- The greater of two true peaks. -/
def maxPeak (a : Option Int) (p : Int) : Option Int := some (a.elim p (max p))

/-- A measured block of energy e and true peaks ps: 800 blocks make a 100 ms step (R564). -/
def Meter.block (m : Meter) (e : Nat) (ps : List Int) : Meter :=
  let m := { m with peak := ps.foldl maxPeak m.peak, peakAll := ps.foldl maxPeak m.peakAll }
  if m.blocks + 1 < 800 then { m with blocks := m.blocks + 1, energy := m.energy + e }
  else { m with blocks := 0, energy := 0, steps := (m.energy + e) :: m.steps, since := m.since + 1 }

/-- Programme p in measurement. -/
def progOf (s : State) (p : Nat) : Prog := tabGet Prog.reset s.nivo.progs p
/-- Change programme p. -/
def modProg (s : State) (p : Nat) (f : Prog → Prog) : State :=
  modNivo s fun n => { n with progs := tabMod Prog.reset n.progs p f }
/-- Usage of a slot. -/
def usageOf (s : State) (k : Nat) : Option Usage := tabGet none s.nivo.usage k
/-- Set the usage of a slot. -/
def setUsage (s : State) (k : Nat) (u : Option Usage) : State :=
  modNivo s fun n => { n with usage := tabSet none n.usage k u }

/-- BODY of MEASURE and PROG_END (R569); cause 0 in MEASURE. -/
def loudBody (v : LoudVals) (p : Prog) (cause : Nat) : List Byte :=
  intBytes v.mom 2 ++ intBytes v.short 2 ++ intBytes v.integ 2 ++ intBytes v.peak 2 ++ leBytes v.range 2 ++ leBytes v.gated 4
    ++ leBytes p.invalid 4 ++ leBytes p.conc 4 ++ leBytes 0 4 ++ leBytes cause 1 ++ leBytes 0 1

/-- Programme p ends: its PROG_END record (R561, R572). -/
def progEnd (s : State) (now cause p : Nat) : State :=
  let x := progOf s p
  let t0 := if x.begun then x.start else now
  let s := nivoRec s 2 t0 now p (decide (0 < x.invalid)) (decide (0 < x.conc)) s.nivo.gen (loudBody (x.meter.vals x.meter.steps.length x.meter.peakAll) x cause)
  modProg s p fun _ => { Prog.reset with mark := now }

/-- The MEASURE record of programme p (R566). -/
def progMeasure (s : State) (now p : Nat) : State :=
  let x := progOf s p
  let s := nivoRec s 1 (if x.begun then max x.start x.mark else x.mark) now p x.flagInv x.flagConc s.nivo.gen
    (loudBody (x.meter.vals x.meter.since x.meter.peak) x 0)
  modProg s p fun x =>
    { x with mark := now, flagInv := false, flagConc := false, meter := { x.meter with since := 0, peak := none } }

/-- The programmes of a table in a given order, those it does not name after the others (R566; log 196). -/
def progsBy (order ps : List Nat) : List Nat :=
  let l := order.eraseDups.filter ps.contains
  l ++ ps.filter fun p => !l.contains p

/-- BODY of USAGE (R569): seconds above −70 LUFS are counted in blocks of 125 µs. -/
def usageBody (u : Usage) (cause : Nat) : List Byte :=
  leBytes u.chan 2 ++ leBytes (b2n u.tx) 1 ++ leBytes cause 1 ++ leBytes (u.loud / 8000) 4

/-- A slot's usage closes, if open (R567). -/
def usageClose (s : State) (now cause k : Nat) : State :=
  match usageOf s k with
  | none => s
  | some u => setUsage (nivoRec s 3 u.start now k false false s.nivo.gen (usageBody u cause)) k none

/-- Every open usage closes. -/
def usageCloseAll (s : State) (now cause : Nat) : State :=
  (s.nivo.usage.map (·.1)).foldl (fun s k => usageClose s now cause k) s

/-- A slot's usage opens: cause 0 (R567). -/
def usageOpen (s : State) (now : Nat) (e : TapEntry) (loud : Bool) : State :=
  let u : Usage := { chan := e.chan, tx := e.tx, start := now, loud := b2n loud }
  setUsage (nivoRec s 3 now now e.slot false false s.nivo.gen (usageBody { u with loud := 0 } 0)) e.slot (some u)

/-- One slot of a block: its usage opens, goes on or closes with cause STOP (R567). loud: slots above −70 LUFS. -/
def meterSlot (s : State) (now : Nat) (f : TapFrame) (loud : List Nat) (e : TapEntry) : State :=
  let l := loud.contains e.slot
  if (tabGet TapSlot.none f.slots e.slot).active then
    match usageOf s e.slot with
    | none => usageOpen s now e l
    | some u => if l then setUsage s e.slot (some { u with loud := u.loud + 1 }) else s
  else usageClose s now 1 e.slot

/-- One programme of a block: skipped with no slot ACTIVE, invalid with one ACTIVE and not VALID, else measured (R564, R565). eng: each
slot's K-weighted energy and true peak in the block. -/
def meterProg (s : State) (now : Nat) (f : TapFrame) (eng : List (Nat × Nat × Int)) (es : List TapEntry) (p : Nat) : State :=
  let slot (e : TapEntry) : TapSlot := tabGet TapSlot.none f.slots e.slot
  let act := es.filter fun e => (slot e).active
  if act.isEmpty then s
  else
    let bad := act.any fun e => !(slot e).valid
    let conc := !bad && act.any fun e => (slot e).conc
    let of (e : TapEntry) : List (Nat × Int) := (eng.filter fun v => v.1 == e.slot).map (·.2)
    let sum := (act.map fun e => roleWeight e.role * ((of e).map (·.1)).sum).sum
    let peaks := (act.map fun e => (of e).map (·.2)).flatten
    modProg s p fun x =>
      { begun := true, start := if x.begun then x.start else now, mark := x.mark, invalid := x.invalid + b2n bad,
        conc := x.conc + b2n conc, flagInv := x.flagInv || bad, flagConc := x.flagConc || conc,
        meter := if bad then x.meter else x.meter.block sum peaks }

/-! ## Selections (R560, R561) -/

/-- A programme is the same in both tables: slots, channels, paths and roles unchanged (R561). -/
def progSame (old new : TapTable) (p : Nat) : Bool :=
  (old.of p).all (new.of p).contains && (new.of p).all (old.of p).contains

/-- The table of generation g takes effect: usage of removed slots closes, changed programmes end with cause RESELECT, and a
new integration begins for those of the new table (R560, R561). -/
def tapApply (s : State) (now g : Nat) (t : TapTable) : State :=
  let old := s.nivo.table.getD { entries := [], interval := 10, group := 0 }
  let s :=
    if s.nivo.update then s
    else
      let gone := old.entries.filter fun e => !t.entries.any fun n => n.slot == e.slot && n.chan == e.chan && n.tx == e.tx
      let s := gone.foldl (fun s e => usageClose s now 2 e.slot) s
      let s := (old.progs.filter fun p => !progSame old t p).foldl (progEnd · now 1) s
      (t.progs.filter fun p => !progSame old t p).foldl (fun s p => modProg s p fun _ => { Prog.reset with mark := now }) s
  let s := modNivo s fun n => { n with gen := g, table := some t, pend := none }
  modNivo s fun n => { n with progs := n.progs.filter fun p => t.progs.contains p.1 }

/-! ## Update mode (R572) -/

/-- Update mode is entered or left as the pins and the counter say: programmes and usage end on entry, a GAP record covers
what was not measured on leaving. cause: what a usage closed on entry is said to end by, which R567 leaves open (log 136). -/
def nivoMode (s : State) (now cause : Nat) : State :=
  let n := s.nivo
  let want := n.updLow && !n.sealLow
  if !nivoUp s then s
  else if want && !n.update && decide (n.audit < 0xFFFFFFFF) then
    let s := (n.table.elim [] TapTable.progs).foldl (progEnd · now 2) s
    let s := usageCloseAll s now cause
    modNivo s fun n =>
      { n with update := true, updBlock := n.lastBlock.elim 0 (· + 1), progs := [] }
  else if !want && n.update then
    let miss := n.lastBlock.elim 0 (· + 1) - n.updBlock
    modNivo (nivoGap s now n.updBlock miss) fun n => { n with update := false }
  else s

/-! ## Tap frames (R563, R568) -/

/-- TSRC of a Nivo with no LOCKED source (R568). -/
def Nivo.freeSrc (n : Nivo) : Nat := if n.synced then 2 else 3

/-- Nivo's clock reads now when a frame comes: a LOCKED source steps it when more than 100 ms off, with a TIME record (R568). -/
def nivoTime (s : State) (now : Nat) (f : TapFrame) : State :=
  let old := s.nivo.tsrc
  if f.servo = 2 then
    let s := modNivo s fun n => { n with tsrc := f.dom, synced := true, clock := now }
    let d : Int := (f.time : Int) - (now : Int)
    if d.natAbs ≤ 100000000 then s
    else
      modNivo (nivoRec s 5 now f.time 0xFFFF false false s.nivo.gen (intBytes d 8 ++ leBytes old 1)) fun n =>
        { n with clock := f.time }
  else modNivo s fun n => { n with tsrc := n.freeSrc, clock := now }

/-- k blocks from the first named are missing and the next expected follows block last: a GAP record, and invalid blocks for
every programme in measurement (R563, R576). -/
def tapMissed (s : State) (now first k last : Nat) : State :=
  let s := modNivo s fun n => { n with lastBlock := some last }
  if s.nivo.update then s
  else
    let s := nivoGap s now first k
    modNivo s fun n =>
      { n with clock := now, progs := n.progs.map fun p =>
          if p.2.begun then (p.1, { p.2 with invalid := p.2.invalid + k, flagInv := true }) else p }

/-- A frame Nivo takes (R560, R563-R568). -/
def tapTake (s : State) (now : Nat) (loud : List Nat) (eng : List (Nat × Nat × Int)) (f : TapFrame) : State :=
  let s := nivoTime (modNivo s fun n => { n with lastBlock := some f.block, linkUp := true }) now f
  let now := s.nivo.clock
  let s := match s.nivo.pend with
    | some (g, t) => if f.gen = g then tapApply s now g t else s
    | none => s
  match s.nivo.table with
  | none => s
  | some t =>
    if s.nivo.update then s
    else
      let s := t.progs.foldl (fun s p => meterProg s now f eng (t.of p) p) s
      t.entries.foldl (fun s e => meterSlot s now f loud e) s

/-- A slot of the frame of block j, from the tap ring at a position (R257, R562, R563): samples are the upper 24 bits. -/
def tapSlotOf (s : State) (j pos : Nat) (e : TapEntry) : TapSlot :=
  let a := tapRingBase s pos + j % 16 * 32
  let w := ofLe (memRead s a 8)
  let act := (chanOf s e.chan).st == .running
  if !memPoisoned s a 32 && w % 2 ^ 56 == j then
    { active := act, valid := true, conc := bitOf w 56,
      samples := (nums 6).map fun i => BitVec.ofNat 24 (ofLe (memRead s (a + 8 + 4 * i) 4) / 256) }
  else { active := act, valid := false, conc := false, samples := List.replicate 6 0 }

/-- The slots of a table, from position pos on. -/
def tapSlots (s : State) (j : Nat) : Nat → List TapEntry → Tab TapSlot
  | _, [] => []
  | pos, e :: t => tabSet TapSlot.none (tapSlots s j (pos + 1) t) e.slot (tapSlotOf s j pos e)

/-- The tap frame of block j (R563). -/
def tapFrameOf (s : State) (j : Nat) : TapFrame :=
  { block := j, time := nowNs s, servo := (clkOf s s.tb.selDom).servo.no, dom := s.tb.selDom, gen := s.tap.gen,
    slots := s.tap.table.elim [] fun t => tapSlots s j 0 t.entries }

/-- The present block number (R563). -/
def blockNow (s : State) : Nat := s.tb.sel / (125000 * 65536)

/-! ## Inspection (R573) -/

/-- NIVO_STATE. -/
def nivoState (s : State) : Nat :=
  let n := s.nivo
  b2n n.sealLow * 2 ^ 31 + b2n n.update * 2 ^ 30 + b2n n.linkUp * 2 ^ 29 + b2n n.selUp * 2 ^ 28 + n.tsrc * 2 ^ 26
    + b2n n.fault * 2 ^ 25 + b2n (n.audit == 0xFFFFFFFF) * 2 ^ 24 + (n.table.elim 0 fun t => t.entries.length - 1) * 2 ^ 8
    + n.table.elim 0 fun t => t.progs.length - 1

/-- The inspection registers in their order: NIVO_ID, STATE, AUDIT, GEN, SEQ_LAST, SEQ_OLDEST. -/
def nivoRegs (s : State) : List Nat :=
  let n := s.nivo
  [0x96410A01, nivoState s, n.audit, n.gen, (n.recs.getLast?).elim Config.nivoNoSeq (·.seq),
   (n.recs.head?).elim Config.nivoNoSeq (·.seq)]

end Sys2Proof.Machine
end

