-- ==== Sys2Proof/Machine/Nivo.lean ====
section
/-! DEFINITION. The commands and events of Nivo sealed metering (chapter 18). -/

namespace Sys2Proof.Machine

/-! ## The tap link (R562, R563) -/

/-- TAP_GATHER: at a block boundary one gather item per reach is posted while a selection is in force, and the frame of the
block is gathered. -/
def execTapGather (s : State) : Out :=
  let j := blockNow s
  if !nivoFitted s || s.dev.inReset || !s.dev.nxUp || s.tap.block == some j then .next s
  else
    let f := tapFrameOf s j
    let s := match s.tap.table with
      | some t => (nums 4).foldl (fun s r =>
          postItem s 232 r (mkItem (Config.kind 5).toNat false (Config.prio 5).toNat t.group 0 (0x80 + r) 0 0)) s
      | none => s
    fin (modTap s fun t => { t with block := some j, frame := some f })

/-- TAP_FRAME_SEND: the gathered frame leaves the main die, whether or not Nivo takes it. -/
def execTapFrameSend (s : State) : Out :=
  match s.tap.frame with
  | none => .next s
  | some f => fin (modTap s fun t => { t with frame := none, link := t.link ++ [f] })

/-- TAP_FRAME_RECEIVE (R563-R568, R576): the foremost frame arrives. good: its CRC holds and no word is poisoned; now: Nivo's
clock; loud: slots above −70 LUFS in the block; eng: each slot's K-weighted energy and true peak in it (log 189). -/
def execTapFrameReceive (good : Bool) (now : Nat) (loud : List Nat) (eng : List (Nat × Nat × Int)) (s : State) : Out :=
  match s.tap.link with
  | [] => .next s
  | f :: l =>
    let s := modTap s fun t => { t with link := l }
    if !nivoUp s then fin s
    else
      match good, s.nivo.lastBlock with
      | false, none => fin s
      | false, some b => fin (tapMissed s now (b + 1) 1 (b + 1))
      | true, none => fin (tapTake s now loud eng f)
      | true, some b =>
        if f.block = b + 1 then fin (tapTake s now loud eng f)
        else if b < f.block then fin (tapMissed s now (b + 1) (f.block - b) f.block)
        else fin (tapMissed s now f.block 1 f.block)

/-- USAGE_LINK_CLOSE (R567, R568, R573): no frame for 100 ms. -/
def execUsageLinkClose (now : Nat) (s : State) : Out :=
  if !nivoUp s then .next s
  else
    let s := usageCloseAll s now 4
    fin (modNivo s fun n => { n with linkUp := false, tsrc := n.freeSrc, clock := now })

/-- MEASURE_INTERVAL (R566): a boundary of INTERVAL, aligned to whole minutes of Nivo's clock, which reads now; order: in which the
programmes are recorded (log 196). -/
def execMeasureInterval (now : Nat) (order : List Nat) (s : State) : Out :=
  match s.nivo.table with
  | none => .next s
  | some t =>
    if !nivoUp s || s.nivo.update || now % (t.interval * 60000000000) != 0 then .next s
    else fin (modNivo ((progsBy order t.progs).foldl (progMeasure · now) s) fun n => { n with clock := now })

/-! ## Selections (R558-R560) -/

/-- Entries and parameters lie in their ranges (R558). -/
def TapTable.inRange (t : TapTable) : Bool :=
  t.entries.all fun e => decide (e.slot < 256) && decide (e.chan < 8192) && decide (e.prog < 256) && decide (e.role < 7)

/-- A programme's slots: 1 to 24, at most one of each of L, R, C, LFE, LS and RS (R559). -/
def progRoles (l : List TapEntry) : Bool :=
  decide (l.length ≤ 24) && (nums 6).all fun r => decide ((l.filter fun e => e.role == r).length ≤ 1)

/-- NX_NIVO_TAP (R558-R560): the table checked, given the next GEN and sent over the selection path. -/
def nxNivoTap (t : TapTable) (h : NxHdr) (s : State) : NxRes :=
  let n := objNo 0x13 0
  let bad := t.entries.find? fun e => (chanOf s e.chan).st == .free || (chanOf s e.chan).core.rate != 48
  let g := (s.nivo.genSeen + 1) % 2 ^ 32
  if !h.dma then no 0x0102
  else if !t.inRange then no 0x0106
  else
    checked [(decide (t.entries.length ≤ 256) && decide (t.entries.map (·.slot)).Nodup, 0x01E8, n),
             (bad.isNone, 0x01E9, bad.elim n fun e => objNo 1 e.chan),
             (t.progs.all fun p => progRoles (t.of p), 0x01EA, n),
             (decide (1 ≤ t.interval) && decide (t.interval ≤ 60) && decide (t.group < 8), 0x01EB, n),
             (decide (t.entries.map fun e => (e.chan, e.tx)).Nodup, 0x01EC, n),
             (decide (512 * t.entries.length ≤ partSize s 6), 0x0380, n),
             (!s.nivo.update, 0x0703, n), (s.nivo.audit != 0xFFFFFFFF, 0x0704, n), (!s.nivo.fault, 0x0705, n)]
      (.long (modTap s fun u => { u with sent := some (g, t, 0), selPath := u.selPath ++ [(g, t)] }) (.nivoTap g))
/-- The catalogue row of NxNivoTap. -/
def spNxNivoTap : NxSpec :=
  { opcode := 0x0F01, cls := 0x13, states := rs }
def execNxNivoTap (b : Nat) (f : Fmt) (t : TapTable) (s : State) : Out :=
  runNx spNxNivoTap b f (.nxNivoTap b f t) (nxNivoTap t) s

/-- SHA-256 of the table of generation g as it is sent; the layout it is sent in is open (log 132). -/
def TapTable.hash (t : TapTable) (g : Nat) : List Byte :=
  sha256 (Config.tapBytes (t.entries.map fun e => [e.slot, e.chan, b2n e.tx, e.prog, e.role]) t.interval t.group g)

/-- SELECTION_RECEIVE (R560): the foremost table on the selection path reaches Nivo. A repeated GEN is acknowledged only; a new
one is audited with the first 16 bytes of the table's SHA-256, kept and acknowledged. -/
def execSelectionReceive (now : Nat) (s : State) : Out :=
  match s.tap.selPath with
  | [] => .next s
  | (g, t) :: l =>
    let s := modTap s fun u => { u with selPath := l }
    let ack (s : State) : State := modTap s fun u => { u with acks := u.acks ++ [(g, s.nivo.audit)] }
    if !nivoUp s || s.nivo.update then fin s
    else if g = s.nivo.genSeen then fin (ack s)
    else
      match nivoAudit s now 1 g (t.hash g) with
      | none => fin s
      | some s => fin (ack (modNivo s fun n => { n with genSeen := g, pend := some (g, t) }))

/-- The long command that waits for the acknowledgement of generation g, if still open. -/
def tapCmd (s : State) (g : Nat) : Option LongCmd := s.nx.long.find? fun c => c.work == .nivoTap g

/-- SELECTION_ACK (R560): later frames carry the new GEN, and the command completes with DETAIL the audit counter. -/
def execSelectionAck (s : State) : Out :=
  match s.tap.acks with
  | [] => .next s
  | (g, a) :: l =>
    let s := modTap s fun u => { u with acks := l }
    match s.tap.sent with
    | some (g', t, _) =>
      if g ≠ g' then fin s
      else
        let s := modTap s fun u => { u with gen := g, table := some t, sent := none }
        match tapCmd s g with
        | some c => fin (endLong s c 0 a [])
        | none => fin s
    | none => fin s

/-- SELECTION_RETRY (R560): 100 ms without an acknowledgement; the same GEN goes again up to three times, then the command
completes with 0x0702 and frames keep the old GEN. -/
def execSelectionRetry (s : State) : Out :=
  match s.tap.sent with
  | none => .next s
  | some (g, t, k) =>
    match tapCmd s g with
    | none => fin (modTap s fun u => { u with sent := none })
    | some c =>
      if k < 3 then fin (modTap s fun u => { u with sent := some (g, t, k + 1), selPath := u.selPath ++ [(g, t)] })
      else fin (endLong (modTap s fun u => { u with sent := none }) c 0x0702 0 [])

/-! ## Pins, power, faults and update mode (R557, R568, R571, R572, R576) -/

/-- NIVO_SEAL_N_CHANGE (R571, R572): the pin takes a new level, audited, and update mode follows it; cause as in nivoMode. -/
def execNivoSealNChange (low : Bool) (now cause : Nat) (s : State) : Out :=
  if !nivoFitted s || s.nivo.sealLow == low then .next s
  else
    let s := modNivo s fun n => { n with sealLow := low }
    let s := (nivoAudit s now (if low then 3 else 2) s.nivo.gen []).getD s
    fin (nivoMode s now cause)

/-- NIVO_UPD_N_CHANGE (R572); cause as in nivoMode. -/
def execNivoUpdNChange (low : Bool) (now cause : Nat) (s : State) : Out :=
  if !nivoFitted s || s.nivo.updLow == low then .next s
  else fin (nivoMode (modNivo s fun n => { n with updLow := low }) now cause)

/-- NIVO_I2C_UPDATE_WRITE (R557, R572): accepted only in update mode. -/
def execNivoI2cUpdateWrite (w : NivoWr) (now : Nat) (s : State) : Out :=
  if !nivoUp s || !s.nivo.update || s.nivo.holdLow then .next s
  else
    match w with
    | .image d => fin (modNivoFw s fun f => { f with image := f.image ++ d, verified := false })
    | .verify good v =>
      fin (modNivoFw s fun f =>
        { f with image := [], verified := good && decide (f.floor_ ≤ v), secVer := f.secVer.set (1 - f.slot) v,
                 other := some (sha256 f.image) })
    | .param k v =>
      match nivoAudit s now 5 s.nivo.gen (leBytes k 4 ++ leBytes v 8) with
      | none => .next s
      | some s => fin (modNivoFw s fun f => { f with params := tabSet 0 f.params k v })

/-- The two slots change places: the other's image runs. -/
def NivoFw.swap (f : NivoFw) : NivoFw := { f with slot := 1 - f.slot, hash := f.other, other := f.hash, verified := false }

/-- The hash of the running image (R573). -/
def NivoFw.runHash (f : NivoFw) : List Byte := f.hash.getD (Config.nivoHash f.slot)

/-- Nivo's restart clears a fault and what it keeps in registers; its clock runs on (R572, R576). -/
def nivoRestart (s : State) : State := modNivo s fun n => { n with fault := false, winSeq := none }

/-- NIVO_FIRMWARE_ACTIVATE (R572): a verified image is activated, audited, the floor raised and Nivo restarted at once; an
image that fails to start three times returns Nivo to the former slot, audited again. -/
def execNivoFirmwareActivate (starts : Bool) (now : Nat) (s : State) : Out :=
  let v := s.nivoFw.secVer.getD (1 - s.nivoFw.slot) 0
  if !nivoUp s || !s.nivo.update || !s.nivoFw.verified then .next s
  else
    match nivoAudit s now 4 s.nivo.gen ((s.nivoFw.other.getD []).take 16) v with
    | none => .next s
    | some s =>
      let s := nivoRestart (modNivoFw s fun f => { f.swap with floor_ := max f.floor_ v })
      if starts then fin s
      else
        let s := modNivoFw s NivoFw.swap
        fin ((nivoAudit s now 4 s.nivo.gen (s.nivoFw.runHash.take 16)).getD s)

/-- NIVO_HOLDUP_LOW (R557): a closing USAGE record with cause POWER for every open slot, then no flash operation. -/
def execNivoHoldupLow (now : Nat) (s : State) : Out :=
  if !nivoUp s || s.nivo.holdLow then .next s
  else fin (modNivo (usageCloseAll s now 3) fun n => { n with holdLow := true })

/-- NIVO_POWER_ON (R568): VDD_NIVO rises. What flash and OTP keep stays: records, counters, the tables received; Nivo's clock,
which reads now, is free and TSRC 3. No usage is open whose end would need a cause. -/
def execNivoPowerOn (now : Nat) (s : State) : Out :=
  if !nivoFitted s then .next s
  else
    let n := s.nivo
    let m : Nivo :=
      { Nivo.reset with powered := true, sealLow := n.sealLow, updLow := n.updLow, clock := now, audit := n.audit, gen := n.gen,
                        genSeen := n.genSeen, pend := n.pend, table := n.table, recs := n.recs, seq := n.seq,
                        faults := n.faults }
    fin (nivoMode { s with nivo := m } now 0)

/-- The site of a part of Nivo's die: at levels 1 to 4 its domain, the fields below the level "none"; else the die itself
(R20). -/
def nivoSite (dom level mac stage cell : Nat) : DWord :=
  if level = 1 then siteOf 1 1 1 0 dom (mac % 2 ^ 16) (stage % 2 ^ 24) (min cell 71)
  else if level = 2 then siteOf 2 1 1 0 dom (mac % 2 ^ 16) (stage % 2 ^ 24) 0xFF
  else if level = 3 then siteOf 3 1 1 0 dom (mac % 2 ^ 16) 0xFFFFFF 0xFF
  else if level = 4 then siteOf 4 1 1 0 dom 0xFFFF 0xFFFFFF 0xFF
  else siteOf 6 1 1 0 0x1FF 0xFFFF 0xFFFFFF 0xFF

/-- NIVO_DIE_FAULT (R576): a fault of Nivo's die in domain 235 (tap false) or 236; one in its processor, OTP or key store sets
FAULT. -/
def execNivoDieFault (tap core : Bool) (level mac stage cell : Nat) (s : State) : Out :=
  if !nivoUp s then .next s
  else
    let site := nivoSite (if tap then 236 else 235) level mac stage cell
    fin (modNivo s fun n => { n with faults := n.faults ++ [site], fault := n.fault || core })

/-! ## Inspection (R573, R574) -/

/-- NIVO_I2C_SEQ_SELECT (R573): the window shows the records from SEQ q on. -/
def execNivoI2cSeqSelect (q : Nat) (s : State) : Out :=
  if !nivoUp s then .next s else fin (modNivo s fun n => { n with winSeq := some q })

/-- A Nivo alarm condition: raised when it begins. -/
def nivoCond (s : State) (code : Nat) (on_ : Bool) : State :=
  if on_ then
    if s.tap.raised.contains code then s
    else alarm (modTap s fun t => { t with raised := t.raised ++ [code] }) code (objNo 0x13 0) 0 noSite
  else modTap s fun t => { t with raised := t.raised.filter (· != code) }

/-- NIVO_STATE_POLL (R574): the Icehouse reads NIVO_STATE. lock: the selection path is in lock; soon: the oldest stored record
lies within 7 days of being overwritten at the present rate. -/
def execNivoStatePoll (lock soon : Bool) (s : State) : Out :=
  if !nivoFitted s || !s.dev.iceRuns || s.dev.inReset then .next s
  else
    let up := s.nivo.powered
    let s := modNivo s fun n => { n with selUp := lock && up, linkUp := n.linkUp && up }
    let n := s.nivo
    let late := up && nivoInForce s && decide (2 ≤ n.tsrc)
    let change := up && s.tap.sealed.any (· != n.sealLow)
    let s := modTap s fun t => { t with sealed := if up then some n.sealLow else t.sealed,
                                        tsrcPolls := if late then t.tsrcPolls + 1 else 0 }
    let s := nivoCond s 0x60 (nivoInForce s && !(n.linkUp && n.selUp))
    let s := if change then alarm s 0x61 (objNo 0x13 0) 0 noSite else s
    let s := nivoCond s 0x62 (decide (600 < s.tap.tsrcPolls))
    let s := nivoCond s 0x63 (up && soon)
    let s := nivoCond s 0x64 (up && n.fault)
    fin (nivoCond s 0x65 (up && n.audit == 0xFFFFFFFF))

/-- NX_NIVO_INFO (R573): the inspection registers, the software identifier, its SHA-256 and the device certificate. -/
def nxNivoInfo (_ : NxHdr) (s : State) : NxRes :=
  .done s (replyOf [(nivoRegs s).map nv ++ [.blob Config.nivoIdent 32, .blob s.nivoFw.runHash 32,
    .blob Config.nivoCert 1024]]) 0
/-- The catalogue row of NxNivoInfo. -/
def spNxNivoInfo : NxSpec :=
  { opcode := 0x0F02, cls := 0x13, states := rsr, audit := false }
def execNxNivoInfo (b : Nat) (f : Fmt) (s : State) : Out :=
  runNx spNxNivoInfo b f (.nxNivoInfo b f) nxNivoInfo s

end Sys2Proof.Machine
end

