-- ==== Sys2Proof/Machine/Late.lean ====
section
/-! DEFINITION. What takes effect after a command's execution instant: the ends of long commands and the commands Tandem
mirrors (chapters 11, 15). -/

namespace Sys2Proof.Machine

/-! ## Long commands (R460) -/

/-- The end of long command l. input: the bytes of its host input buffer, where it still reads it; c: the result of a firmware image's verification; fail: a host
access failed after so many bytes (R481). None while its work cannot have ended. -/
def longEnd (s : State) (l : LongCmd) (input : List Byte) (c : Nat) (fail : Option Nat) : Option State :=
  match l.work, fail with
  | .modLoad image p, _ => modLoadEnd s l image p
  | .sluLoad profs coefs, _ => some (endLong (sluLoaded s l.hdr.idx profs coefs) l 0 0 [])
  | .fwUpdate k v, _ => fwEnd s l k v c
  | .selftest, _ => none
  | .nivoTap _, _ => none
  | _, some n => some (endLong s l 0x0510 n [])
  | .ringRead n count addr, none => if hostOk s then some (ringReadEnd s l n count addr) else none
  | .rimeXts k dec sector, none => if hostOk s then some (xtsEnd s l k dec sector input) else none
  | .logRead kind first count, none => if hostOk s then some (logReadEnd s l kind first count) else none

/-- LONG_COMMAND_COMPLETE (R460, R461): the work of the long command in berth b ends. NX_DEV_SELFTEST and NX_NIVO_TAP end with
events of their own. -/
def execLongCommandComplete (b : Nat) (input : List Byte) (c : Nat) (fail : Option Nat) (s : State) : Out :=
  if s.dev.inReset || !s.dev.nxUp || !s.dev.iceRuns then .next s
  else
    match s.nx.long.find? fun l => l.berth == b with
    | none => .next s
    | some l =>
      match longEnd s l input c fail with
      | some s => fin s
      | none => .next s

/-! ## Mirrored commands (R356, R477) -/

/-- The catalogue row and the effect of a command Tandem mirrors (R356, R431). -/
def mirrorAct : Instr → Option (NxSpec × (NxHdr → State → NxRes))
  | .nxChanDefine _ _ l => some (spNxChanDefine l, nxChanDefine l)
  | .nxChanSet _ _ l => some (spNxChanSet l, nxChanSet l)
  | .nxChanEnable _ _ => some (spNxChanEnable, nxChanEnable)
  | .nxChanStart _ _ => some (spNxChanStart, nxChanStart)
  | .nxChanStop _ _ => some (spNxChanStop, nxChanStop)
  | .nxChanDisable _ _ => some (spNxChanDisable, nxChanDisable)
  | .nxChanFree _ _ => some (spNxChanFree, nxChanFree)
  | .nxChanClear _ _ => some (spNxChanClear, nxChanClear)
  | .nxEcReset _ _ => some (spNxEcReset, nxEcReset)
  | .nxJctBusDefine _ _ share p m => some (spNxJctBusDefine, nxJctBusDefine share p m)
  | .nxJctBusSet _ _ share p m => some (spNxJctBusSet, nxJctBusSet share p m)
  | .nxJctBusEnable _ _ => some (spNxJctBusEnable, nxJctBusEnable)
  | .nxJctBusDisable _ _ => some (spNxJctBusDisable, nxJctBusDisable)
  | .nxJctBusFree _ _ => some (spNxJctBusFree, nxJctBusFree)
  | .nxJctXpAdd _ _ src gain ramp => some (spNxJctXpAdd, nxJctXpAdd src gain ramp)
  | .nxJctXpSet _ _ es => some (spNxJctXpSet, nxJctXpSet es)
  | .nxJctXpDelete _ _ => some (spNxJctXpDelete, nxJctXpDelete)
  | .nxRxsDefine _ _ l => some (spNxRxsDefine l, nxRxsDefine l)
  | .nxRxsSet _ _ l => some (spNxRxsSet l, nxRxsSet l)
  | .nxRxsEnable _ _ => some (spNxRxsEnable, nxRxsEnable)
  | .nxRxsDisable _ _ => some (spNxRxsDisable, nxRxsDisable)
  | .nxRxsFree _ _ => some (spNxRxsFree, nxRxsFree)
  | .nxTxsDefine _ _ l => some (spNxTxsDefine l, nxTxsDefine l)
  | .nxTxsSet _ _ l => some (spNxTxsSet l, nxTxsSet l)
  | .nxTxsEnable _ _ => some (spNxTxsEnable, nxTxsEnable)
  | .nxTxsDisable _ _ => some (spNxTxsDisable, nxTxsDisable)
  | .nxTxsFree _ _ => some (spNxTxsFree, nxTxsFree)
  | .nxRimeKeySet _ _ mode dir kind root label pin value reach =>
    some (spNxRimeKeySet, nxRimeKeySet mode dir kind root label pin value reach)
  | .nxRimeKeyClear _ _ => some (spNxRimeKeyClear, nxRimeKeyClear)
  | _ => none

/-- A mirrored command takes effect, where it is still legal and its rules still hold. -/
def mirrorRun (s : State) (h : NxHdr) (i : Instr) : State :=
  match mirrorAct i with
  | none => s
  | some (sp, body) =>
    if !sp.states.contains s.dev.devState || !sp.legal s h.idx then s
    else
      match body h s with
      | .done s _ _ => s
      | _ => s

/-- The tick of the waiting command that is due first. -/
def mirrorDue (s : State) : Option Nat := (s.mirror.map (·.1)).min?

/-- MIRROR_APPLY (R356, R477): at its boundary the earliest waiting command takes effect, the oldest of those due together
first. A Junction command at the instant of a block boundary takes effect after it (R263). -/
def execMirrorApply (s : State) : Out :=
  match mirrorDue s with
  | none => .next s
  | some t =>
    if tick48 s < t then .next s
    else
      match s.mirror.find? fun e => e.1 == t with
      | none => .next s
      | some (_, h, i) =>
        if h.opcode / 256 = 5 && blockDue s then .next s
        else fin (mirrorRun { s with mirror := s.mirror.eraseP fun e => e.1 == t } h i)

end Sys2Proof.Machine
end

