-- ==== Sys2Proof/Machine/QuayDma.lean ====
section
/-! DEFINITION. The receive DMA engines place frames and packets in host rings (chapter 10). -/

namespace Sys2Proof.Machine

/-- RX_DMA_PLACE (R310, R318, R334-R336, R339): DMA engine 2n serves its oldest request; descs are OWN and BUF_ADDR of the
descriptors from HEAD on as it reads them, errs what its read of the stored frame finds. Host accesses wait under R452. -/
def execRxDmaPlace (x : UnitRead) (descs : List (Bool × Nat)) (s : State) : Out :=
  let n := x.no
  let errs := x.errs
  match (portOf s n).dma with
  | [] => .next s
  | q :: t =>
    if !portRuns s n || !hostOk s then .next s
    else
      let s := modPort s n fun p => { p with dma := t }
      match q.frame with
      | none =>
        if (dmaOf s q.ring).en && (dmaOf s q.ring).channel then
          fin (rxPlace s q.ring (bareFrame q.data) false q.data descs)
        else fin (portCount s n 16 1)
      | some id =>
        match storedOf s n id with
        | none => .next s
        | some f =>
          let (bad, s) := frameRead s n f errs
          if !wireRing s q.ring then fin (portCount s n 16 1)
          else if bad then fin (portCount s n 17 1)
          else fin (rxPlace s q.ring f true (f.frame.bytes.take (f.frame.bytes.length - 4)) descs)

end Sys2Proof.Machine
end

