-- ==== Sys2Proof/Machine/Strata.lean ====
section
/-! DEFINITION. Strata: the 64 probes, their samples, register reads and commands (chapter 17). -/

namespace Sys2Proof.Machine

/-- Probe p. -/
def probeOf (s : State) (p : Nat) : Probe := tabGet Probe.reset s.ice.probes p
/-- Change probe p. -/
def modProbe (s : State) (p : Nat) (f : Probe → Probe) : State :=
  modIce s fun i => { i with probes := tabMod Probe.reset i.probes p f }

/-- A quantity sampled every PERIOD (R529). -/
def levelQty (q : Nat) : Bool := q == 2 || q == 3
/-- The object of a quantity lies in its range; false where the code does not exist (R529). -/
def qtyOk (q o : Nat) : Bool :=
  match q with
  | 1 => o < 4 | 2 => o < 64 | 3 => o < 686 | 4 | 5 => o < 8192 | 6 => o < 212 | 7 => o < 2 | 8 => o < 4
  | _ => false

/-- Items available to the reader of flume i, head and body (R67). -/
def rdAvail (s : State) (i : Nat) : Nat := (flumeOf s i).bodySeen (flumeB i) + (flumeOf s i).head.length

/-- The sample of a quantity that is state of the device, among them the depth of a Basin and the margin of the packet it accepted
last; another is what the unit measured, x (R529; log 124). -/
def sampleOf (s : State) (q o : Nat) (x : Int) : Int :=
  match q with
  | 2 => (((lkpReach s (o / 16)).pound (o % 16)).length : Nat)
  | 3 => (rdAvail s o : Nat)
  | 4 => ((basinOf s o).depth * 125 : Nat)
  | 5 => match (basinOf s o).margins with | p :: _ => p.2 / 1000 | [] => x
  | 6 => (tabGet 0 s.ice.sense.periods o : Nat)
  | 7 => (clkOf s o).offset / 65536
  | _ => x

/-- The bin of a sample (R530). -/
def binOf (p : Probe) (x : Int) : Nat :=
  let d := x - p.origin
  if d < p.width then 0
  else if !p.log then min 31 (d.toNat / max 1 p.width)
  else min 31 (1 + Nat.log2 (d.toNat / max 1 p.width))

/-- A probe takes sample x (R529, R530); a signed 32-bit value. -/
def probeTake (p : Probe) (x : Int) : Probe :=
  let x := satS 32 x
  { p with min := min p.min x, max := max p.max x, cnt := p.cnt + 1, bins := tabMod 0 p.bins (binOf p x) fun n => sat32 (n + 1) }

/-- STRATA_SAMPLE (R529, R530): an event or PERIOD of probe p's quantity, of value x where it is measured; skip: the probe
cannot take it. -/
def execStrataSample (p : Nat) (x : Int) (skip : Bool) (s : State) : Out :=
  let q := probeOf s p
  if s.dev.inReset || decide (64 ≤ p) || !q.en then .next s
  else if skip then fin (modProbe s p fun q => { q with skip := sat32 (q.skip + 1) })
  else fin (modProbe s p fun q => probeTake q (sampleOf s q.qty q.obj x))

/-- STR_CNT_READ (R14, R531): the low half latches the high half; the high half reads what was latched. -/
def execStrCntRead (a : Agent) (p : Nat) (hi : Bool) (s : State) : Out :=
  if !barLive s a || decide (64 ≤ p) then fin (returned s 0)
  else
    let v := (probeOf s p).cnt % 2 ^ 64
    if hi then
      let h := (probeOf s p).cntHi
      fin (returned (modProbe s p fun q => { q with cntHi := none }) (h.elim (v / 2 ^ 32) (·.toNat)))
    else fin (returned (modProbe s p fun q => { q with cntHi := some (BitVec.ofNat 32 (v / 2 ^ 32)) }) (v % 2 ^ 32))

/-- NX_STR_PROBE (R531, R550): a new setting, or none to disable the probe; the results are cleared by a setting. -/
def nxStrProbe (x : Option ProbeSet) (h : NxHdr) (s : State) : NxRes :=
  match x with
  | none => ok (modProbe s h.idx fun q => { q with en := false })
  | some y =>
    checked [(decide (-(2 ^ 31) ≤ y.origin) && decide (y.origin < 2 ^ 31) && decide (y.width < 2 ^ 31)
                && decide (y.period ≤ 1000000), 0x01D0, h.object),
             (qtyOk y.qty y.obj, 0x01D5, h.object), (decide (1 ≤ y.width) && (!levelQty y.qty || decide (1 ≤ y.period)), 0x01D6, h.object)]
      (ok (modProbe s h.idx fun _ =>
        { Probe.reset with en := true, log := y.log, qty := y.qty, obj := y.obj, origin := y.origin, width := y.width,
                           period := y.period }))
/-- The catalogue row of NxStrProbe. -/
def spNxStrProbe : NxSpec :=
  { opcode := 0x0E01, cls := 0x12, states := rs }
def execNxStrProbe (b : Nat) (f : Fmt) (x : Option ProbeSet) (s : State) : Out :=
  runNx spNxStrProbe b f (.nxStrProbe b f x) (nxStrProbe x) s

/-- NX_STR_READ (R531, R611): MIN, MAX, COUNT, SKIP and the bins; CLEAR clears them. -/
def nxStrRead (h : NxHdr) (s : State) : NxRes :=
  let q := probeOf s h.idx
  let clr (q : Probe) : Probe :=
    { q with min := Probe.reset.min, max := Probe.reset.max, cnt := 0, cntHi := none, skip := 0, bins := [] }
  .done (if h.clear then modProbe s h.idx clr else s)
    (replyOf [[.val q.min, .val q.max, .ctr q.cnt, .ctr q.skip] ++ (nums 32).map fun i => .ctr (tabGet 0 q.bins i)]) 0
/-- The catalogue row of NxStrRead. -/
def spNxStrRead : NxSpec :=
  { opcode := 0x0E02, cls := 0x12, states := rsr, audit := false, counts := true }
def execNxStrRead (b : Nat) (f : Fmt) (s : State) : Out :=
  runNx spNxStrRead b f (.nxStrRead b f) nxStrRead s

end Sys2Proof.Machine
end

