-- ==== Sys2Proof/Machine/Weir.lean ====
section
/-! DEFINITION. The events and register reads of the Weir units (chapter 11). -/

namespace Sys2Proof.Machine

/-- The context of stream n reads poisoned: it passes every arrival on until it is rebuilt (R368). -/
def weirUe (s : State) (u n : Nat) : State :=
  let k := (rxsOf s n).ctxNo.getD 0
  alarm (modRxs s n fun x => { x with ctx := { x.ctx with faulted := true } }) 0x42 (objNo 0x0A n) 0
    (siteStage (164 + u) 0 k)

/-- WEIR_ARRIVAL (R310, R346, R348, R350, R368): unit u judges its oldest arrival; ue: a word of the context reads poisoned; errs:
what its read of the frame finds. A stream no longer enabled passes nothing; while a manager of the stream's members withholds
acknowledge, the arrival waits (R198). -/
def execWeirArrival (x : UnitRead) (ue : Bool) (s : State) : Out :=
  let u := x.no
  let errs := x.errs
  match tabGet [] s.net.weirIn u with
  | [] => .next s
  | a :: t =>
    let n := a.stream
    let p := a.pkt
    if (takersOf s n).any (mgrFull s) then .next s
    else
    let s := modNet s fun x => { x with weirIn := tabSet [] x.weirIn u t }
    let (bad, s) := pktRead s p errs
    if (rxsOf s n).st ≠ .enabled then fin s
    else if bad then
      let s := match p.frame with | some (q, _) => portCount s q 17 1 | none => s
      fin (rxsCount s n (7 + b2n p.legB) 1)
    else
      let s := legHeard s n p.legB
      let s := if ue && !(rxsOf s n).ctx.faulted then weirUe s u n else s
      if (rxsOf s n).ctx.faulted then fin (weirPass s n p)
      else fin (weirApply s n p (weirJudge (rxsOf s n).ctx (rxsOf s n).p.window p.seq p.legB))

/-- WEIR_LEG_SILENT (R349): dt units from now a leg of stream n has delivered nothing for 100 ms while the other has. -/
def execWeirLegSilent (n : Nat) (legB : Bool) (dt : Nat) (s : State) : Out :=
  let c := (rxsOf s n).ctx
  let t := s.tb.sel + dt
  let span := 6553600000000
  let (last, other, was) := if legB then (c.lastB, c.lastA, c.silentB) else (c.lastA, c.lastB, c.silentA)
  if (rxsOf s n).st ≠ .enabled || !(rxsOf s n).p.weir || was || decide (t < last + span) || decide (other + span < t) then
    .next s
  else
    let s := modRxs s n fun x =>
      { x with ctx := if legB then { x.ctx with silentB := true } else { x.ctx with silentA := true } }
    let s := logRec s 0xC 6 (objNo 0x0A n) (leBytes n 4 ++ leBytes (b2n legB) 1 ++ leBytes 0 1)
    fin (alarm s 0x41 (objNo 0x0A n) (BitVec.ofNat 64 (b2n legB)) noSite)

/-- WEIR_AUTH_FAIL_REPORT (R350, R428): unit u takes a failure report and clears the PASSED bit. -/
def execWeirAuthFailReport (u : Nat) (s : State) : Out :=
  match tabGet [] s.net.weirBad u with
  | [] => .next s
  | (n, q, _) :: t =>
    let s := modNet s fun x => { x with weirBad := tabSet [] x.weirBad u t }
    let c := (rxsOf s n).ctx
    let i := seqSub c.h q
    if !c.valid || decide ((rxsOf s n).p.window ≤ i) then fin s
    else fin (modRxs s n fun x => { x with ctx := { x.ctx with passed := clrBit x.ctx.passed i } })

/-- WEIR_TX_DUPLICATE (R351, R352, R355): unit u writes the legs of its oldest packet, once the frames it wrote before have found
room (R324). -/
def execWeirTxDuplicate (u : Nat) (s : State) : Out :=
  match tabGet [] s.net.weirOut u with
  | [] => .next s
  | o :: t =>
    if txWaits s (164 + u) then .next s
    else
    let s := modNet s fun x => { x with weirOut := tabSet [] x.weirOut u t }
    fin (weirLeg (weirLeg s o false) o true)

/-- WEIR_CONTEXT_REBUILD (R368): the Icehouse rebuilds a poisoned context, empty as after an enable (log 73). -/
def execWeirContextRebuild (n : Nat) (s : State) : Out :=
  if !(rxsOf s n).ctx.faulted || !s.dev.iceRuns then .next s
  else fin (modRxs s n fun x =>
    { x with ctx := { WeirCtx.reset with lastA := x.ctx.lastA, lastB := x.ctx.lastB, silentA := x.ctx.silentA,
                                         silentB := x.ctx.silentB } })

/-- WEIR_TDM_COUNT_READ (R14, R366): k 0 WEIR_TDM_CRC0, 1 WEIR_TDM_CRC1, 2 WEIR_TDM_TAKEOVER, read and cleared. -/
def execWeirTdmCountRead (k : Nat) (s : State) : Out :=
  if s.dev.inReset then .next s
  else
    match k with
    | 0 => fin (returned (modTdm s fun t => { t with crc0 := 0 }) s.tdm.crc0)
    | 1 => fin (returned (modTdm s fun t => { t with crc1 := 0 }) s.tdm.crc1)
    | 2 => fin (returned (modTdm s fun t => { t with takeovers := 0 }) s.tdm.takeovers)
    | _ => .next s

end Sys2Proof.Machine
end

