-- ==== Sys2Proof/Machine/Regs.lean ====
section
/-! DEFINITION. The registers as a Canal agent reads and writes them, by block window and offset (R11-R15, R39). A window's offsets
are those of the block's range in BAR0 (log 190). Reserved bits read as zero and WO fields as zero (R11, R13). -/

namespace Sys2Proof.Machine

/-- What a read of a register returns, and the state after it; none where the chapters name no register. -/
abbrev RegAns := Option (Nat × State)

/-- A register whose read changes nothing. -/
def regHolds (s : State) (v : Nat) : RegAns := some (v, s)

/-- A register whose read has a row of its own: its value and effect, the bus latch kept. -/
def regByRow (row : State → Out) (s : State) : RegAns :=
  match row s with
  | .next t => some (t.dev.rdata.toNat % 2 ^ 32, { t with dev := { t.dev with rdata := s.dev.rdata } })
  | _ => none

/-- A word whose bit i is set where i is listed. -/
def maskOf (l : List Nat) : Nat := (l.map (2 ^ ·)).sum

/-- A half of a 64-bit register that latches nothing. -/
def halfOf (b : BitVec 64) (hi : Bool) : Nat := if hi then b.toNat / 2 ^ 32 else b.toNat % 2 ^ 32

/-- DEV registers (R453). -/
def devReg (s : State) (o : Nat) : RegAns :=
  match o with
  | 0x00 => regHolds s devId
  | 0x04 => regHolds s devStep
  | 0x08 => regHolds s (devCompat s)
  | 0x0C => regHolds s (devStraps s)
  | 0x10 => regHolds s (devUnits s)
  | 0x14 => regHolds s (devStateReg s)
  | 0x18 => regHolds s s.dev.heartbeat.toNat
  | 0x1C => some (s.dev.unmapped, modDev s fun d => { d with unmapped := 0 })
  | 0x20 => regHolds s s.dev.scratch.toNat
  | _ => none

/-- NX_CPL_CFG and NX_CPL_STATUS (R464, R468). -/
def Norux.cfgWord (n : Norux) : Nat := b2n n.cplEn * 2 ^ 31 + n.cplVector * 2 ^ 16 + n.cplModUs * 2 ^ 6 + n.cplLog2
def Norux.statusWord (n : Norux) : Nat := b2n n.cplEn * 2 ^ 31 + min n.waiting.length 64 * 2 ^ 16 + n.cplReason

/-- NX registers (R458, R459, R464, R468). -/
def nxReg (s : State) (o : Nat) : RegAns :=
  let n := s.nx
  match o with
  | 0x00 | 0x04 => regHolds s 0
  | 0x08 => regHolds s (maskOf ((nums 32).filter n.busy.contains))
  | 0x0C => regHolds s (maskOf ((nums 32).filter fun i => n.busy.contains (32 + i)))
  | 0x10 => regHolds s (halfOf n.cplBase false)
  | 0x14 => regHolds s (halfOf n.cplBase true)
  | 0x18 => regHolds s n.cfgWord
  | 0x1C => regHolds s n.cplTail
  | 0x20 => regHolds s n.cplHead
  | 0x24 => regHolds s n.statusWord
  | 0x28 => some (n.dbBusy, modNx s fun x => { x with dbBusy := 0 })
  | 0x2C => some (n.berthDrop, modNx s fun x => { x with berthDrop := 0 })
  | _ => none

/-- RING_CFG (R332, R337, R342). -/
def DmaRing.cfgWord (r : DmaRing) : Nat :=
  b2n r.en * 2 ^ 31 + b2n r.channel * 2 ^ 30 + r.cls * 2 ^ 24 + r.vector * 2 ^ 16 + r.modUs * 2 ^ 6 + r.bufsz * 2 ^ 4 + r.log2

/-- Ring q's registers (R332 to R342). -/
def ringReg (s : State) (q o : Nat) : RegAns :=
  let r := dmaOf s q
  if 128 ≤ q then none
  else
    match o with
    | 0x00 => regHolds s (halfOf r.base false)
    | 0x04 => regHolds s (halfOf r.base true)
    | 0x08 => regHolds s r.cfgWord
    | 0x0C => regHolds s r.tail
    | 0x10 => regHolds s r.head
    | 0x14 => regHolds s (b2n (ringIdle s q) * 2 ^ 31 + b2n r.race * 2 ^ 30 + b2n r.nobuf * 2 ^ 29 + r.reason)
    | 0x18 | 0x1C | 0x20 | 0x24 | 0x28 | 0x2C => some (ringCount s q ((o - 0x18) / 8) (o % 8 == 4))
    | _ => none

/-- QUAY_GATE_STATUS at the present instant (R326, R328). -/
def gateWord (s : State) (n : Nat) : Nat :=
  let p := gateShow (portOf s n) s.tb.sel
  b2n (p.cfg.gateEn && p.gate.isSome) * 2 ^ 31 + b2n p.gatePend.isSome * 2 ^ 30 + (gateNow p s.tb.sel).1.toNat * 2 ^ 8 + p.entry

/-- Port n's registers (R303 to R340). -/
def quayReg (s : State) (n o : Nat) : RegAns :=
  let p := portOf s n
  let c := p.cfg
  if 0x100 ≤ o ∧ o < 0x180 then
    let e := tabGet 0 c.uc ((o - 0x100) / 8)
    regHolds s (if o % 8 = 0 then e % 2 ^ 32 else b2n (bitOf e 48) * 2 ^ 31 + bitsOf e 47 32)
  else if 0x200 ≤ o ∧ o < 0x400 then
    regHolds s (maskOf ((nums 32).filter fun i => c.bins.contains (32 * ((o - 0x200) / 4) + i)))
  else if 0x1000 ≤ o ∧ o < 0x10C0 then regByRow (execQuayCounterRead .canal n ((o - 0x1000) / 8) (o % 8 == 4) false) s
  else if 0x2000 ≤ o ∧ o < 0x20C0 then regByRow (execQuayCounterRead .canal n ((o - 0x2000) / 8) (o % 8 == 4) true) s
  else
    match o with
    | 0x00 => regHolds s (b2n c.gateEn * 4 + b2n c.txEn * 2 + b2n c.rxEn)
    | 0x04 => regHolds s (c.fec * 2 ^ 6 + b2n p.paused.isSome * 2 ^ 5 + b2n c.link * 2 ^ 4 + c.speed)
    | 0x08 => regHolds s c.maxFrame
    | 0x0C => regHolds s c.corrRx.toNat
    | 0x10 => regHolds s c.corrTx.toNat
    | 0x14 => regHolds s (b2n c.pauseRx * 8 + b2n c.promisc * 4 + b2n c.mcAll * 2 + b2n c.bcast)
    | 0x18 => regHolds s (c.ptpClass * 2 ^ 12 + c.txRes)
    | 0x1C => regHolds s c.defRing
    | 0x400 => regHolds s (gateWord s n)
    | _ => none

/-- Words W0 to W3 of the head of port n's two-step queue (R390). -/
def tsqWord (n : Nat) (e : TsqEntry) (i : Nat) : Nat :=
  let sec := e.time / unitsPerSec
  match i with
  | 0 => 2 ^ 31 + b2n e.gap * 2 ^ 30 + e.domain % 2 * 2 ^ 29 + b2n e.ue * 2 ^ 28 + e.seq % 4 * 2 ^ 26 + n * 2 ^ 24
      + (if e.gap then min e.lost 255 else 0) * 2 ^ 16 + e.tsId % 2 ^ 16
  | 1 => sec % 2 ^ 32
  | 2 => sec / 2 ^ 32 % 2 ^ 16 * 2 ^ 16 + e.time % 2 ^ 16
  | _ => e.seq % 4 * 2 ^ 30 + e.time % unitsPerSec / 65536

/-- Port n's two-step queue registers (R390 to R395). -/
def tsqReg (s : State) (n o : Nat) : RegAns :=
  let q := tsqOf s n
  match o with
  | 0x00 | 0x04 | 0x08 | 0x0C => regHolds s (q.entries.head?.elim 0 fun e => tsqWord n e (o / 4))
  | 0x10 => regHolds s 0
  | 0x14 => regHolds s q.entries.length
  | 0x18 => regHolds s (b2n q.oneStep * 2 ^ 8 + q.vector)
  | 0x1C | 0x20 | 0x24 | 0x28 => regByRow (execTbTsqCountRead .canal n ((o - 0x1C) / 4)) s
  | _ => none

/-- TB_CTRL and TB_STATUS (R375, R378, R380). -/
def Timebase.ctrlWord (t : Timebase) : Nat := b2n t.auto * 4 + (t.pend.elim 0 (·.1)) % 2 * 2 + t.selDom % 2
def Timebase.statusWord (t : Timebase) : Nat :=
  b2n t.pend.isSome * 2 ^ 9 + b2n t.slewing * 2 ^ 8 + t.clkB.servo.no * 2 ^ 4 + t.clkA.servo.no

/-- Timebase registers (R375 to R398). -/
def tbReg (s : State) (o : Nat) : RegAns :=
  let t := s.tb
  if 0x1000 ≤ o ∧ o < 0x1100 then tsqReg s ((o - 0x1000) / 0x40) ((o - 0x1000) % 0x40)
  else if 0x10 ≤ o ∧ o < 0x40 then
    let x := (o - 0x10) / 0x10
    match o % 0x10 with
    | 0x0 => regHolds s (tabGet 0 t.latches (3 * x)).toNat
    | 0x4 => regHolds s (tabGet 0 t.latches (3 * x + 1)).toNat
    | 0x8 => regByRow (execTbTodNsRead .canal x) s
    | 0xC => regHolds s (tabGet 0 t.latches (3 * x + 2)).toNat
    | _ => none
  else if 0x60 ≤ o ∧ o < 0x80 then
    let x := (o - 0x60) / 0x10
    match o % 0x10 with
    | 0x0 => regHolds s (tabGet 0 t.latches (16 + x)).toNat
    | 0x4 => regByRow (execTbPpsInNsRead .canal x) s
    | 0x8 => regByRow (execTbPpsInCntRead .canal x) s
    | _ => none
  else
    match o with
    | 0x00 => regHolds s t.ctrlWord
    | 0x04 => regHolds s t.statusWord
    | 0x40 => regByRow (execTbOffsetAbRead .canal false) s
    | 0x44 => regByRow (execTbOffsetAbRead .canal true) s
    | 0x50 => regHolds s (b2n t.clkB.inEn * 8 + b2n t.clkA.inEn * 4 + b2n t.clkB.outEn * 2 + b2n t.clkA.outEn)
    | _ => none

/-- Lockkeeper registers of reach r (chapter 06). The high halves of the dispatch pairs read what was latched (R14). -/
def lkpReg (s : State) (r o : Nat) : RegAns :=
  let l := s.lkp
  let x := lkpReach s r
  if 0x20 ≤ o ∧ o < 0x40 then regHolds s (tabGet 1 l.weights ((o - 0x20) / 4))
  else if 0x40 ≤ o ∧ o < 0x80 then regByRow (execLkpPeakRead r false ((o - 0x40) / 4)) s
  else if 0x80 ≤ o ∧ o < 0xA0 then regByRow (execLkpPeakRead r true ((o - 0x80) / 4)) s
  else
    match o with
    | 0x00 => regHolds s (b2n l.thread)
    | 0x04 => regHolds s l.ceil
    | 0x08 => regHolds s l.tick
    | 0xA0 => regHolds s (chqAll s).length
    | 0xA4 => regHolds s (towDepth s r)
    | 0xA8 | 0xAC | 0xB0 | 0xB4 | 0xB8 => regByRow (execLkpCountRead r ((o - 0xA8) / 4)) s
    | 0xC0 => regByRow (execLkpDispRead r false) s
    | 0xC4 => some (hiRead x.dispHi (x.disp / 2 ^ 32), modReach s r fun x => { x with dispHi := none })
    | 0xC8 => regByRow (execLkpDispRead r true) s
    | 0xCC => some (hiRead x.gdispHi (x.gdisp / 2 ^ 32), modReach s r fun x => { x with gdispHi := none })
    | _ => none

/-- Registers of Junction slice n (R250, R257, R260, R272): RUN while blocks are produced (log 192). -/
def jctReg (s : State) (n o : Nat) : RegAns :=
  let x := sliceOf s n
  if 8 ≤ n then none
  else
    match o with
    | 0x00 => regHolds s (b2n s.jct.block.isSome * 2 ^ 31 + b2n x.ovrSeen * 2 ^ 30 + (xpsUsed s n).length * 2 ^ 16 + (enabledBuses s n).length)
    | 0x04 => regHolds s (sliceTerms s n)
    | 0x08 | 0x0C | 0x10 => regByRow (execJctSliceCountRead n ((o - 0x08) / 4)) s
    | _ => none

/-- SLU_LANE_STATUS (R284, R291, R302). -/
def SluLane.statusWord (x : SluLane) : Nat :=
  b2n (!x.run) * 2 ^ 31 + b2n (!x.faulted.isEmpty) * 2 ^ 30 + x.bound.length * 2 ^ 16 + x.queue.length

/-- Registers of the Sluice lanes of reach r and the device-wide sync registers (chapter 09). -/
def sluReg (s : State) (r o : Nat) : RegAns :=
  let l := 4 * r + o / 0x4000
  let x := laneOf s l
  let i := o % 0x4000
  if 0x10000 ≤ o then
    match o with
    | 0x10000 => regHolds s (b2n (syncPending s) * 2 + b2n s.slu.pinEn)
    | 0x10004 => regByRow (execSluSyncTickRead false) s
    | 0x10008 => regByRow (execSluSyncTickRead true) s
    | 0x1000C => regByRow execSluSyncIgnRead s
    | _ => none
  else if 0x2000 ≤ i then regHolds s (BitVec.ofInt 32 (x.coef ((i - 0x2000) / 4))).toNat
  else
    match i with
    | 0x00 => regHolds s (b2n x.run)
    | 0x04 => regHolds s x.statusWord
    | 0x08 => regHolds s (ceilDiv x.load 1000000)
    | 0x0C | 0x10 | 0x14 | 0x18 | 0x1C => regByRow (execSluCountRead l ((i - 0x0C) / 4)) s
    | _ => none

/-- Weir registers (chapter 11). -/
def weirReg (s : State) (o : Nat) : RegAns :=
  let t := s.tdm
  if o < 0x400 ∧ o % 0x100 = 0 then regHolds s (weirUsed s (o / 0x100)).length
  else
    match o with
    | 0x1000 => regHolds s (b2n t.lane1 * 2 ^ 5 + b2n t.lane0 * 2 ^ 4 + b2n t.aliveIn * 2 ^ 3 + t.st.no)
    | 0x1004 | 0x1008 | 0x100C => regByRow (execWeirTdmCountRead ((o - 0x1004) / 4)) s
    | _ => none

/-- Rime registers (chapter 13): device-wide, and reach r's block. -/
def rimeReg (s : State) (o : Nat) : RegAns :=
  if o = 0 then regHolds s s.rime.strength
  else if o = 4 then regHolds s (rootMask s 4 * 2 ^ 8 + rootMask s 8)
  else if o < 0x10000 ∨ 0x50000 ≤ o then none
  else
    let r := o / 0x10000 - 1
    let x := rimeReach s r
    match o % 0x10000 with
    | 0x00 => regHolds s (engBusy x * 2 ^ 24 + x.queue.length)
    | 0x04 => regHolds s ((rimeResv s r).1 * 2 ^ 16 + (rimeResv s r).2)
    | 0x08 => regHolds s (pinned s r * 2 ^ 16 + (homed s r).length)
    | 0x10 => regByRow (execRimeCountRead r 0 false) s
    | 0x14 => regByRow (execRimeCountRead r 0 true) s
    | 0x18 | 0x1C | 0x20 | 0x24 | 0x28 | 0x2C => regByRow (execRimeCountRead r (1 + (o % 0x10000 - 0x18) / 4) false) s
    | _ => none

/-- FIRN_STATUS: the head of the queue is the job in progress (log 191). -/
def FirnEng.statusWord (x : FirnEng) : Nat :=
  b2n (!x.run) * 2 ^ 31 + b2n (x.run && !x.queue.isEmpty) * 2 ^ 30 + x.queue.length

/-- Registers of Firn engine e (chapter 14). -/
def firnReg (s : State) (e o : Nat) : RegAns :=
  let x := firnOf s e
  if 4 ≤ e then none
  else
    match o with
    | 0x00 => regHolds s (b2n x.run)
    | 0x04 => regHolds s x.statusWord
    | 0x08 | 0x0C | 0x10 | 0x14 => regByRow (execFirnCountRead e ((o - 8) / 8) (o % 8 == 4)) s
    | 0x18 | 0x1C | 0x20 | 0x24 | 0x28 => regByRow (execFirnCountRead e (2 + (o - 0x18) / 4) false) s
    | _ => none

/-- Registers of Strata probe p (R529 to R531). -/
def strReg (s : State) (p o : Nat) : RegAns :=
  let q := probeOf s p
  let int (x : Int) : RegAns := regHolds s (BitVec.ofInt 32 x).toNat
  if 64 ≤ p then none
  else if 0x80 ≤ o then regHolds s (tabGet 0 q.bins ((o - 0x80) / 4))
  else
    match o with
    | 0x00 => regHolds s (b2n q.en * 2 ^ 31 + b2n q.log * 2 ^ 30 + q.qty * 2 ^ 20 + q.period)
    | 0x04 => regHolds s q.obj
    | 0x08 => int q.origin
    | 0x0C => regHolds s q.width
    | 0x10 => int q.min
    | 0x14 => int q.max
    | 0x18 => regByRow (execStrCntRead .canal p false) s
    | 0x1C => regByRow (execStrCntRead .canal p true) s
    | 0x20 => regHolds s q.skip
    | _ => none

/-- Registers of flume i (R63, R64, R67). -/
def flmReg (s : State) (i o : Nat) : RegAns :=
  match flumeShape i with
  | none => none
  | some h =>
    match o with
    | 0x0 => regHolds s ((flumeOf s i).status h)
    | 0x4 => regByRow (execFlmCeRead .canal i) s
    | 0x8 => regByRow (execFlmUeRead .canal i) s
    | 0xC => regHolds s h.word
    | _ => none

/-- Register offsets the chapters call unmapped (R66). -/
def regUnmapped (n o : Nat) : Bool := n == 0x2C && decide (0x2AE0 ≤ o)

/-- A 4-byte read of the register at offset o of window n (R39). -/
def regRead (s : State) (n o : Nat) : RegAns :=
  if n = 0x00 then devReg s o
  else if n = 0x02 then nxReg s o
  else if n = 0x03 then ringReg s (o / 0x40) (o % 0x40)
  else if 0x04 ≤ n ∧ n < 0x08 then quayReg s (n - 0x04) o
  else if n = 0x08 then tbReg s o
  else if 0x0C ≤ n ∧ n < 0x10 then lkpReg s (n - 0x0C) o
  else if n = 0x14 then jctReg s (o / 0x100) (o % 0x100)
  else if 0x18 ≤ n ∧ n < 0x1C then sluReg s (n - 0x18) o
  else if n = 0x1C then weirReg s o
  else if n = 0x20 then rimeReg s o
  else if n = 0x24 then firnReg s (o / 0x1000) (o % 0x1000)
  else if n = 0x28 then strReg s (o / 0x100) (o % 0x100)
  else if n = 0x2C then flmReg s (o / 0x10) (o % 0x10)
  else none

/-- What a write by a Floe does at offset o of window n: the fields no rule reserves to the Icehouse or to host software that a row
describes; none elsewhere (log 105). -/
def regPut (s : State) (n o : Nat) (w : Word) : Option State :=
  let row (r : Out) : Option State := match r with | .next t => some t | _ => none
  if n = 0x08 ∧ 0x1000 ≤ o ∧ o < 0x1100 ∧ o % 0x40 = 0x10 then row (execTbTsqPop .canal ((o - 0x1000) / 0x40) w s)
  else if n = 0x2C ∧ o % 0x10 = 0x8 then row (execFlmUeWrite .canal (o / 0x10) w s)
  else none

end Sys2Proof.Machine
end

