-- ==== Sys2Proof/Machine/Xfer.lean ====
section
/-! DEFINITION. The completion of a Floe's Canal transfers (chapters 01, 04). -/

namespace Sys2Proof.Machine

/-! ## Request and job ports (R34, R282, R419, R440) -/

/-- A port that takes requests or jobs: of a Sluice lane, a reach's Rime array, a Firn engine. -/
inductive ReqPort where
  | slu (l : Nat) | rime (r : Nat) | firn (e : Nat)
deriving DecidableEq, Repr

/-- The port at register offset o of block window n. -/
def portAt (n o : Nat) : Option ReqPort :=
  if 0x18 ≤ n ∧ n ≤ 0x1B then
    if o % 0x4000 = 0x1000 ∧ o < 0x10000 then some (.slu ((n - 0x18) * 4 + o / 0x4000)) else none
  else if n = 0x20 then
    if o % 0x10000 = 0x1000 ∧ 1 ≤ o / 0x10000 ∧ o / 0x10000 ≤ 4 then some (.rime (o / 0x10000 - 1)) else none
  else if n = 0x24 then
    if o % 0x1000 = 0x800 ∧ o / 0x1000 < 4 then some (.firn (o / 0x1000)) else none
  else none

/-- The one size of write a port takes. -/
def ReqPort.size : ReqPort → Nat
  | .slu _ => 32
  | _ => 64

/-- A port that withholds acknowledge: its unit is stopped, or its queue is full or has writes waiting before this one (R32,
R284, R419, R440). -/
def portBusy (s : State) : ReqPort → Bool
  | .slu l => let x := laneOf s l; !x.run || !x.held.isEmpty || decide (256 ≤ x.queue.length)
  | .rime r => let x := rimeReach s r; !x.held.isEmpty || decide (512 ≤ x.queue.length)
  | .firn e => let x := firnOf s e; !x.run || !x.held.isEmpty || decide (64 ≤ x.queue.length)

/-- Floe f's request or job reaches its port. -/
def portPut (s : State) (f : Nat) (l : List Byte) : ReqPort → State
  | .slu k => sluPut s k (sluReqOf l)
  | .rime r => rimeWrite s r f l
  | .firn e => firnWrite s e f l

/-- A port that serves Floe f: a Sluice lane only its own reach (R273). -/
def ReqPort.serves (f : Nat) : ReqPort → Bool
  | .slu l => sluServes l f
  | _ => true

/-- Transfer x of Floe f cannot complete yet: it writes a port that withholds acknowledge (R617). -/
def xferWaits (s : State) (f : Nat) (x : Xfer) : Bool :=
  match canalWhere s x.addr with
  | .regs n o => !x.isGet && (match portAt n o with | some p => x.size == p.size && p.serves f && portBusy s p | none => false)
  | _ => false

/-! ## The response (R34, R40, R41, R43, R139) -/

/-- Words of a read of [a, a + n), from 0, that are poisoned. -/
def pxOf (poison : List Nat) (a n : Nat) : List Nat := (nums (wordsOf a n).length).filter fun i => poison.contains (a / 8 + i)

/-- A CGET from memory: data, poisoned words, and the state in which what its code checks found is counted. -/
def getMem (s : State) (x : Xfer) (errs : List (Nat × Ecc)) : List Byte × List Nat × Bool × State :=
  let s := memFind s x.addr x.size errs
  let px := match canalWhere s x.addr with
    | .ddr o => pxOf s.fab.ddrPoison o x.size
    | .neve o => pxOf s.fab.nevePoison o x.size
    | .floe g o => pxOf (fmemOf s g).poison o x.size
    | _ => []
  (memRead s x.addr x.size, px, false, neveReadUe s x.addr x.size)

/-- A CPUT to memory, its poisoned words poisoned there. -/
def putMem (s : State) (x : Xfer) (errs : List (Nat × Ecc)) : List Byte × List Nat × Bool × State :=
  ([], [], false, memPoison (memWrite (mergeFind s x.addr x.size errs) x.addr x.data) x.addr x.px)

/-- The response to a transfer: data, poisoned words, the address-error flag, and the state it leaves. resp: what a register
answers that the spec does not describe, and whether a write no register accepts completes without the flag (log 105); errs:
what code checks of memory words find. -/
def xferDo (s : State) (f : Nat) (x : Xfer) (resp : Option Nat) (errs : List (Nat × Ecc)) :
    List Byte × List Nat × Bool × State :=
  let zeros := List.replicate x.size (0 : Byte)
  let missed := (zeros, [], true, canalAddr s f x.addr)
  if x.addr % x.size ≠ 0 then missed
  else
    match canalWhere s x.addr with
    | .unmapped => missed
    | .regs n o =>
      match portAt n o with
      | some p => if !x.isGet && x.size == p.size then (zeros, [], false, if p.serves f then portPut s f x.data p else s) else missed
      | none =>
        if x.size ≠ 4 || regUnmapped n o then missed
        else if x.isGet then
          match regRead s n o with
          | some (v, s) => (leBytes v 4, [], false, s)
          | none => match resp with
            | some v => (leBytes v 4, [], false, s)
            | none => (zeros, [], true, s)
        else
          match regPut s n o (BitVec.ofNat 32 (ofLe x.data)) with
          | some s => (zeros, [], false, s)
          | none => (zeros, [], resp.isNone, s)
    | .floe g o =>
      if 0xF0000 ≤ o then
        if x.size ≠ 4 ∨ 0xF0030 ≤ o then missed
        else if x.isGet then
          let (v, s) := floeRegRead s g (o - 0xF0000)
          (leBytes v 4, [], false, s)
        else (zeros, [], true, s)
      else if 0x50000 ≤ o then missed
      else if !floeStopped s g then (zeros, [], true, s)
      else if x.isGet then getMem s x errs else putMem s x errs
    | .ddr _ | .neve _ => if x.isGet then getMem s x errs else putMem s x errs

/-- The destination of a transfer: transfers to one complete in the order issued (R617). -/
def xferDest (s : State) (x : Xfer) : Nat × Nat :=
  match canalWhere s x.addr with
  | .ddr _ => (0, 0)
  | .neve _ => (1, 0)
  | .regs n _ => (2, n)
  | .floe g _ => (3, g)
  | .unmapped => (4, 0)

/-- A CGET's data reach local memory: zeros with the flag, a word that came poisoned keeps its mark. A transfer of fewer than
eight bytes merges into its word, which merge finds to be what it is (R135, R139). -/
def getDone (s : State) (f : Nat) (x : Xfer) (l : List Byte) (px : List Nat) (merge : Ecc) : State :=
  let w := x.loc / 8
  let s := if 8 ≤ x.size || (fmemOf s f).poison.contains w then s
    else match merge with
      | .ok => s
      | .corrected _ => noteErrors s f 0 1
      | .bad => noteErrors (modFmem s f fun m => { m with poison := addOnce m.poison w }) f 1 0
  modFmem s f fun m =>
    let m := dmemWrite m x.loc l
    { m with poison := px.foldl (fun q i => addOnce q (w + i)) m.poison }

/-- CANAL_TRANSFER_COMPLETE (R139, R617): transfer k of Floe f, the first to its destination, completes. An address error
faults CAE once nothing of a fault or a fence is under way. -/
def execCanalTransferComplete (f k : Nat) (a : XferAns) (s : State) : Out :=

  let x := floeOf s f
  match x.xfers[k]? with
  | none => .next s
  | some t =>
    if s.dev.inReset || xferWaits s f t || (x.xfers.take k).any fun u => xferDest s u == xferDest s t then .next s
    else
      let (l, px, flag, s) := xferDo s f t a.resp a.errs
      let s := if t.isGet then getDone s f t l px a.merge else s
      let s := modFloe s f fun x => { x with xfers := x.xfers.eraseIdx k }
      let faulting : Bool := match x.stall with | .drain (some _) => true | .push true => true | _ => false
      if (floeOf s f).fenced then fin s
      else if flag && !faulting && x.cur.isSome then
        fin (moduleFault s f { code := 5, arg := 0, pc := t.pc, site := siteMacro f 6 })
      else fin (xferWake s f)

end Sys2Proof.Machine
end

