-- ==== Sys2Proof/Machine/Dispatch.lean ====
section
/-! DEFINITION. The dispatch of every command and event to its meaning. -/

namespace Sys2Proof.Machine

/-- The effect of command i on everything but the queue. -/
def exec (i : Instr) (s : State) : Host.Outcome State Fault Refusal :=
  match i with
  | .resetNRise compat tandem src x => Sys2Proof.Machine.execResetNRise compat tandem src x s
  | .resetNFall ns => Sys2Proof.Machine.execResetNFall ns s
  | .selftestDone floes quay ddr bad => Sys2Proof.Machine.execSelftestDone floes quay ddr bad s
  | .pciePerstN => Sys2Proof.Machine.execPciePerstN s
  | .pcieLinkChange up gen width hostGen hostWidth => Sys2Proof.Machine.execPcieLinkChange up gen width hostGen hostWidth s
  | .busMasterEnableChange on => Sys2Proof.Machine.execBusMasterEnableChange on s
  | .functionLevelReset0 x => Sys2Proof.Machine.execFunctionLevelReset0 x s
  | .functionLevelReset1 => Sys2Proof.Machine.execFunctionLevelReset1 s
  | .function1Write off w => Sys2Proof.Machine.execFunction1Write off w s
  | .bar0UnmappedAccess write o n => Sys2Proof.Machine.execBar0UnmappedAccess write o n s
  | .registerWrite a r w => Sys2Proof.Machine.execRegisterWrite a r w s
  | .devUnmappedRead => Sys2Proof.Machine.execDevUnmappedRead s
  | .berthWrite o l => Sys2Proof.Machine.execBerthWrite o l s
  | .nxDoorbell hi w => Sys2Proof.Machine.execNxDoorbell hi w s
  | .nxCountRead drop => Sys2Proof.Machine.execNxCountRead drop s
  | .nxCplCfgEnWrite w => Sys2Proof.Machine.execNxCplCfgEnWrite w s
  | .nxCplHeadWrite w => Sys2Proof.Machine.execNxCplHeadWrite w s
  | .msixUnmask v => Sys2Proof.Machine.execMsixUnmask v s
  | .longCommandComplete b input c fail => Sys2Proof.Machine.execLongCommandComplete b input c fail s
  | .nxDevInfo b f => Sys2Proof.Machine.execNxDevInfo b f s
  | .nxDevStatus b f => Sys2Proof.Machine.execNxDevStatus b f s
  | .nxDevService b f => Sys2Proof.Machine.execNxDevService b f s
  | .nxDevReady b f => Sys2Proof.Machine.execNxDevReady b f s
  | .nxDevSelftest b f => Sys2Proof.Machine.execNxDevSelftest b f s
  | .nxDevReset b f x => Sys2Proof.Machine.execNxDevReset b f x s
  | .nxDevHalt b f => Sys2Proof.Machine.execNxDevHalt b f s
  | .nxNegStatus b f => Sys2Proof.Machine.execNxNegStatus b f s
  | .nxDdrFence b f add c => Sys2Proof.Machine.execNxDdrFence b f add c s
  | .nxNevePartition b f p => Sys2Proof.Machine.execNxNevePartition b f p s
  | .nxChanDefine b f l => Sys2Proof.Machine.execNxChanDefine b f l s
  | .nxChanSet b f l => Sys2Proof.Machine.execNxChanSet b f l s
  | .nxChanEnable b f => Sys2Proof.Machine.execNxChanEnable b f s
  | .nxChanStart b f => Sys2Proof.Machine.execNxChanStart b f s
  | .nxChanStop b f => Sys2Proof.Machine.execNxChanStop b f s
  | .nxChanDisable b f => Sys2Proof.Machine.execNxChanDisable b f s
  | .nxChanFree b f => Sys2Proof.Machine.execNxChanFree b f s
  | .nxChanClear b f => Sys2Proof.Machine.execNxChanClear b f s
  | .nxChanGet b f => Sys2Proof.Machine.execNxChanGet b f s
  | .nxChanStats b f => Sys2Proof.Machine.execNxChanStats b f s
  | .nxEcReset b f => Sys2Proof.Machine.execNxEcReset b f s
  | .nxTonePlan b f l => Sys2Proof.Machine.execNxTonePlan b f l s
  | .nxGpiMap b f l => Sys2Proof.Machine.execNxGpiMap b f l s
  | .processingFrameBoundary c => Sys2Proof.Machine.execProcessingFrameBoundary c s
  | .drainEnd c => Sys2Proof.Machine.execDrainEnd c s
  | .nxModLoad b f sig image => Sys2Proof.Machine.execNxModLoad b f sig image s
  | .nxModUnload b f => Sys2Proof.Machine.execNxModUnload b f s
  | .nxModList b f => Sys2Proof.Machine.execNxModList b f s
  | .nxFloeStats b f => Sys2Proof.Machine.execNxFloeStats b f s
  | .bundleIssue f ic iu dc du acts => Sys2Proof.Machine.execBundleIssue f ic iu dc du acts s
  | .workItemStart f ecc => Sys2Proof.Machine.execWorkItemStart f ecc s
  | .canalTransferComplete f k a => Sys2Proof.Machine.execCanalTransferComplete f k a s
  | .imemRewriteDone f => Sys2Proof.Machine.execImemRewriteDone f s
  | .floeCtrlWrite f ice w => Sys2Proof.Machine.execFloeCtrlWrite f ice w s
  | .floeStatusWrite f ice w => Sys2Proof.Machine.execFloeStatusWrite f ice w s
  | .floeGovWrite f hi ice w => Sys2Proof.Machine.execFloeGovWrite f hi ice w s
  | .floeFaultCntRead f => Sys2Proof.Machine.execFloeFaultCntRead f s
  | .floeEccRead f => Sys2Proof.Machine.execFloeEccRead f s
  | .floeRetiredRead f => Sys2Proof.Machine.execFloeRetiredRead f s
  | .floeStallsRead f => Sys2Proof.Machine.execFloeStallsRead f s
  | .flumePush k0 xs => Sys2Proof.Machine.execFlumePush k0 xs s
  | .flumePop k0 ecc => Sys2Proof.Machine.execFlumePop k0 ecc s
  | .flumeEmptyClear k0 ecc => Sys2Proof.Machine.execFlumeEmptyClear k0 ecc s
  | .flumeFullClear k0 => Sys2Proof.Machine.execFlumeFullClear k0 s
  | .flmCeRead a k0 => Sys2Proof.Machine.execFlmCeRead a k0 s
  | .flmUeRead a k0 => Sys2Proof.Machine.execFlmUeRead a k0 s
  | .flmUeWrite a k0 w => Sys2Proof.Machine.execFlmUeWrite a k0 w s
  | .canalStall stop => Sys2Proof.Machine.execCanalStall stop s
  | .workItemAdmit src ecc => Sys2Proof.Machine.execWorkItemAdmit src ecc s
  | .retireRecord f ecc => Sys2Proof.Machine.execRetireRecord f ecc s
  | .govEventRecord f ecc => Sys2Proof.Machine.execGovEventRecord f ecc s
  | .govQueueTake k => Sys2Proof.Machine.execGovQueueTake k s
  | .towpathTick => Sys2Proof.Machine.execTowpathTick s
  | .lkpInjDataWrite r n w => Sys2Proof.Machine.execLkpInjDataWrite r n w s
  | .lkpInjPush r w => Sys2Proof.Machine.execLkpInjPush r w s
  | .lkpInjDropRead r => Sys2Proof.Machine.execLkpInjDropRead r s
  | .lkpPeakRead r group n => Sys2Proof.Machine.execLkpPeakRead r group n s
  | .lkpCountRead r n => Sys2Proof.Machine.execLkpCountRead r n s
  | .lkpDispRead r group => Sys2Proof.Machine.execLkpDispRead r group s
  | .nxLkpMode b f mode => Sys2Proof.Machine.execNxLkpMode b f mode s
  | .nxLkpGroup b f ws ceil => Sys2Proof.Machine.execNxLkpGroup b f ws ceil s
  | .nxLkpTick b f t => Sys2Proof.Machine.execNxLkpTick b f t s
  | .nxLkpPurge b f => Sys2Proof.Machine.execNxLkpPurge b f s
  | .nxLkpStats b f => Sys2Proof.Machine.execNxLkpStats b f s
  | .packetArrival r => Sys2Proof.Machine.execPacketArrival r s
  | .playoutDecision c => Sys2Proof.Machine.execPlayoutDecision c s
  | .stretchInsert c => Sys2Proof.Machine.execStretchInsert c s
  | .bsnDriftLimit c => Sys2Proof.Machine.execBsnDriftLimit c s
  | .slip c => Sys2Proof.Machine.execSlip c s
  | .nxBsnPool b f base size => Sys2Proof.Machine.execNxBsnPool b f base size s
  | .nxBsnStats b f => Sys2Proof.Machine.execNxBsnStats b f s
  | .nxRingDefine b f chan span => Sys2Proof.Machine.execNxRingDefine b f chan span s
  | .nxRingEnable b f => Sys2Proof.Machine.execNxRingEnable b f s
  | .nxRingMark b f m => Sys2Proof.Machine.execNxRingMark b f m s
  | .nxRingRewind b f span => Sys2Proof.Machine.execNxRingRewind b f span s
  | .nxRingRead b f count addr => Sys2Proof.Machine.execNxRingRead b f count addr s
  | .nxRingDisable b f => Sys2Proof.Machine.execNxRingDisable b f s
  | .nxRingFree b f => Sys2Proof.Machine.execNxRingFree b f s
  | .nxRingStats b f => Sys2Proof.Machine.execNxRingStats b f s
  | .blockBoundary late xpUe busUe => Sys2Proof.Machine.execBlockBoundary late xpUe busUe s
  | .jctSliceStatusWrite n w => Sys2Proof.Machine.execJctSliceStatusWrite n w s
  | .jctSliceCountRead n k => Sys2Proof.Machine.execJctSliceCountRead n k s
  | .nxJctBusDefine b f share parent minus => Sys2Proof.Machine.execNxJctBusDefine b f share parent minus s
  | .nxJctBusSet b f share parent minus => Sys2Proof.Machine.execNxJctBusSet b f share parent minus s
  | .nxJctBusEnable b f => Sys2Proof.Machine.execNxJctBusEnable b f s
  | .nxJctBusDisable b f => Sys2Proof.Machine.execNxJctBusDisable b f s
  | .nxJctBusFree b f => Sys2Proof.Machine.execNxJctBusFree b f s
  | .nxJctXpAdd b f src gain ramp => Sys2Proof.Machine.execNxJctXpAdd b f src gain ramp s
  | .nxJctXpSet b f es => Sys2Proof.Machine.execNxJctXpSet b f es s
  | .nxJctXpDelete b f => Sys2Proof.Machine.execNxJctXpDelete b f s
  | .nxJctStats b f => Sys2Proof.Machine.execNxJctStats b f s
  | .sluiceRequest l dom data => Sys2Proof.Machine.execSluiceRequest l dom data s
  | .sluiceRequestDone l coef hist => Sys2Proof.Machine.execSluiceRequestDone l coef hist s
  | .sluSyncEdge skip => Sys2Proof.Machine.execSluSyncEdge skip s
  | .coefRewriteDone l => Sys2Proof.Machine.execCoefRewriteDone l s
  | .sluLaneCtrlWrite l a w => Sys2Proof.Machine.execSluLaneCtrlWrite l a w s
  | .sluCountRead l k => Sys2Proof.Machine.execSluCountRead l k s
  | .sluSyncTickRead hi => Sys2Proof.Machine.execSluSyncTickRead hi s
  | .sluSyncIgnRead => Sys2Proof.Machine.execSluSyncIgnRead s
  | .nxSluStop b f => Sys2Proof.Machine.execNxSluStop b f s
  | .nxSluStart b f => Sys2Proof.Machine.execNxSluStart b f s
  | .nxSluLoad b f profs coefs => Sys2Proof.Machine.execNxSluLoad b f profs coefs s
  | .nxSluCtxBind b f reach prof kind chamber atomic target => Sys2Proof.Machine.execNxSluCtxBind b f reach prof kind chamber atomic target s
  | .nxSluCtxSet b f freeze restart prof => Sys2Proof.Machine.execNxSluCtxSet b f freeze restart prof s
  | .nxSluCtxFree b f => Sys2Proof.Machine.execNxSluCtxFree b f s
  | .nxSluSync b f => Sys2Proof.Machine.execNxSluSync b f s
  | .nxSluStats b f => Sys2Proof.Machine.execNxSluStats b f s
  | .frameReceive n l raw dom dt corr uncorr => Sys2Proof.Machine.execFrameReceive n l raw dom dt corr uncorr s
  | .pauseExpire n dt => Sys2Proof.Machine.execPauseExpire n dt s
  | .frameClassify n ecc ue => Sys2Proof.Machine.execFrameClassify n ecc ue s
  | .flowEntryRewrite e => Sys2Proof.Machine.execFlowEntryRewrite e s
  | .frameRelease n id t => Sys2Proof.Machine.execFrameRelease n id t s
  | .rxDmaPlace n descs => Sys2Proof.Machine.execRxDmaPlace n descs s
  | .txDescriptorFetch g ds => Sys2Proof.Machine.execTxDescriptorFetch g ds s
  | .txLaneMove n c ecc => Sys2Proof.Machine.execTxLaneMove n c ecc s
  | .txAssemblyDeadline n dt => Sys2Proof.Machine.execTxAssemblyDeadline n dt s
  | .frameStart n dt raw dom ue => Sys2Proof.Machine.execFrameStart n dt raw dom ue s
  | .frameSent n => Sys2Proof.Machine.execFrameSent n s
  | .gateIntervalEnd n dt => Sys2Proof.Machine.execGateIntervalEnd n dt s
  | .gateListSwitch n dt => Sys2Proof.Machine.execGateListSwitch n dt s
  | .linkUp n speed fec train => Sys2Proof.Machine.execLinkUp n speed fec train s
  | .linkDown n => Sys2Proof.Machine.execLinkDown n s
  | .ethLinkTimeout n e => Sys2Proof.Machine.execEthLinkTimeout n e s
  | .ethNegRetry n => Sys2Proof.Machine.execEthNegRetry n s
  | .ringTailWrite q w => Sys2Proof.Machine.execRingTailWrite q w s
  | .ringCfgEnWrite q w => Sys2Proof.Machine.execRingCfgEnWrite q w s
  | .ringStatusWrite q w => Sys2Proof.Machine.execRingStatusWrite q w s
  | .ringCountRead q k hi => Sys2Proof.Machine.execRingCountRead q k hi s
  | .quayCounterRead a n k hi mir => Sys2Proof.Machine.execQuayCounterRead a n k hi mir s
  | .nxQuaySet b f l => Sys2Proof.Machine.execNxQuaySet b f l s
  | .nxQuayFilter b f l => Sys2Proof.Machine.execNxQuayFilter b f l s
  | .nxQuayGate b f entries cycle base => Sys2Proof.Machine.execNxQuayGate b f entries cycle base s
  | .nxFlowAdd b f t port vid ipv dst udp src ssrc act tag => Sys2Proof.Machine.execNxFlowAdd b f t port vid ipv dst udp src ssrc act tag s
  | .nxFlowDel b f => Sys2Proof.Machine.execNxFlowDel b f s
  | .nxQuayStats b f => Sys2Proof.Machine.execNxQuayStats b f s
  | .nxRxsDefine b f l => Sys2Proof.Machine.execNxRxsDefine b f l s
  | .nxRxsSet b f l => Sys2Proof.Machine.execNxRxsSet b f l s
  | .nxRxsEnable b f => Sys2Proof.Machine.execNxRxsEnable b f s
  | .nxRxsDisable b f => Sys2Proof.Machine.execNxRxsDisable b f s
  | .nxRxsFree b f => Sys2Proof.Machine.execNxRxsFree b f s
  | .nxRxsStats b f => Sys2Proof.Machine.execNxRxsStats b f s
  | .nxTxsDefine b f l => Sys2Proof.Machine.execNxTxsDefine b f l s
  | .nxTxsSet b f l => Sys2Proof.Machine.execNxTxsSet b f l s
  | .nxTxsEnable b f => Sys2Proof.Machine.execNxTxsEnable b f s
  | .nxTxsDisable b f => Sys2Proof.Machine.execNxTxsDisable b f s
  | .nxTxsFree b f => Sys2Proof.Machine.execNxTxsFree b f s
  | .nxTxsStats b f => Sys2Proof.Machine.execNxTxsStats b f s
  | .weirArrival u ue => Sys2Proof.Machine.execWeirArrival u ue s
  | .weirLegSilent n legB dt => Sys2Proof.Machine.execWeirLegSilent n legB dt s
  | .weirAuthFailReport u => Sys2Proof.Machine.execWeirAuthFailReport u s
  | .weirTxDuplicate u => Sys2Proof.Machine.execWeirTxDuplicate u s
  | .weirContextRebuild n => Sys2Proof.Machine.execWeirContextRebuild n s
  | .weirTdmCountRead k => Sys2Proof.Machine.execWeirTdmCountRead k s
  | .aliveToggle fresh peer => Sys2Proof.Machine.execAliveToggle fresh peer s
  | .peerLost => Sys2Proof.Machine.execPeerLost s
  | .tandemLinkLoss => Sys2Proof.Machine.execTandemLinkLoss s
  | .tandemHelloSend => Sys2Proof.Machine.execTandemHelloSend s
  | .tandemHelloReceive h lane0 lane1 c0 c1 => Sys2Proof.Machine.execTandemHelloReceive h lane0 lane1 c0 c1 s
  | .mirroredCommand t h k0 => Sys2Proof.Machine.execMirroredCommand t h k0 s
  | .mirrorApply => Sys2Proof.Machine.execMirrorApply s
  | .streamEpochRecord n base epoch => Sys2Proof.Machine.execStreamEpochRecord n base epoch s
  | .indexReport marks => Sys2Proof.Machine.execIndexReport marks s
  | .liftChannel c x => Sys2Proof.Machine.execLiftChannel c x s
  | .liftComplete marks => Sys2Proof.Machine.execLiftComplete marks s
  | .liftAbort => Sys2Proof.Machine.execLiftAbort s
  | .drillSwap marks => Sys2Proof.Machine.execDrillSwap marks s
  | .muteEnd => Sys2Proof.Machine.execMuteEnd s
  | .nxTdmSet b f pref => Sys2Proof.Machine.execNxTdmSet b f pref s
  | .nxTdmDrill b f swap period => Sys2Proof.Machine.execNxTdmDrill b f swap period s
  | .nxTdmStats b f => Sys2Proof.Machine.execNxTdmStats b f s
  | .ptpMessage n ecc freq => Sys2Proof.Machine.execPtpMessage n ecc freq s
  | .delayReqSend x => Sys2Proof.Machine.execDelayReqSend x s
  | .servoStateTimeout x => Sys2Proof.Machine.execServoStateTimeout x s
  | .ptpNoGm x => Sys2Proof.Machine.execPtpNoGm x s
  | .switchInstant => Sys2Proof.Machine.execSwitchInstant s
  | .slewEnd => Sys2Proof.Machine.execSlewEnd s
  | .autoSwitch => Sys2Proof.Machine.execAutoSwitch s
  | .mediaTick k0 => Sys2Proof.Machine.execMediaTick k0 s
  | .tbTsqPop a n w => Sys2Proof.Machine.execTbTsqPop a n w s
  | .tbTsqCountRead a n k => Sys2Proof.Machine.execTbTsqCountRead a n k s
  | .tbTodNsRead a x => Sys2Proof.Machine.execTbTodNsRead a x s
  | .tbOffsetAbRead a hi => Sys2Proof.Machine.execTbOffsetAbRead a hi s
  | .tbPpsInNsRead a x => Sys2Proof.Machine.execTbPpsInNsRead a x s
  | .tbPpsInCntRead a x => Sys2Proof.Machine.execTbPpsInCntRead a x s
  | .ppsOutEdge x => Sys2Proof.Machine.execPpsOutEdge x s
  | .ppsInEdge x dt freq => Sys2Proof.Machine.execPpsInEdge x dt freq s
  | .tbRefclkLost => Sys2Proof.Machine.execTbRefclkLost s
  | .nxTbDomainSet b f l => Sys2Proof.Machine.execNxTbDomainSet b f l s
  | .nxTbDomainEnable b f => Sys2Proof.Machine.execNxTbDomainEnable b f s
  | .nxTbDomainDisable b f => Sys2Proof.Machine.execNxTbDomainDisable b f s
  | .nxTbSelect b f mode wait max_ => Sys2Proof.Machine.execNxTbSelect b f mode wait max_ s
  | .nxTbPps b f outEn inEn width comp => Sys2Proof.Machine.execNxTbPps b f outEn inEn width comp s
  | .nxTbSetTod b f sec ns frac => Sys2Proof.Machine.execNxTbSetTod b f sec ns frac s
  | .nxTbStats b f => Sys2Proof.Machine.execNxTbStats b f s
  | .rimeRequest r dom data => Sys2Proof.Machine.execRimeRequest r dom data s
  | .rimeDispatch r ue => Sys2Proof.Machine.execRimeDispatch r ue s
  | .derivationDone r k g => Sys2Proof.Machine.execDerivationDone r k g s
  | .rimeRequestDone r j => Sys2Proof.Machine.execRimeRequestDone r j s
  | .rimeCountRead r k hi => Sys2Proof.Machine.execRimeCountRead r k hi s
  | .nxRimeRootProg b f root key => Sys2Proof.Machine.execNxRimeRootProg b f root key s
  | .nxRimeKeySet b f mode dir kind root label pin value reach => Sys2Proof.Machine.execNxRimeKeySet b f mode dir kind root label pin value reach s
  | .nxRimeKeyClear b f => Sys2Proof.Machine.execNxRimeKeyClear b f s
  | .nxRimeKeyGet b f => Sys2Proof.Machine.execNxRimeKeyGet b f s
  | .nxRimeSet b f strength => Sys2Proof.Machine.execNxRimeSet b f strength s
  | .nxRimeXts b f dec sector => Sys2Proof.Machine.execNxRimeXts b f dec sector s
  | .nxRimeStats b f => Sys2Proof.Machine.execNxRimeStats b f s
  | .firnJob e dom data => Sys2Proof.Machine.execFirnJob e dom data s
  | .firnJobDone e r ue => Sys2Proof.Machine.execFirnJobDone e r ue s
  | .firnCtrlWrite e w => Sys2Proof.Machine.execFirnCtrlWrite e w s
  | .firnCountRead e k hi => Sys2Proof.Machine.execFirnCountRead e k hi s
  | .nxFirnStats b f => Sys2Proof.Machine.execNxFirnStats b f s
  | .sensorRead temps volts periods holdup => Sys2Proof.Machine.execSensorRead temps volts periods holdup s
  | .tempTrip k0 t => Sys2Proof.Machine.execTempTrip k0 t s
  | .voltRange k0 v ms => Sys2Proof.Machine.execVoltRange k0 v ms s
  | .iceLockstep => Sys2Proof.Machine.execIceLockstep s
  | .recoveryDone bad => Sys2Proof.Machine.execRecoveryDone bad s
  | .devHeartbeat => Sys2Proof.Machine.execDevHeartbeat s
  | .islandSlow d => Sys2Proof.Machine.execIslandSlow d s
  | .ablationCheck slow proj => Sys2Proof.Machine.execAblationCheck slow proj s
  | .ploughRead m w e changed => Sys2Proof.Machine.execPloughRead m w e changed s
  | .soundingRetrain c ok => Sys2Proof.Machine.execSoundingRetrain c ok s
  | .soundingCalibrate => Sys2Proof.Machine.execSoundingCalibrate s
  | .driftSnapshot margin => Sys2Proof.Machine.execDriftSnapshot margin s
  | .strataSample p x skip => Sys2Proof.Machine.execStrataSample p x skip s
  | .strCntRead a p hi => Sys2Proof.Machine.execStrCntRead a p hi s
  | .nxStrProbe b f x => Sys2Proof.Machine.execNxStrProbe b f x s
  | .nxStrRead b f => Sys2Proof.Machine.execNxStrRead b f s
  | .alarmSecond => Sys2Proof.Machine.execAlarmSecond s
  | .logSecond => Sys2Proof.Machine.execLogSecond s
  | .logFlush r k => Sys2Proof.Machine.execLogFlush r k s
  | .holdupRecheck v => Sys2Proof.Machine.execHoldupRecheck v s
  | .flashOpDone ok => Sys2Proof.Machine.execFlashOpDone ok s
  | .pwrfailNFall => Sys2Proof.Machine.execPwrfailNFall s
  | .pwrfailNRise => Sys2Proof.Machine.execPwrfailNRise s
  | .nxIceSensors b f snap => Sys2Proof.Machine.execNxIceSensors b f snap s
  | .nxIceLogRead b f kind first count => Sys2Proof.Machine.execNxIceLogRead b f kind first count s
  | .nxIceLogSet b f l => Sys2Proof.Machine.execNxIceLogSet b f l s
  | .nxIceHoldup b f p => Sys2Proof.Machine.execNxIceHoldup b f p s
  | .nxFwUpdate b f ice size v => Sys2Proof.Machine.execNxFwUpdate b f ice size v s
  | .nxFwActivate b f => Sys2Proof.Machine.execNxFwActivate b f s
  | .nxKeyEnroll b f good c => Sys2Proof.Machine.execNxKeyEnroll b f good c s
  | .nxLportSet b f l => Sys2Proof.Machine.execNxLportSet b f l s
  | .nxLportStats b f => Sys2Proof.Machine.execNxLportStats b f s
  | .tdmFrame n ws b w m => Sys2Proof.Machine.execTdmFrame n ws b w m s
  | .lportNoClock n => Sys2Proof.Machine.execLportNoClock n s
  | .lportUnlocked n => Sys2Proof.Machine.execLportUnlocked n s
  | .tapGather => Sys2Proof.Machine.execTapGather s
  | .tapFrameSend => Sys2Proof.Machine.execTapFrameSend s
  | .tapFrameReceive good now loud vals => Sys2Proof.Machine.execTapFrameReceive good now loud vals s
  | .usageLinkClose now => Sys2Proof.Machine.execUsageLinkClose now s
  | .selectionReceive now => Sys2Proof.Machine.execSelectionReceive now s
  | .selectionAck => Sys2Proof.Machine.execSelectionAck s
  | .selectionRetry => Sys2Proof.Machine.execSelectionRetry s
  | .measureInterval now order => Sys2Proof.Machine.execMeasureInterval now order s
  | .nivoSealNChange low now cause => Sys2Proof.Machine.execNivoSealNChange low now cause s
  | .nivoUpdNChange low now cause => Sys2Proof.Machine.execNivoUpdNChange low now cause s
  | .nivoFirmwareActivate starts now => Sys2Proof.Machine.execNivoFirmwareActivate starts now s
  | .nivoHoldupLow now => Sys2Proof.Machine.execNivoHoldupLow now s
  | .nivoPowerOn now => Sys2Proof.Machine.execNivoPowerOn now s
  | .nivoDieFault tap core level mac stage cell => Sys2Proof.Machine.execNivoDieFault tap core level mac stage cell s
  | .nivoI2cSeqSelect q => Sys2Proof.Machine.execNivoI2cSeqSelect q s
  | .nivoStatePoll lock soon => Sys2Proof.Machine.execNivoStatePoll lock soon s
  | .nxNivoTap b f t => Sys2Proof.Machine.execNxNivoTap b f t s
  | .nxNivoInfo b f => Sys2Proof.Machine.execNxNivoInfo b f s
  | .iceSramUe w => Sys2Proof.Machine.execIceSramUe w s
  | .modUsIntervalEnd src => Sys2Proof.Machine.execModUsIntervalEnd src s
  | .nivoI2cUpdateWrite w now => Sys2Proof.Machine.execNivoI2cUpdateWrite w now s

end Sys2Proof.Machine
end

