-- ==== Sys2Proof/Safety.lean ====
section
/-! DEFINITION. What a sound state and a sound outcome are, in the terms claims use. -/

namespace Sys2Proof.Machine

/-- The memories are in canonical form: addresses rising, no entry equal to what an unlisted one reads as. -/
def Memory.wf (s : State) : Bool :=
  tabWf 0 s.hostMem && tabWf 0 s.nx.berthMem && tabWf 0 s.fab.ddr && tabWf 0 s.fab.neve
    && s.fmem.all fun m => tabWf 0 m.2.dmem && tabWf 0 m.2.imem

/-- An outcome is a next state that satisfies P. -/
def Answers (o : Out) (P : State → Prop) : Prop :=
  match o with
  | .next s => P s
  | _ => False

/-- The device beside its reports: everything but the records on their way out (alarm, log and trace lanes, batches for the
flash, unit and channel events, completions waiting), where the ring stands, the host memory and berths they are written
to, and the interrupts they raise. Two states that agree here differ in reports alone. -/
def State.inside (s : State) : State :=
  { s with
    hostMem := []
    msix := { s.msix with pendBits := [], sent := [], heldMsgs := [] }
    modu := Moderation.reset
    nx := { s.nx with berthMem := [], busy := [], cplTail := 0, cplPhase := false, waiting := [], unitQ := [],
                      chanQ := [], seqChan := 0, seqUnit := 0, seqAlarm := 0, seqLog := 0 }
    ice := { s.ice with lanes := Lanes.reset, flash := { s.ice.flash with batches := [] } } }

/-- An outcome is what settling makes of a state that satisfies P: its reports move as far as they can. -/
def Settles (o : Out) (P : State → Prop) : Prop := ∃ u, o = .next (settle u) ∧ P u

/-- An outcome is a next state that agrees with u but for reports. -/
def Gives (o : Out) (u : State) : Prop := Answers o fun t => t.inside = u.inside

/-- Berth b shows a status and a reply of its own (R456, R461). -/
def berthShows (t : State) (b status : Nat) (r : List Byte) : Prop :=
  berthNum t b 6 2 = status ∧ berthNum t b 14 2 = r.length ∧
    readBytes t.nx.berthMem (b * berthSize t + 16) r.length = r

/-- An outcome is a next state that agrees with u but for reports, with status 0 and the reply r in berth b. -/
def Replies (o : Out) (u : State) (b : Nat) (r : List Byte) : Prop :=
  Answers o fun t => t.inside = u.inside ∧ berthShows t b 0 r

/-- Berth b holds the command sp, is the one to execute now, passes checks 1 to 5, can read its input and write its reply, and
is not one that Tandem leaves for a later boundary. -/
def nxDirect (sp : NxSpec) (b : Nat) (f : Fmt) (s : State) : Bool :=
  nxAccepted sp b f s && f.outFail.isNone && !(sp.prot (nxAt s b) (hdrOf s b).idx && s.tdm.st = .primary)

/-- As nxDirect, and the reply goes into the berth's payload, where n bytes fit (R462). -/
def nxInBerth (sp : NxSpec) (b : Nat) (f : Fmt) (s : State) (n : Nat) : Bool :=
  nxDirect sp b f s && !(hdrOf s b).dma && decide (n ≤ payloadMax s)

/-- As nxDirect, and a reply of n bytes fits its place, the berth's payload or the reply's host memory (R462). -/
def nxFits (sp : NxSpec) (b : Nat) (f : Fmt) (s : State) (n : Nat) : Bool :=
  nxDirect sp b f s && replyFits s (hdrOf s b) n

/-- An outcome is u with the command's completion made, of status 0 and the reply r, written into its place (R461, R462). -/
def Completes (o : Out) (sp : NxSpec) (u : State) (b : Nat) (h : NxHdr) (r : List Byte) : Prop :=
  let v := if sp.audit then audit u h 0 else u
  o = .next (settle (complete v b h 0 (objState v h.cls h.idx) noObj 0 r))

/-- OBJECT's index in berth b. -/
def objIdx (s : State) (b : Nat) : Nat := (hdrOf s b).idx

/-- The foremost item of a work item source whose turn it is, as its bank reads it, and the state without it (R179, R183, R196,
R199). -/
def foremost (s : State) (ecc : List Ecc) (src : AdmitSrc) : Option (State × Held) :=
  if src.bank < 8 ∧ admitTurn s src = true then
    match srcPop s src ecc with
    | some (x, v) => if x.side = 0 then some (v, { it := x.item, from_ := src.producer x }) else none
    | none => none
  else none

/-- The berth, the row's own operands and the catalogue row of a Norux command; none for the other rows of the table
(R474, R482). -/
def nxSpecOf : Instr → Option (Nat × Fmt × NxSpec)
  | .nxDevInfo b f => some (b, f, spNxDevInfo)
  | .nxDevStatus b f => some (b, f, spNxDevStatus)
  | .nxDevService b f => some (b, f, spNxDevService)
  | .nxDevReady b f => some (b, f, spNxDevReady)
  | .nxDevSelftest b f => some (b, f, spNxDevSelftest)
  | .nxDevReset b f _ => some (b, f, devResetSpec)
  | .nxDevHalt b f => some (b, f, spNxDevHalt)
  | .nxNegStatus b f => some (b, f, spNxNegStatus)
  | .nxDdrFence b f _ _ => some (b, f, spNxDdrFence)
  | .nxNevePartition b f _ => some (b, f, spNxNevePartition)
  | .nxChanDefine b f l => some (b, f, spNxChanDefine l)
  | .nxChanSet b f l => some (b, f, spNxChanSet l)
  | .nxChanEnable b f => some (b, f, spNxChanEnable)
  | .nxChanStart b f => some (b, f, spNxChanStart)
  | .nxChanStop b f => some (b, f, spNxChanStop)
  | .nxChanDisable b f => some (b, f, spNxChanDisable)
  | .nxChanFree b f => some (b, f, spNxChanFree)
  | .nxChanClear b f => some (b, f, spNxChanClear)
  | .nxChanGet b f => some (b, f, spNxChanGet)
  | .nxChanStats b f => some (b, f, spNxChanStats)
  | .nxEcReset b f => some (b, f, spNxEcReset)
  | .nxTonePlan b f _ => some (b, f, spNxTonePlan)
  | .nxGpiMap b f _ => some (b, f, spNxGpiMap)
  | .nxModLoad b f _ _ => some (b, f, spNxModLoad)
  | .nxModUnload b f => some (b, f, spNxModUnload)
  | .nxModList b f => some (b, f, spNxModList)
  | .nxFloeStats b f => some (b, f, spNxFloeStats)
  | .nxLkpMode b f _ => some (b, f, spNxLkpMode)
  | .nxLkpGroup b f _ _ => some (b, f, spNxLkpGroup)
  | .nxLkpTick b f _ => some (b, f, spNxLkpTick)
  | .nxLkpPurge b f => some (b, f, spNxLkpPurge)
  | .nxLkpStats b f => some (b, f, spNxLkpStats)
  | .nxBsnPool b f _ _ => some (b, f, spNxBsnPool)
  | .nxBsnStats b f => some (b, f, spNxBsnStats)
  | .nxRingDefine b f _ _ => some (b, f, spNxRingDefine)
  | .nxRingEnable b f => some (b, f, spNxRingEnable)
  | .nxRingMark b f _ => some (b, f, spNxRingMark)
  | .nxRingRewind b f _ => some (b, f, spNxRingRewind)
  | .nxRingRead b f _ _ => some (b, f, spNxRingRead)
  | .nxRingDisable b f => some (b, f, spNxRingDisable)
  | .nxRingFree b f => some (b, f, spNxRingFree)
  | .nxRingStats b f => some (b, f, spNxRingStats)
  | .nxJctBusDefine b f _ _ _ => some (b, f, spNxJctBusDefine)
  | .nxJctBusSet b f _ _ _ => some (b, f, spNxJctBusSet)
  | .nxJctBusEnable b f => some (b, f, spNxJctBusEnable)
  | .nxJctBusDisable b f => some (b, f, spNxJctBusDisable)
  | .nxJctBusFree b f => some (b, f, spNxJctBusFree)
  | .nxJctXpAdd b f _ _ _ => some (b, f, spNxJctXpAdd)
  | .nxJctXpSet b f _ => some (b, f, spNxJctXpSet)
  | .nxJctXpDelete b f => some (b, f, spNxJctXpDelete)
  | .nxJctStats b f => some (b, f, spNxJctStats)
  | .nxSluStop b f => some (b, f, spNxSluStop)
  | .nxSluStart b f => some (b, f, spNxSluStart)
  | .nxSluLoad b f _ _ => some (b, f, spNxSluLoad)
  | .nxSluCtxBind b f _ _ _ _ _ _ => some (b, f, spNxSluCtxBind)
  | .nxSluCtxSet b f _ _ _ => some (b, f, spNxSluCtxSet)
  | .nxSluCtxFree b f => some (b, f, spNxSluCtxFree)
  | .nxSluSync b f => some (b, f, spNxSluSync)
  | .nxSluStats b f => some (b, f, spNxSluStats)
  | .nxQuaySet b f _ => some (b, f, spNxQuaySet)
  | .nxQuayFilter b f _ => some (b, f, spNxQuayFilter)
  | .nxQuayGate b f _ _ _ => some (b, f, spNxQuayGate)
  | .nxFlowAdd b f _ _ _ _ _ _ _ _ _ _ => some (b, f, spNxFlowAdd)
  | .nxFlowDel b f => some (b, f, spNxFlowDel)
  | .nxQuayStats b f => some (b, f, spNxQuayStats)
  | .nxRxsDefine b f l => some (b, f, spNxRxsDefine l)
  | .nxRxsSet b f l => some (b, f, spNxRxsSet l)
  | .nxRxsEnable b f => some (b, f, spNxRxsEnable)
  | .nxRxsDisable b f => some (b, f, spNxRxsDisable)
  | .nxRxsFree b f => some (b, f, spNxRxsFree)
  | .nxRxsStats b f => some (b, f, spNxRxsStats)
  | .nxTxsDefine b f l => some (b, f, spNxTxsDefine l)
  | .nxTxsSet b f l => some (b, f, spNxTxsSet l)
  | .nxTxsEnable b f => some (b, f, spNxTxsEnable)
  | .nxTxsDisable b f => some (b, f, spNxTxsDisable)
  | .nxTxsFree b f => some (b, f, spNxTxsFree)
  | .nxTxsStats b f => some (b, f, spNxTxsStats)
  | .nxTdmSet b f _ => some (b, f, spNxTdmSet)
  | .nxTdmDrill b f _ _ => some (b, f, spNxTdmDrill)
  | .nxTdmStats b f => some (b, f, spNxTdmStats)
  | .nxTbDomainSet b f _ => some (b, f, spNxTbDomainSet)
  | .nxTbDomainEnable b f => some (b, f, spNxTbDomainEnable)
  | .nxTbDomainDisable b f => some (b, f, spNxTbDomainDisable)
  | .nxTbSelect b f _ _ _ => some (b, f, spNxTbSelect)
  | .nxTbPps b f _ _ _ _ => some (b, f, spNxTbPps)
  | .nxTbSetTod b f _ _ _ => some (b, f, spNxTbSetTod)
  | .nxTbStats b f => some (b, f, spNxTbStats)
  | .nxRimeRootProg b f _ _ => some (b, f, spNxRimeRootProg)
  | .nxRimeKeySet b f _ _ _ _ _ _ _ _ => some (b, f, spNxRimeKeySet)
  | .nxRimeKeyClear b f => some (b, f, spNxRimeKeyClear)
  | .nxRimeKeyGet b f => some (b, f, spNxRimeKeyGet)
  | .nxRimeSet b f _ => some (b, f, spNxRimeSet)
  | .nxRimeXts b f _ _ => some (b, f, spNxRimeXts)
  | .nxRimeStats b f => some (b, f, spNxRimeStats)
  | .nxFirnStats b f => some (b, f, spNxFirnStats)
  | .nxStrProbe b f _ => some (b, f, spNxStrProbe)
  | .nxStrRead b f => some (b, f, spNxStrRead)
  | .nxIceSensors b f _ => some (b, f, spNxIceSensors)
  | .nxIceLogRead b f _ _ _ => some (b, f, spNxIceLogRead)
  | .nxIceLogSet b f l => some (b, f, spNxIceLogSet l)
  | .nxIceHoldup b f _ => some (b, f, spNxIceHoldup)
  | .nxFwUpdate b f _ _ _ => some (b, f, spNxFwUpdate)
  | .nxFwActivate b f => some (b, f, fwActivateSpec)
  | .nxKeyEnroll b f _ _ => some (b, f, spNxKeyEnroll)
  | .nxLportSet b f _ => some (b, f, spNxLportSet)
  | .nxLportStats b f => some (b, f, spNxLportStats)
  | .nxNivoTap b f _ => some (b, f, spNxNivoTap)
  | .nxNivoInfo b f => some (b, f, spNxNivoInfo)
  | .resetNRise _ _ _ _ => none
  | .resetNFall _ => none
  | .selftestDone _ _ _ _ => none
  | .pcieLinkChange _ _ _ _ _ => none
  | .busMasterEnableChange _ => none
  | .functionLevelReset0 _ => none
  | .bar0UnmappedAccess _ _ _ => none
  | .registerWrite _ _ _ => none
  | .berthWrite _ _ => none
  | .nxDoorbell _ _ => none
  | .nxCplCfgEnWrite _ => none
  | .nxCplHeadWrite _ => none
  | .msixUnmask _ => none
  | .longCommandComplete _ _ _ _ => none
  | .processingFrameBoundary _ => none
  | .drainEnd _ => none
  | .bundleIssue _ _ _ _ _ _ => none
  | .workItemStart _ _ => none
  | .canalTransferComplete _ _ _ => none
  | .imemRewriteDone _ => none
  | .floeCtrlWrite _ _ _ => none
  | .floeStatusWrite _ _ _ => none
  | .floeGovWrite _ _ _ _ => none
  | .flumePush _ _ => none
  | .flumePop _ _ => none
  | .flumeEmptyClear _ _ => none
  | .flumeFullClear _ => none
  | .flmUeWrite _ _ _ => none
  | .canalStall _ => none
  | .workItemAdmit _ _ => none
  | .retireRecord _ _ => none
  | .govEventRecord _ _ => none
  | .govQueueTake _ => none
  | .lkpInjDataWrite _ _ _ => none
  | .lkpInjPush _ _ => none
  | .packetArrival _ => none
  | .playoutDecision _ => none
  | .stretchInsert _ => none
  | .bsnDriftLimit _ => none
  | .slip _ => none
  | .blockBoundary _ _ _ => none
  | .jctSliceStatusWrite _ _ => none
  | .sluiceRequest _ _ _ => none
  | .sluiceRequestDone _ _ _ => none
  | .sluSyncEdge _ => none
  | .coefRewriteDone _ => none
  | .sluLaneCtrlWrite _ _ _ => none
  | .frameReceive _ _ _ _ _ _ _ => none
  | .pauseExpire _ _ => none
  | .frameClassify _ _ _ => none
  | .flowEntryRewrite _ => none
  | .frameRelease _ _ _ => none
  | .rxDmaPlace _ _ => none
  | .txDescriptorFetch _ _ => none
  | .txLaneMove _ _ _ => none
  | .txAssemblyDeadline _ _ => none
  | .frameStart _ _ _ _ _ => none
  | .frameSent _ => none
  | .gateIntervalEnd _ _ => none
  | .gateListSwitch _ _ => none
  | .linkUp _ _ _ _ => none
  | .linkDown _ => none
  | .ethLinkTimeout _ _ => none
  | .ethNegRetry _ => none
  | .ringTailWrite _ _ => none
  | .ringCfgEnWrite _ _ => none
  | .ringStatusWrite _ _ => none
  | .weirArrival _ _ => none
  | .weirLegSilent _ _ _ => none
  | .weirAuthFailReport _ => none
  | .weirTxDuplicate _ => none
  | .weirContextRebuild _ => none
  | .aliveToggle _ _ => none
  | .tandemHelloReceive _ _ _ _ _ => none
  | .mirroredCommand _ _ _ => none
  | .streamEpochRecord _ _ _ => none
  | .indexReport _ => none
  | .liftChannel _ _ => none
  | .liftComplete _ => none
  | .drillSwap _ => none
  | .ptpMessage _ _ _ => none
  | .delayReqSend _ => none
  | .servoStateTimeout _ => none
  | .ptpNoGm _ => none
  | .mediaTick _ => none
  | .tbTsqPop _ _ _ => none
  | .ppsOutEdge _ => none
  | .ppsInEdge _ _ _ => none
  | .rimeRequest _ _ _ => none
  | .rimeDispatch _ _ => none
  | .derivationDone _ _ _ => none
  | .rimeRequestDone _ _ => none
  | .firnJob _ _ _ => none
  | .firnJobDone _ _ _ => none
  | .firnCtrlWrite _ _ => none
  | .sensorRead _ _ _ _ => none
  | .tempTrip _ _ => none
  | .voltRange _ _ _ => none
  | .recoveryDone _ => none
  | .islandSlow _ => none
  | .ablationCheck _ _ => none
  | .ploughRead _ _ _ _ => none
  | .soundingRetrain _ _ => none
  | .driftSnapshot _ => none
  | .strataSample _ _ _ => none
  | .logFlush _ _ => none
  | .holdupRecheck _ => none
  | .flashOpDone _ => none
  | .tdmFrame _ _ _ _ _ => none
  | .lportNoClock _ => none
  | .lportUnlocked _ => none
  | .tapFrameReceive _ _ _ _ => none
  | .usageLinkClose _ => none
  | .selectionReceive _ => none
  | .measureInterval _ _ => none
  | .nivoSealNChange _ _ _ => none
  | .nivoUpdNChange _ _ _ => none
  | .nivoFirmwareActivate _ _ => none
  | .nivoHoldupLow _ => none
  | .nivoPowerOn _ => none
  | .nivoDieFault _ _ _ _ _ _ => none
  | .nivoI2cSeqSelect _ => none
  | .nivoStatePoll _ _ => none
  | .iceSramUe _ => none
  | .modUsIntervalEnd _ => none
  | .nivoI2cUpdateWrite _ _ => none
  | .function1Write _ _ => none
  | .nxCountRead _ => none
  | .floeFaultCntRead _ => none
  | .floeEccRead _ => none
  | .floeRetiredRead _ => none
  | .floeStallsRead _ => none
  | .flmCeRead _ _ => none
  | .flmUeRead _ _ => none
  | .lkpInjDropRead _ => none
  | .lkpPeakRead _ _ _ => none
  | .lkpCountRead _ _ => none
  | .lkpDispRead _ _ => none
  | .jctSliceCountRead _ _ => none
  | .sluCountRead _ _ => none
  | .sluSyncTickRead _ => none
  | .ringCountRead _ _ _ => none
  | .quayCounterRead _ _ _ _ _ => none
  | .weirTdmCountRead _ => none
  | .tbTsqCountRead _ _ _ => none
  | .tbTodNsRead _ _ => none
  | .tbOffsetAbRead _ _ => none
  | .tbPpsInNsRead _ _ => none
  | .tbPpsInCntRead _ _ => none
  | .rimeCountRead _ _ _ => none
  | .firnCountRead _ _ _ => none
  | .strCntRead _ _ _ => none
  | .pciePerstN => none
  | .functionLevelReset1 => none
  | .devUnmappedRead => none
  | .towpathTick => none
  | .sluSyncIgnRead => none
  | .peerLost => none
  | .tandemLinkLoss => none
  | .tandemHelloSend => none
  | .mirrorApply => none
  | .liftAbort => none
  | .muteEnd => none
  | .switchInstant => none
  | .slewEnd => none
  | .autoSwitch => none
  | .tbRefclkLost => none
  | .iceLockstep => none
  | .devHeartbeat => none
  | .soundingCalibrate => none
  | .alarmSecond => none
  | .logSecond => none
  | .pwrfailNFall => none
  | .pwrfailNRise => none
  | .tapGather => none
  | .tapFrameSend => none
  | .selectionAck => none
  | .selectionRetry => none

end Sys2Proof.Machine
end

