-- ==== Sys2Proof/Certificates/Slice0/Obligations.lean ====
section
/-! DEFINITION. The statements for the provers. -/

open Sys2Proof Sys2Proof.Machine

/-! ## The block and its host interface (chapters 00, 15) -/

/-- A step takes the command at the front of the queue and runs it with the queue's rest; with an empty queue the block idles
(log 2, a choice of the model's). -/
def Obligations.StepRunsFront : Prop :=
  (∀ (c : Instr) (s : State) (l : List Instr), step { s with pending := c :: l } = exec c { s with pending := l }) ∧
  ∀ s : State, s.pending = [] → step s = .next s

/-- The state before the first reset: the DEV and completion ring registers at their reset values (R15, R453), the default Névé
partition sizes (R44), the default hold-up and log parameters (R544, R549), every channel, ring and bus FREE and every key slot EMPTY,
no Floe running, nothing listed in any memory and no command waiting. What an unlisted byte reads as is a choice (log 3). -/
def Obligations.ResetValues : Prop :=
  let s := State.reset
  s.dev.devState = .boot ∧ s.dev.nxUp = false ∧ s.dev.rcvDone = false ∧ s.dev.heartbeat = 0 ∧ s.dev.unmapped = 0 ∧
  s.dev.scratch = 0 ∧ quayBits s = 0xF ∧ floesLive s = 0 ∧
  s.nx.cplBase = 0 ∧ s.nx.cplEn = false ∧ s.nx.cplVector = 0 ∧ s.nx.cplModUs = 0 ∧ s.nx.cplLog2 = 7 ∧ s.nx.cplTail = 0 ∧
  s.nx.cplHead = 0 ∧ s.nx.cplReason = 0 ∧ s.nx.busy = [] ∧ s.nx.dbBusy = 0 ∧ s.nx.berthDrop = 0 ∧
  s.fab.parts = [8192, 4096, 8192, 2048, 4096, 2048, 4096] ∧
  (∀ c, (chanOf s c).st = .free) ∧ (∀ r, (ringOf s r).st = .free) ∧ (∀ b, (busOf s b).st = .free) ∧
  s.ice.hold = { c := 470000, vmin := 30000, hdiv := 5000, margin := 2000, pHold := 500, tPage := 3000, tErase4 := 400000,
                 tErase64 := 2000000 } ∧
  s.ice.params = { ringEn := true, syslogEn := false, tlmEn := false, flashEn := true, sevRing := 6, sevSyslog := 6, sevFlash := 6,
                   mgmtAddr := none, syslogDest := none, tlmDest := none, drift := 1000, traceMask := 0, traceFlash := false,
                   flush := 10 } ∧
  (∀ k, (slotOf s k).st = .empty) ∧ (∀ f, (floeOf s f).run = false) ∧
  s.hostMem = [] ∧ s.fab.neve = [] ∧ s.fab.ddr = [] ∧ s.nx.berthMem = [] ∧ s.pending = []

/-- The state before the first reset has its memories in canonical form. -/
def Obligations.ResetMemory : Prop :=
  Memory.wf State.reset = true

/-- Every step keeps the memories (host memory, berths, LPDDR5X, Névé, each Floe's data and instructions) in canonical form, so that equal memories are equal
data; from every state, not only from reset. -/
def Obligations.MemoryInvariant : Prop :=
  ∀ s t : State, Memory.wf s = true → step s = .next t → Memory.wf t = true

/-- A Norux command whose berth is not the one to execute has no effect: berths are executed in the order of their doorbells, and a
doorbell rung while the interpreter is down is kept (R459). A write of a doorbell register rings the berths whose bits are 1, in ascending
number, behind those rung before; each becomes busy. Writes of a busy berth are discarded and counted, and never reach the command: no
byte of a busy berth changes, nor STATUS and RLEN of any; a write touching one is counted once in NX_BERTH_DROP. A byte of a berth that is
not busy is stored. A doorbell of a busy berth is ignored and counted. -/
def Obligations.BerthDoorbells : Prop :=
  (∀ (i : Instr) (b : Nat) (f : Fmt) (sp : NxSpec) (s : State), nxSpecOf i = some (b, f, sp) →
     nxReady s b = false → exec i s = .next s) ∧
  (∀ (hi : Bool) (w : Word) (s : State), s.dev.inReset = false → (hi = true → s.dev.compatQ48 = false) →
     (∀ i, i < 32 → s.nx.busy.contains (if hi then 32 + i else i) = false) →
     let bs := ((nums 32).filter fun i => w.getLsbD i).map fun i => if hi then 32 + i else i
     Settles (exec (.nxDoorbell hi w) s) fun u =>
       u = { s with nx := { s.nx with busy := s.nx.busy ++ bs, rung := s.nx.rung ++ bs } }) ∧
  ((∀ (o : Nat) (l : List Byte) (s : State), s.dev.inReset = false → accessOk true (0x10000 + o) l.length = true →
     let n := if touchesBusy s o l.length then sat32 (s.nx.berthDrop + 1) else s.nx.berthDrop
     Answers (exec (.berthWrite o l) s) fun t => t.inside = { s with nx := { s.nx with berthDrop := n } }.inside ∧
       ∀ a, tabGet 0 t.nx.berthMem a =
         if o ≤ a ∧ a < o + l.length ∧ s.nx.busy.contains (a / berthSize s) = false ∧ a / berthSize s < berthCount s ∧
           ¬ ([6, 7, 14, 15] : List Nat).contains (a % berthSize s)
         then l.getD (a - o) 0 else tabGet 0 s.nx.berthMem a) ∧
   ∀ (b : Nat) (s : State), s.nx.busy.contains b = true →
     ringBerth s b = { s with nx := { s.nx with dbBusy := sat32 (s.nx.dbBusy + 1) } })

/-- A Norux command that one of the checks 1 to 5 turns away leaves nothing behind but its audit record, its trace and its completion: the
berth shows the code and no reply. The order of checks 1 to 4: an opcode in no row of the catalogue is refused with 0x0101, whatever else
the berth holds; an OBJECT of another class than the command's row, or an index outside the class's range, with 0x0103, only a LEN fault
coming before it; a device state or object state in which the command is not legal with 0x0201, the checks before it being passed. A
Junction command at the instant of a block boundary is left out here: it may wait for that boundary first (R263). -/
def Obligations.CommandChecks : Prop :=
  (∀ (i : Instr) (b : Nat) (f : Fmt) (sp : NxSpec) (s : State) (c : Nat), nxSpecOf i = some (b, f, sp) →
     (blockDue s = true → sp.opcode / 256 ≠ 5) → nxTaken sp b s = true → judge (nxAt s b) sp f (hdrOf s b) = some c →
     Answers (exec i s) fun t => t.inside = (takeBell s).inside ∧ ((hdrOf s b).dma = false → berthShows t b c [])) ∧
  ((∀ (i : Instr) (b : Nat) (f : Fmt) (sp : NxSpec) (s : State), nxSpecOf i = some (b, f, sp) →
     (blockDue s = true → sp.opcode / 256 ≠ 5) → nxReady s b = true → inputOk s (hdrOf s b) = true → opcodes.contains (hdrOf s b).opcode = false →
     Answers (exec i s) fun t => t.inside = (takeBell s).inside ∧ ((hdrOf s b).dma = false → berthShows t b 0x0101 [])) ∧
   ∀ (s : State) (sp : NxSpec) (f : Fmt) (h : NxHdr),
     (h.len ≤ payloadMax s → (h.dma = true → h.len = 24) → f.lenOk = true →
       (h.cls ≠ sp.cls ∨ idxOk h.opcode h.cls h.idx = false) → judge s sp f h = some 0x0103) ∧
     (fmtCheck s sp f h = none → ¬ ((h.opcode / 256 = 0x0B ∨ sp.rime = true) ∧ s.dev.variant = .me) →
       ¬ (h.opcode / 256 = 0x0F ∧ s.dev.variant = .nx) → (s.tdm.st = .standby → sp.prot s h.idx = false) →
       (sp.states.contains s.dev.devState = false ∨ sp.legal s h.idx = false) → judge s sp f h = some 0x0201))

/-- A completion entry: 32 bytes at TAIL, laid out as R465 gives them with PHASE in bit 0 of FLAGS; TAIL advances and wraps, PHASE turns
at the wrap, and no byte of host memory outside the entry changes (R464). Completions waiting for an entry stay in their order, and none
is lost: each is delivered or still waits (R461, R467). Setting EN of the completion ring while it is stopped: with the base aligned to 4
KiB and LOG2SIZE from 7 to 16 it starts with TAIL and HEAD 0 and PHASE 1; otherwise EN stays 0 and REASON reads 0x0107. Clearing it stops
the ring. Only MOD_US is written while it runs. -/
def Obligations.CompletionRing : Prop :=
  (∀ (s : State) (c : Cpl), s.nx.cplEn = true → c.dma = none →
     let t := deliver s c
     let a := s.nx.cplBase.toNat + 32 * s.nx.cplTail
     readBytes t.hostMem a 32 =
       [1, if s.nx.cplPhase then 1 else 0, BitVec.ofNat 8 c.berth, 0] ++ leBytes c.tag.toNat 2 ++ leBytes c.status 2 ++
       leBytes c.opcode 2 ++ leBytes c.objState 1 ++ leBytes c.devState.no 1 ++ leBytes c.object.toNat 4 ++
       leBytes c.detailObj.toNat 4 ++ leBytes c.detail.toNat 4 ++ leBytes c.replyLen 2 ++ [0, 0, 0, 0, 0, 0] ∧
     t.nx.cplTail = (s.nx.cplTail + 1) % 2 ^ s.nx.cplLog2 ∧
     t.nx.cplPhase = (if t.nx.cplTail = 0 then !s.nx.cplPhase else s.nx.cplPhase) ∧
     t.nx.busy.contains c.berth = false ∧
     ∀ x, x < a ∨ a + 32 ≤ x → tabGet 0 t.hostMem x = tabGet 0 s.hostMem x) ∧
  (∀ s : State, ∃ l, s.nx.waiting = l ++ (settle s).nx.waiting ∧
     ∀ c, c ∈ l → ((settle s).nx.busy.contains c.berth = false)) ∧
  (∀ (w : Word) (s : State), barLive s .host = true →
     let lg := bitsOf w.toNat 4 0
     let n := { s.nx with cplModUs := bitsOf w.toNat 15 6, cplVector := bitsOf w.toNat 23 16, cplLog2 := lg }
     (s.nx.cplEn = false → w.getLsbD 31 = true → (s.nx.cplBase.toNat % 4096 = 0 ∧ 7 ≤ lg ∧ lg ≤ 16) →
       Settles (exec (.nxCplCfgEnWrite w) s) fun u =>
         u = { s with nx := { n with cplEn := true, cplTail := 0, cplHead := 0, cplPhase := true, cplReason := 0 } }) ∧
     (s.nx.cplEn = false → w.getLsbD 31 = true → ¬ (s.nx.cplBase.toNat % 4096 = 0 ∧ 7 ≤ lg ∧ lg ≤ 16) →
       Settles (exec (.nxCplCfgEnWrite w) s) fun u => u = { s with nx := { n with cplReason := 0x0107 } }) ∧
     (s.nx.cplEn = true →
       Settles (exec (.nxCplCfgEnWrite w) s) fun u =>
         u = { s with nx := { s.nx with cplModUs := bitsOf w.toNat 15 6, cplEn := w.getLsbD 31 } }) ∧
     (Answers (exec (.nxCplHeadWrite w) s) fun t =>
       t.nx.cplHead = if w.toNat % 65536 < 2 ^ s.nx.cplLog2 then w.toNat % 65536 else s.nx.cplHead))

/-- The host's other accesses to BAR0 complete: an unmapped access reads 0 and is counted; counters that clear on a read give
their value and clear; a register write stores its fields and no reserved bit; writes of a field reserved to the Icehouse are
discarded; unmasking a vector sends a pending message; a moderation interval's end makes the raise held back. -/
def Obligations.BarAccesses : Prop :=
  (∀ (w : Bool) (o n : Nat) (s : State), s.dev.inReset = false → (bar0Mapped o && accessOk w o n) = false →
    Gives (exec (.bar0UnmappedAccess w o n) s)
      { s with dev := { s.dev with unmapped := sat32 (s.dev.unmapped + 1), rdata := if w then s.dev.rdata else 0 } }) ∧
  (∀ s : State, s.dev.inReset = false → Gives (exec .devUnmappedRead s)
      { s with dev := { s.dev with unmapped := 0, rdata := BitVec.ofNat 64 s.dev.unmapped } }) ∧
  (∀ s : State, barLive s .host = true →
    (Gives (exec (.nxCountRead true) s) { returned s s.nx.berthDrop with nx := { s.nx with berthDrop := 0 } }) ∧
    Gives (exec (.nxCountRead false) s) { returned s s.nx.dbBusy with nx := { s.nx with dbBusy := 0 } }) ∧
  (∀ (w : Word) (s : State), s.dev.inReset = false →
    Gives (exec (.registerWrite .host .scratch w) s) { s with dev := { s.dev with scratch := w } }) ∧
  (∀ (w : Word) (s : State), s.dev.inReset = false → s.dev.nxUp = true → s.nx.cplEn = false →
    Answers (exec (.registerWrite .host (.cplBase false) w) s) (fun t =>
      t.nx.cplBase.toNat = s.nx.cplBase.toNat / 2 ^ 32 * 2 ^ 32 + w.toNat / 4096 * 4096) ∧
    Answers (exec (.registerWrite .host (.cplBase true) w) s) fun t =>
      t.nx.cplBase.toNat = w.toNat * 2 ^ 32 + s.nx.cplBase.toNat % 2 ^ 32) ∧
  (∀ (w : Word) (p : Nat) (s : State), s.dev.inReset = false →
    Gives (exec (.registerWrite .host (.quayCtrl p) w) s) s ∧ Gives (exec (.registerWrite .host .rimeCtrl w) s) s ∧
    Gives (exec (.registerWrite .host .readOnly w) s) s) ∧
  (∀ (w : Word) (p : Nat) (s : State), s.dev.inReset = false → s.dev.iceRuns = true → p < 4 →
    Gives (exec (.registerWrite .canal (.quayCtrl p) w) s)
      (modCfg s p fun c => { c with rxEn := w.getLsbD 0, txEn := w.getLsbD 1, gateEn := w.getLsbD 2 })) ∧
  (∀ (v : Nat) (s : State), barLive s .host = true → v < 256 → s.msix.pendBits.contains v = true → hostOk s = true →
    Settles (exec (.msixUnmask v) s) fun u =>
      u = { s with msix := { s.msix with unmasked := addOnce s.msix.unmasked v,
                                         pendBits := s.msix.pendBits.filter (· != v), sent := bump s.msix.sent v } }) ∧
  (∀ s : State, s.dev.inReset = false → s.modu.running.contains .cpl = true → s.modu.held.contains .cpl = true →
    Settles (exec (.modUsIntervalEnd .cpl) s) fun u => u.inside = s.inside ∧ u.modu.held.contains .cpl = false ∧
      (0 < s.nx.cplModUs → u.modu.running.contains .cpl = true) ∧
      (s.msix.unmasked.contains s.nx.cplVector = true → hostOk s = true →
        u.msix.sent = bump s.msix.sent s.nx.cplVector) ∧
      (s.msix.unmasked.contains s.nx.cplVector = false → u.msix.pendBits.contains s.nx.cplVector = true))


/-! ## The device's states, resets and partners (chapters 01, 15, 16) -/

/-- NX_DEV_INFO and NX_DEV_STATUS return the identity, presence and state registers (their order is the model's, log 118), and
NX_NEG_STATUS the 216 bytes of the negotiation object, each in its berth; none of them changes anything. NX_DDR_FENCE adds to or takes
from the fence list, at most four channels long; NX_NEVE_PARTITION, within its rules, sets the sizes that take effect at the next entry to
SERVICE and leaves those in force (R45, R498). The PCI Express link: up at a generation and width it reads FULL where it reaches what both
sides can, DEGRADED with 0x0801 otherwise; down, its entry reads FAILED with 0x0802 and accesses to host memory are held; PERST_N takes it
down. Bus Master Enable is kept as set. Writes of function 1 have no effect (R451, R452, R485, R494). -/
def Obligations.DeviceAndLink : Prop :=
  (∀ (b : Nat) (f : Fmt) (s : State), let u := nxAt s b
     (∀ r, r = replyOf [[nv 0x96401E6D, nv 0x0A01, nv (noruxVersion u * 256 + b2n u.dev.compatQ48), nv (devStraps u),
         nv (devUnits u), .wide u.tdm.ident]] →
       nxInBerth spNxDevInfo b f s r.length = true → Replies (exec (.nxDevInfo b f) s) u b r) ∧
     (∀ r, r = replyOf [[nv (b2n u.dev.rcvDone * 512 + b2n u.dev.nxUp * 256 + u.dev.devState.no), nv u.dev.heartbeat.toNat,
         nv (devUnits u)]] →
       nxInBerth spNxDevStatus b f s r.length = true → Replies (exec (.nxDevStatus b f) s) u b r) ∧
     (nxInBerth spNxNegStatus b f s 216 = true → ∃ r, r.length = 216 ∧ Replies (exec (.nxNegStatus b f) s) u b r ∧
       r.take 8 = leBytes 26 2 ++ leBytes 0 2 ++ leBytes u.neg.gen 4 ∧
       ∀ k, k < 26 → (r.drop (8 + 8 * k)).take 8 = negBytes k (negOf u k))) ∧
  (∀ (b : Nat) (f : Fmt) (s : State), let u := nxAt s b
     (∀ add c, nxDirect spNxDdrFence b f s = true → c < 8 →
       (add = true → (addOnce (fenceList u) c).length ≤ 4) →
       Answers (exec (.nxDdrFence b f add c) s) fun t =>
         fenceList t = if add then addOnce (fenceList u) c else (fenceList u).filter (· != c)) ∧
     (∀ p : List Nat, nxDirect spNxNevePartition b f s = true → p.length = 7 → p.sum = 32768 →
       (∀ n, n ∈ p → n % 256 = 0) → 4096 ≤ p.getD 0 0 → 2048 ≤ p.getD 1 0 → 2048 ≤ p.getD 2 0 → headChans u ≤ p.getD 2 0 →
       1024 ≤ p.getD 3 0 → 1024 ≤ p.getD 4 0 → 512 ≤ p.getD 5 0 →
       Gives (exec (.nxNevePartition b f p) s) { u with fab := { u.fab with partsNext := some p } })) ∧
  (∀ (gen width hostGen hostWidth off : Nat) (w : Word) (on : Bool) (s : State), s.dev.inReset = false →
     (1 ≤ gen → gen ≤ 5 → width ≤ 3 →
       Answers (exec (.pcieLinkChange true gen width hostGen hostWidth) s) fun t =>
         t.pcie = { s.pcie with linkUp := true, gen := gen, width := 2 ^ width } ∧
         (negOf t 1).st = (if min 5 hostGen ≤ gen ∧ min 3 hostWidth ≤ width then .full else .degraded) ∧
         (negOf t 1).result = (if min 5 hostGen ≤ gen ∧ min 3 hostWidth ≤ width then 0 else 0x0801)) ∧
     (Answers (exec (.pcieLinkChange false gen width hostGen hostWidth) s) fun t =>
       t.pcie = { s.pcie with linkUp := false } ∧ hostOk t = false ∧ (negOf t 1).st = .failed ∧
         (negOf t 1).result = 0x0802) ∧
     (Answers (exec .pciePerstN s) fun t => t.pcie = { s.pcie with linkUp := false } ∧ (negOf t 1).result = 0x0802) ∧
     Gives (exec (.busMasterEnableChange on) s) { s with pcie := { s.pcie with busMaster := on } } ∧
     exec (.function1Write off w) s = .next s)

/-- The commands that change the device state (R471, R503, R508, R512, R518): where their conditions hold, SERVICE, READY,
SELFTEST or HALTED is entered with what belongs to it. -/
def Obligations.DeviceStateCommands : Prop :=
  ∀ (b : Nat) (f : Fmt) (s : State), let u := nxAt s b
    (nxDirect spNxDevService b f s = true → u.lkp.thread = false → 1 ≤ floesLive u → portEnabled u = true →
      ∀ st e r, tdmOutcome u = .inr (st, e, r) →
      Answers (exec (.nxDevService b f) s) fun t => t.dev.devState = .service ∧ t.tdm.st = st ∧
        t.fab.parts = u.fab.partsNext.getD u.fab.parts ∧ t.fab.partsNext = none) ∧
    (nxDirect spNxDevReady b f s = true → (u.dev.devState = .recovery → u.dev.rcvDone = true) →
      Answers (exec (.nxDevReady b f) s) fun t => t.dev.devState = .ready ∧ t.dev.rcvDone = false ∧
        (u.dev.devState = .service → ∀ c, (chanOf t c).st.live = false)) ∧
    (nxAccepted spNxDevSelftest b f s = true → modeRefusal u true = none →
      Answers (exec (.nxDevSelftest b f) s) fun t => t.dev.devState = .selftest ∧ t.lkp.thread = true ∧
        t.nx.long.any (fun l => l.berth == b && l.work == .selftest) = true) ∧
    (nxDirect spNxDevHalt b f s = true →
      Answers (exec (.nxDevHalt b f) s) fun t => t.dev.devState = .halted ∧ (∀ k, k < 96 → (floeOf t k).run = false) ∧
        (∀ n, n < 4 → (portOf t n).cfg.txEn = false) ∧ t.tb.clkA.outHigh = false ∧ t.tb.clkB.outHigh = false) ∧
    (∀ x, nxDirect devResetSpec b f s = true →
      Answers (exec (.nxDevReset b f x) s) fun t => t.nx.rung = [] ∧ t.nx.busy = [] ∧ t.nx.long = [] ∧ t.nx.waiting = [] ∧
        (t.dev.devState = .selftest ∨ t.dev.devState = .halted))

/-- RESET_N low for 1 µs or more resets the main die (below that it is ignored): what is stored in flash and OTP, the Nivo die and host
memory stay, every unit takes its reset values (R485, R590, R618). The boot sequence after RESET_N rises, and after a Function Level Reset
of function 0: with no image that verifies the device ends in HALTED with entry 0 FAILED and 0x0871; with both images good, every LPDDR5X
channel trained and no module in the image it ends in SELFTEST with the interpreter up and every Floe running. The straps are those
sampled at the rise (R484, R488, R495). A Function Level Reset of function 1 changes nothing (R450). The self-test ends: READY with its
failed Floes and LPDDR5X channels fenced, or HALTED where a part that cannot be fenced failed or fewer than four LPDDR5X channels are left
(R490, R495). -/
def Obligations.ResetAndBoot : Prop :=
  (∀ (ns : Nat) (s : State),
     (ns < 1000 → exec (.resetNFall ns) s = .next s) ∧
     (1000 ≤ ns → Answers (exec (.resetNFall ns) s) fun t =>
       t.dev = { Dev.reset with variant := s.dev.variant } ∧ t.pcie = Pcie.reset ∧ t.media = Media.reset ∧
       t.jct = Junction.reset ∧ t.slu = Sluice.reset ∧ t.net = Net.reset ∧ t.lkp = Lkp.reset ∧ t.fab = Fabric.reset ∧
       t.tb = Timebase.reset ∧ t.floes = [] ∧ t.fmem = [] ∧ t.flumes = [] ∧ t.mods = [] ∧ t.firn = [] ∧
       t.nx = Norux.reset ∧ t.neg = Neg.reset ∧ t.mirror = [] ∧ t.rime.slots = [] ∧
       t.nivo = s.nivo ∧ t.nivoFw = s.nivoFw ∧ t.hostMem = s.hostMem ∧ t.pending = s.pending ∧
       (s.ice.flash.busy = false → t.ice.stored = s.ice.stored ∧ t.ice.hold = s.ice.stored.hold ∧
         t.ice.params = s.ice.stored.log))) ∧
  (∀ (compat tandem : Bool) (src : Nat) (x : BootIn) (s : State),
     (s.dev.inReset = true → x.okA = false → x.okB = false →
       Answers (exec (.resetNRise compat tandem src x) s) fun t =>
         t.dev.devState = .halted ∧ (negOf t 0).st = .failed ∧ (negOf t 0).result = 0x0871 ∧ t.dev.nxUp = s.dev.nxUp) ∧
     (s.dev.inReset = true → x.okA = true → x.okB = true → x.mods = [] → x.ddr = List.replicate 8 (3, 0) →
       s.ice.stored.ddrFence = [] →
       Answers (exec (.resetNRise compat tandem src x) s) fun t =>
         t.dev.devState = .selftest ∧ t.dev.nxUp = true ∧ t.dev.inReset = false ∧ t.dev.compatQ48 = compat ∧
         t.dev.tandemEn = tandem ∧ t.dev.bootSrc = src % 4 ∧ (∀ k, k < 96 → (floeOf t k).run = true) ∧
         t.fab.live.length = 8 ∧ t.fab.density = 8) ∧
     (s.dev.inReset = false → x.okA = false → x.okB = false →
       Answers (exec (.functionLevelReset0 x) s) fun t => t.dev.devState = .halted ∧ t.pcie = s.pcie ∧
         t.dev.compatQ48 = s.dev.compatQ48 ∧ t.media.chans = [] ∧ t.nx.busy = []) ∧
     exec .functionLevelReset1 s = .next s) ∧
  (∀ (floes quay ddr : List Nat) (bad : Bool) (s : State), s.dev.inReset = false → s.dev.iceRuns = true →
     s.dev.devState = .selftest →
     Answers (exec (.selftestDone floes quay ddr bad) s) fun t =>
       t.dev.tested = true ∧ t.fab.live = s.fab.live.filter (fun l => !ddr.contains l.1) ∧
       t.dev.devState = (if bad = true ∨ t.fab.live.length < 4 then .halted else .ready) ∧
       (∀ k, k ∈ floes → k < 96 → (floeOf t k).fenced = true) ∧
       ∀ l, selftestLong s = some l → l ∉ t.nx.long)


/-! ## Channels (chapter 03) -/

/-- The channel states and device states in which each channel command is accepted (R75); NX_CHAN_SET with a structural
parameter outside DEFINED is refused with 0x0201 and none of its parameters is applied, live ones neither. -/
def Obligations.ChannelLegalStates : Prop :=
  ∀ (b : Nat) (f : Fmt) (s : State), let k := objIdx s b; let st := (chanOf (nxAt s b) k).st; let d := s.dev.devState
    (∀ l, nxAccepted (spNxChanDefine l) b f s = true → st = .free ∧ (d = .ready ∨ d = .service)) ∧
    (∀ l, nxAccepted (spNxChanSet l) b f s = true →
      (st = .defined ∨ st = .armed ∨ st = .running) ∧ (d = .ready ∨ d = .service)) ∧
    (nxAccepted spNxChanEnable b f s = true → st = .defined ∧ d = .service) ∧
    (nxAccepted spNxChanStart b f s = true → st = .armed ∧ d = .service) ∧
    (nxAccepted spNxChanStop b f s = true → st = .running ∧ d = .service) ∧
    (nxAccepted spNxChanDisable b f s = true → st = .armed ∧ d = .service) ∧
    (nxAccepted spNxChanFree b f s = true → st = .defined ∧ (d = .ready ∨ d = .service)) ∧
    (nxAccepted spNxChanClear b f s = true → st = .faulted ∧ (d = .ready ∨ d = .service)) ∧
    (nxAccepted spNxEcReset b f s = true → st = .running ∧ d = .service) ∧
    (nxAccepted spNxChanGet b f s = true ∨ nxAccepted spNxChanStats b f s = true →
      d = .ready ∨ d = .service ∨ d = .recovery) ∧
    (nxAccepted spNxTonePlan b f s = true ∨ nxAccepted spNxGpiMap b f s = true → d = .ready) ∧
    (∀ l : List ParSet, nxAccepted (spNxChanSet l) b f s = true → st ≠ .defined → l.any ParSet.structural = true →
      Answers (exec (.nxChanSet b f l) s) fun t => t.inside = (takeBell s).inside ∧
        ((hdrOf s b).dma = false → berthShows t b 0x0201 []))

/-- The channel commands complete with their effect on the channel and leave every other channel and unit as it was: DEFINE sets
the parameters named and the defaults of the rest, SET writes at once in DEFINED and holds live writes for the boundary in ARMED
and RUNNING, START runs from the next boundary, STOP drains with the Basin emptied and the capture ending with the present frame,
DISABLE releases, FREE forgets all but the count of events not delivered, CLEAR returns a FAULTED channel to DEFINED, EC_RESET waits for
the boundary (R75 to R81, R85, R110). KEY_TX_B equal to KEY_TX refuses a DEFINE or SET with 0x0106 (R83). -/
def Obligations.ChannelCommands : Prop :=
  ∀ (b : Nat) (f : Fmt) (l : List ParSet) (s : State), let u := nxAt s b; let k := objIdx s b
    (nxDirect (spNxChanDefine l) b f s = true → l.all ParSet.inRange = true → (defineChan l).core.keysDiffer = true →
      ((defineChan l).core.codec = .aes3 → l.any ParSet.gain = false) →
      Gives (exec (.nxChanDefine b f l) s) (modChan u k fun x => { defineChan l with evtLost := x.evtLost })) ∧
    ((nxAccepted (spNxChanDefine l) b f s = true ∧ (defineChan l).core.keysDiffer = false) ∨
      (nxAccepted (spNxChanSet l) b f s = true ∧ ((chanOf u k).sets l).core.keysDiffer = false ∧
        ((chanOf u k).st = .defined ∨ l.any ParSet.structural = false)) →
      Answers (exec (if (chanOf u k).st = .free then .nxChanDefine b f l else .nxChanSet b f l) s) fun t =>
        t.inside = (takeBell s).inside ∧ ((hdrOf s b).dma = false → berthShows t b 0x0106 [])) ∧
    (nxDirect (spNxChanSet l) b f s = true → l.all ParSet.inRange = true → tapped u k = false →
      ((chanOf u k).sets l).core.keysDiffer = true →
      (((chanOf u k).sets l).core.codec = .aes3 → l.any ParSet.gain = false) →
      ((chanOf u k).st = .defined → Gives (exec (.nxChanSet b f l) s) (modChan u k fun x => x.sets l)) ∧
      ((chanOf u k).st ≠ .defined → l.any ParSet.structural = false →
        Gives (exec (.nxChanSet b f l) s) (modChan u k fun x => { x with pendLive := x.pendLive ++ l }))) ∧
    (nxDirect spNxChanStart b f s = true →
      Gives (exec (.nxChanStart b f) s) (modChan u k fun x => { x with st := .running, starting := true })) ∧
    (nxDirect spNxChanStop b f s = true →
      Answers (exec (.nxChanStop b f) s) fun t => (chanOf t k).st = .draining ∧ (basinOf t k).slots = [] ∧
        (basinOf t k).on_ = false ∧ (chanOf t k).drainAt % (chanOf u k).core.ptime = 0 ∧
        (chanOf t k).drainAt ≤ tick48 u + frameOf u k + (chanOf u k).core.ptime ∧
        (dspOf t k).txEnd = (if (chanOf u k).starting then none else some ((tick48 u / frameOf u k + 1) * frameOf u k)) ∧
        ∀ c, c ≠ k → chanOf t c = chanOf u c) ∧
    (nxDirect spNxChanDisable b f s = true →
      Answers (exec (.nxChanDisable b f) s) fun t => (chanOf t k).st = .defined ∧ (chanOf t k).floe = none ∧
        (chanOf t k).cost = 0 ∧ (basinOf t k).slots = [] ∧
        ∀ n, { floeOf t n with withhold := false } = { floeOf u n with withhold := false }) ∧
    (nxDirect spNxChanFree b f s = true → tapped u k = false →
      Gives (exec (.nxChanFree b f) s) (modChan u k fun x => { Chan.reset with evtLost := x.evtLost })) ∧
    (nxDirect spNxChanClear b f s = true →
      Gives (exec (.nxChanClear b f) s) (modChan u k fun x => { x with st := .defined })) ∧
    (nxDirect spNxEcReset b f s = true →
      Gives (exec (.nxEcReset b f) s) (modChan u k fun x => { x with ecReset := true }))

/-- NX_CHAN_ENABLE, where every consistency rule holds and every resource it takes is to be had: the channel is ARMED on the Floe that
R114 picks, with its cost reserved there: R113's, and the declared cost of every loaded module it uses (R152). Where a rule fails the channel stays as it was (R76). The placement rule: the Floe picked runs
channel service, is not fenced, holds the cost, has the most free units, and is the lowest of those with as many; none is picked only
where no Floe that runs channel service has the units free. So a channel of cost c is never refused for want of Floe units while the units
reserved across the device are at most 96 × (9,800 − c) and all 96 Floes run channel service. -/
def Obligations.ChannelEnable : Prop :=
  (∀ (b : Nat) (f : Fmt) (s v : State), let u := nxAt s b; let k := objIdx s b
     let rules := rules112 u k ++ rules243 u k ++ rules271 u k ++ rules342 u k ++ rules432 u k ++ rules367 u k
     (nxDirect spNxChanEnable b f s = true → firstBad rules = none → bindChan u k = .ok v →
       (hdrOf s b).dma = false →
       Answers (exec (.nxChanEnable b f) s) fun t => (chanOf t k).st = .armed ∧ (chanOf t k).cost = chanCost u k ∧
         (∃ n, placeOn u (chanCost u k) = some n ∧ (chanOf t k).floe = some n ∧ servesChannels u n = true) ∧
         (chanOf t k).core = (chanOf u k).core ∧ (chanOf t k).pendLive = [] ∧ ∀ c, c ≠ k → chanOf t c = chanOf u c) ∧
     (∀ c o, nxAccepted spNxChanEnable b f s = true → firstBad rules = some (c, o) →
       Answers (exec (.nxChanEnable b f) s) fun t => t.inside = (takeBell s).inside)) ∧
  (∀ (s : State) (cost : Nat),
     (∀ n, placeOn s cost = some n → n < 96 ∧ servesChannels s n = true ∧ cost ≤ 9800 - fuUsed s n ∧
       ∀ m, m < 96 → servesChannels s m = true →
         9800 - fuUsed s m < 9800 - fuUsed s n ∨ (9800 - fuUsed s m = 9800 - fuUsed s n ∧ n ≤ m)) ∧
     (placeOn s cost = none → ∀ m, m < 96 → servesChannels s m = true → 9800 - fuUsed s m < cost) ∧
     (cost ≤ 9800 → (∀ m, m < 96 → servesChannels s m = true) → ((nums 96).map (fuUsed s)).sum ≤ 96 * (9800 - cost) →
       placeOn s cost ≠ none))

/-- A channel's queue of 16 events: while it is full a further event is not queued and EVT_OVERFLOW counts it; the next one queued carries
GAP and, in LOST, how many were not delivered; it keeps the instant at which it was made. NX_CHAN_GET returns the channel's parameters; NX_CHAN_STATS its 13 counters and eight
smoothed values, and with CLEAR set clears the counters and never the smoothed values. -/
def Obligations.ChannelEvents : Prop :=
  (∀ (s : State) (c code : Nat) (tx conc : Bool) (arg : Int),
     let n := (s.nx.chanQ.filter fun e => e.chan == c).length
     let t := chanEv s c code tx conc arg
     (16 ≤ n → t.nx.chanQ = s.nx.chanQ ∧ tabGet 0 (chanOf t c).ctr 12 = sat64 (tabGet 0 (chanOf s c).ctr 12 + 1) ∧
       (chanOf t c).evtLost = (chanOf s c).evtLost + 1) ∧
     (n < 16 → (chanOf t c).evtLost = 0 ∧ t.nx.chanQ = s.nx.chanQ ++
       [{ chan := c, code := code, tx := tx, concealed := conc, gap := decide (0 < (chanOf s c).evtLost),
          lost := min (chanOf s c).evtLost 255, arg := BitVec.ofInt 16 arg, time := tick48 s, made := nowNs s }])) ∧
  (∀ (b : Nat) (f : Fmt) (s : State), let u := nxAt s b; let x := chanOf s (objIdx s b)
     (∀ r, r = replyOf [chanVals x] → nxFits spNxChanGet b f s r.length = true →
       Completes (exec (.nxChanGet b f) s) spNxChanGet u b (hdrOf s b) r) ∧
     (∀ r, r = replyOf [(nums 13).map (fun k => .ctr (tabGet 0 x.ctr k)) ++ (nums 8).map fun k => .val (tabGet 0 x.smooth k)] →
       nxInBerth spNxChanStats b f s r.length = true →
       Replies (exec (.nxChanStats b f) s)
         (if (hdrOf s b).clear then modChan u (objIdx s b) fun x => { x with ctr := [] } else u) b r))

/-- A processing-frame boundary of an ARMED or RUNNING channel: waiting live parameters apply in their order, a canceller reset
clears the coefficients and a start begins, with the Basin taking packets, its positions counted and audio captured from then on. A DRAINING channel is ARMED at the end of its last packet
time, with a CHAN_STATE event. A tone plan and the GPI map are loaded whole (R77, R78, R81, R85, R102, R103). -/
def Obligations.ChannelBoundaries : Prop :=
  (∀ (c : Nat) (s : State), let x := chanOf s c
    (x.st = .armed ∨ x.st = .running) → tick48 s % frameOf s c = 0 →
    let f := fun x : Chan =>
      { x.sets x.pendLive with pendLive := [], starting := false, ecReset := false,
                               ecArmed := x.ecArmed || x.starting || x.ecReset }
    (x.starting = false → Gives (exec (.processingFrameBoundary c) s)
      (let v := modChan s c f; if x.ecReset then modDsp v c fun d => { d with coefs := [] } else v)) ∧
    (x.starting = true → Answers (exec (.processingFrameBoundary c) s) fun t => chanOf t c = f x ∧
      (basinOf t c).on_ = x.core.usesBasin ∧ (basinOf t c).anchored = false ∧ (basinOf t c).disc = true ∧
      (basinOf t c).pos = 0 ∧ (dspOf t c).txTick = tick48 s ∧ (dspOf t c).cap = [] ∧ (dspOf t c).pkt = none ∧
      (dspOf t c).txEnd = none ∧ (x.ecReset = true → (dspOf t c).coefs = []))) ∧
  (∀ (c : Nat) (s : State), (chanOf s c).st = .draining → (chanOf s c).drainAt ≤ tick48 s →
    (s.nx.chanQ.filter fun e => e.chan == c).length < 16 →
    Settles (exec (.drainEnd c) s) fun u => (chanOf u c).st = .armed ∧ (chanOf u c).pendLive = [] ∧
      ∃ e, u.nx.chanQ = s.nx.chanQ ++ [e] ∧ e.chan = c ∧ e.code = 0x20 ∧ e.arg = 2) ∧
  (∀ (b : Nat) (f : Fmt) (l : List PlanTone) (s : State), nxDirect (spNxTonePlan) b f s = true → l.length ≤ 16 →
    (∀ t, t ∈ l → t.cadence.length ≤ 4) →
    Answers (exec (.nxTonePlan b f l) s) fun t => t.media.chans = s.media.chans ∧
      ∀ k, tabGet none t.media.plans k =
        if k = objIdx s b then (if l.isEmpty then none else some l) else tabGet none s.media.plans k) ∧
  (∀ (b : Nat) (f : Fmt) (l : List (ToneDef × Nat)) (s : State), nxDirect spNxGpiMap b f s = true → l.length ≤ 32 →
    (∀ e, e ∈ l → e.2 < 32 ∧ e.1.ok = true) →
    Answers (exec (.nxGpiMap b f l) s) fun t => t.media.plans = s.media.plans ∧
      ∀ k, tabGet none t.media.gpiMap k = l[k]?)


/-! ## Flumes (chapter 02) -/

/-- No item of a flume is lost, duplicated or reordered: what a waiting writer pushes joins the end, what a reader pops is the oldest,
and the clearing of either flag moves items without changing their order. A no-wait writer's unit goes in whole or not at all (R48,
R55, R60, R61). Items are those of the head, the body and the held push, in this order. A flume's word found uncorrectable is delivered
with its poison bit set, is counted, sets UE_SEEN and raises FLUME_UE; a word poisoned before is delivered as it is and counted no
more; a corrected word is counted (R63 to R65). Flume status: the counts clear on a read, UE_SEEN by the Icehouse writing 1 (a host
write is discarded); a Canal stop halts the device (R63, R64, R517). The pointers count modulo twice the body's entries and stand in Gray
code, of which one bit changes at each step; the body is full by the writer's view where the two most significant bits of the pointers
differ and the others agree, which is where it holds as many items as it has entries (R50). -/
def Obligations.FlumeWords : Prop :=
  (∀ (f : Flume) (b : Nat), let items := fun f : Flume => f.head.map (·.2) ++ f.body.map (·.2) ++ f.held
     (∀ xs, items (f.push b xs) = items f ++ xs) ∧
     (∀ x f', f.pop b = some (x, f') → items f = x.2 :: items f') ∧
     (f.pop b = none ↔ f.head = []) ∧
     items (f.emptyClear b) = items f ∧ items (f.fullClear b) = items f ∧
     (f.held = [] → ∀ xs f', f.pushUnit b xs = some f' → items f' = items f ++ xs) ∧
     (∀ xs, f.pushUnit b xs = none ↔ b < f.wrOcc b + xs.length)) ∧
  (∀ k n m : Nat, 1 ≤ k → k ≤ 11 → n < 2 ^ (k + 1) → m < 2 ^ (k + 1) →
     ungray (gray n) = n ∧ (∃ j, j ≤ k ∧ gray n ^^^ gray ((n + 1) % 2 ^ (k + 1)) = 2 ^ j) ∧
     ∀ f : Flume, f.wptr = gray n → f.rSeen = gray m →
       (f.fullW (2 ^ k) = true ↔ f.wrOcc (2 ^ k) = 2 ^ k) ∧ (f.wrOcc (2 ^ k) = 0 ↔ f.wptr = f.rSeen)) ∧
  (∀ (s : State) (i k : Nat) (w : FWord), s.dev.iceRuns = true → (flumeShape i).isSome = true →
     checkWords [w] [.bad] = [{ w with poison := true }] ∧ checkWords [w] [.ok] = [w] ∧
     (∀ bit, checkWords [w] [.corrected bit] = [w] ∧
       (flumeOf (flumeEcc s i k 0 [w] [.corrected bit]) i).ce = min ((flumeOf s i).ce + 1) 0xFFFF) ∧
     (w.poison = true → flumeEcc s i k 0 [w] [.bad] = s) ∧
     (w.poison = false → (flumeOf (flumeEcc s i k 0 [w] [.bad]) i).ue = min ((flumeOf s i).ue + 1) 0xFFFF ∧
       (flumeOf (flumeEcc s i k 0 [w] [.bad]) i).ueSeen = true ∧
       (s.ice.lanes.ring.en = true → 3 ≤ s.ice.lanes.ring.minSev →
         ((flumeEcc s i k 0 [w] [.bad]).ice.lanes.ring.pend.any fun r => r.code == 0x13 && decide (0 < r.count)) = true))) ∧
  ((∀ (a : Agent) (i : Nat) (w : Word) (s : State), barLive s a = true → (flumeShape i).isSome = true →
     Gives (exec (.flmCeRead a i) s)
       (returned (setFlume s i { flumeOf s i with ce := 0 }) (flumeOf s i).ce) ∧
     Gives (exec (.flmUeRead a i) s)
       (returned (setFlume s i { flumeOf s i with ue := 0 }) (b2n (flumeOf s i).ueSeen * 2 ^ 31 + (flumeOf s i).ue)) ∧
     Gives (exec (.flmUeWrite a i w) s)
       (if a = .canal ∧ w.getLsbD 31 = true then setFlume s i { flumeOf s i with ueSeen := false } else s)) ∧
   ∀ (stop : Option Nat) (s : State), s.dev.inReset = false → s.dev.iceRuns = true → s.dev.devState ≠ .halted →
     Answers (exec (.canalStall stop) s) fun t => t.dev.devState = .halted ∧ ∀ k, k < 96 → (floeOf t k).run = false)

/-- The events of a flume between two units: a push, a pop, and the instants at which each side sees the other's pointer; a pop of an
empty output stage waits. A no-wait writer that finds no room drops its unit whole, a management frame counted by the Icehouse, and one
that reserves its room beforehand sends nothing (R61); a stopped reader takes nothing (R66). -/
def Obligations.FlumeEvents : Prop :=
  ∀ (i : Nat) (xs : List FItem) (s : State) (h : Shape), flumeShape i = some h → s.dev.inReset = false →
    (ownWriter i = false → (∀ x, x ∈ xs → x.words.length = h.width) → (flumeOf s i).held = [] →
      (h.noWait = false → Gives (exec (.flumePush i xs) s) (setFlume s i ((flumeOf s i).push (flumeB i) xs))) ∧
      (h.noWait = true → (flumeOf s i).wrOcc (flumeB i) + xs.length ≤ flumeB i →
        Answers (exec (.flumePush i xs) s) fun t => (flumeOf t i).body.map (·.2) = (flumeOf s i).body.map (·.2) ++ xs) ∧
      (h.noWait = true → flumeB i < (flumeOf s i).wrOcc (flumeB i) + xs.length →
        Gives (exec (.flumePush i xs) s)
          (if neverShort i then s else modIce s fun x => { x with rgmiiDrop := sat32 (x.rgmiiDrop + 1) }))) ∧
    (readerStopped s i = true → exec (.flumePop i []) s = .next s) ∧
    (ownReader i = false → readerStopped s i = false → readerFull s i = false →
      (∀ k x r, (flumeOf s i).head = (k, x) :: r → Answers (exec (.flumePop i []) s) fun t =>
        (flumeOf t i).head.map (·.2) ++ (flumeOf t i).body.map (·.2)
          = r.map (·.2) ++ (flumeOf s i).body.map (·.2)) ∧
      ((flumeOf s i).head = [] → Gives (exec (.flumePop i []) s) (setFlume s i { flumeOf s i with popWaits := true }))) ∧
    ((flumeOf s i).wSeen ≠ (flumeOf s i).wptr → (flumeOf s i).popWaits = false →
      Gives (exec (.flumeEmptyClear i []) s) (setFlume s i ((flumeOf s i).emptyClear (flumeB i)))) ∧
    ((flumeOf s i).rSeen ≠ (flumeOf s i).rptr →
      Answers (exec (.flumeFullClear i) s) fun t => (flumeOf t i).rSeen = (flumeOf s i).rptr ∧
        (flumeOf t i).body.map (·.2) ++ (flumeOf t i).held
          = (flumeOf s i).body.map (·.2) ++ (flumeOf s i).held)

/-! ## Floes (chapters 04, 05) -/

/-- A MAC or MSU into a lane that is not pinned adds the exact product; an exact result outside the 72-bit range pins the lane at the rail
it passed and sets GOV, or under COMPAT_Q48 wraps modulo 2^72 and sets GOV. A pinned lane is left unchanged and its GOV bit set again. A
lane that starts from zero and receives n products of magnitude at most 2^P never overflows while n ≤ 2^(71−P) − 1, and one that starts
from such a product while n ≤ 2^(71−P) − 2: its value is the exact sum. Extraction rounds half up and saturates: the result lies within
half a step of the exact quotient, a tie going up, unless a limit of the width holds it. NORM counts redundant sign bits: it is at least n
exactly when the lane fits in 72 − n bits, and runs from 0 to 71. A pointer inside its circular buffer stays inside whatever the step, and
one outside is stepped linearly modulo 2^18 and sets CBOUT; a pointer without a buffer is stepped linearly. A write of a length moves to
the base the pointers linked to the triple that lay within the former buffer at or beyond the new length, and no other; a write from or to
zero moves none (R132). -/
def Obligations.FloeArithmetic : Prop :=
  ((∀ (l : Lane) (p : Int) (q48 : Bool), l.pinned = true → l.acc q48 p = (l, true)) ∧
   ∀ (l : Lane) (p : Int), l.pinned = false →
     let r := l.val.toInt + p
     (-(2 ^ 71) ≤ r → r ≤ 2 ^ 71 - 1 → ∀ q48,
       (l.acc q48 p).1.val.toInt = r ∧ (l.acc q48 p).1.pinned = false ∧ (l.acc q48 p).2 = false) ∧
     (2 ^ 71 - 1 < r → (l.acc false p).1.val.toInt = 2 ^ 71 - 1 ∧ (l.acc false p).1.pinned = true ∧ (l.acc false p).2 = true) ∧
     (r < -(2 ^ 71) → (l.acc false p).1.val.toInt = -(2 ^ 71) ∧ (l.acc false p).1.pinned = true ∧ (l.acc false p).2 = true) ∧
     (r < -(2 ^ 71) ∨ 2 ^ 71 - 1 < r → (l.acc true p).1.pinned = false ∧ (l.acc true p).2 = true ∧
       ((l.acc true p).1.val.toInt - r) % 2 ^ 72 = 0)) ∧
  (∀ (P : Nat) (ps : List Int), P ≤ 62 → (∀ p, p ∈ ps → -(2 ^ P) ≤ p ∧ p ≤ 2 ^ P) →
     (ps.length ≤ 2 ^ (71 - P) - 1 →
       let l := ps.foldl (fun l p => (Lane.acc false l p).1) Lane.reset
       l.pinned = false ∧ l.val.toInt = ps.sum) ∧
     ∀ x : Int, -(2 ^ P) ≤ x → x ≤ 2 ^ P → ps.length ≤ 2 ^ (71 - P) - 2 →
       let l := ps.foldl (fun l p => (Lane.acc false l p).1) (Lane.of x)
       l.pinned = false ∧ l.val.toInt = x + ps.sum) ∧
  ((∀ (x : BitVec 72) (s wid : Nat), s ≤ 63 → wid ≤ 2 →
     let w := if wid = 0 then 16 else if wid = 1 then 24 else 32
     let q := extract x.toInt s wid
     q ≤ 2 ^ (w - 1) - 1 ∧ -(2 ^ (w - 1)) ≤ q ∧
     (q * 2 ^ (s + 1) ≤ 2 * x.toInt + 2 ^ s ∨ q = -(2 ^ (w - 1))) ∧
     (2 * x.toInt + 2 ^ s < (q + 1) * 2 ^ (s + 1) ∨ q = 2 ^ (w - 1) - 1)) ∧
   ∀ x : BitVec 72, norm x ≤ 71 ∧
     ∀ n, n ≤ 71 → (n ≤ norm x ↔ -(2 ^ (71 - n)) ≤ x.toInt ∧ x.toInt < 2 ^ (71 - n))) ∧
  ((∀ (r : FloeRegs) (g : Ag), let t := r.ad (r.linkOf g.ptr); let p := (r.ad g.ptr).p
     let step : Int := if g.useM then t.m.toInt else g.size
     (t.l ≠ 0 → t.b.toNat ≤ p.toNat → p.toNat < t.b.toNat + t.l.toNat → t.b.toNat + t.l.toNat ≤ 2 ^ 18 →
       t.b.toNat ≤ (agStep r g).1.toNat ∧ (agStep r g).1.toNat < t.b.toNat + t.l.toNat ∧ (agStep r g).2 = false ∧
       (((agStep r g).1.toNat : Int) - (p.toNat + step)) % t.l.toNat = 0) ∧
     (t.l ≠ 0 → (p.toNat < t.b.toNat ∨ t.b.toNat + t.l.toNat ≤ p.toNat) →
       (agStep r g).1 = p + BitVec.ofInt 18 step ∧ (agStep r g).2 = true) ∧
     (t.l = 0 → (agStep r g).1 = p + BitVec.ofInt 18 step ∧ (agStep r g).2 = false)) ∧
   ∀ (r : FloeRegs) (j i : Nat) (old new : BitVec 18), i < 8 →
     let b := (r.ad j).b; let p := (r.ad i).p
     let hit := old ≠ 0 ∧ new ≠ 0 ∧ r.linkOf i = j ∧ b.toNat ≤ p.toNat ∧ p.toNat < b.toNat + old.toNat ∧
       b.toNat + new.toNat ≤ p.toNat
     (hit → ((fold r j old new).1.ad i).p = b ∧ (fold r j old new).2 = true) ∧
     (¬ hit → ((fold r j old new).1.ad i).p = p) ∧
     ((fold r j old new).1.ad i).b = (r.ad i).b ∧ ((fold r j old new).1.ad i).l = (r.ad i).l ∧
     ((fold r j old new).1.ad i).m = (r.ad i).m)

/-- When one instant both sets and clears a GOV bit, the bit ends set; a bit only cleared ends clear, and one neither set nor cleared
keeps its value. A bundle that can run and meets no memory error and no fault issues: every slot reads the registers the bundle found, and
all writes take effect together; nothing outside the Floe changes. A bundle that cannot, one with a reserved encoding, faults
the item with code 1 and the bundle's address (R120, R121, R145). A Floe takes a descriptor into a free slot and starts the item of the current slot at its kind's entry; a kind without
an entry faults NOKIND. A rewritten instruction word lets the fetch go on. A CGET from LPDDR5X writes the bytes read to local memory and
is no longer outstanding (R136, R139, R141). -/
def Obligations.FloeExecution : Prop :=
  (∀ (x : Floe) (m0 m1 : MacOut) (l : LOut) (c : COut) (i : Nat), i < 64 →
     (∀ k, k ∈ m0.gov ++ m1.gov → k < 64) →
     (x.writeback m0 m1 l c).gov.getLsbD i =
       if i ∈ m0.gov ++ m1.gov then true
       else if c.clrg = some (i / 8) then false else x.gov.getLsbD i) ∧
  (∀ (f : Nat) (s : State), issues s f = true →
     let x := floeOf s f; let b := tabGet 0 (fmemOf s f).imem x.pc
     (∀ w, w < 2 → (fmemOf s f).poison.contains (32768 + 2 * x.pc + w) = false) →
     (legalBundle b = true → fetchable b = true) ∧
     (fetchable b = true → ([0x37, 0x38].contains (opOf (slotC b)) = true → xferHeld s f = false) →
       let l := lRun f x.regs (fmemOf s f) [] [] (slotL b)
       let y := { x with imCe := min 255 x.imCe }
       let c := cRun f y l.k [] [] (slotC b)
       l.fault = none → c.fault = none → c.act = .none →
       Gives (exec (.bundleIssue f [] [] [] [] []) s)
         (modFloe (modFmem s f fun _ => c.k.m) f fun _ =>
           y.writeback (macRun s.dev.compatQ48 x.regs (slotM0 b)) (macRun s.dev.compatQ48 x.regs (slotM1 b)) l c)) ∧
     (fetchable b = false → x.xfers = [] → s.lkp.thread = true →
       Answers (exec (.bundleIssue f [] [] [] [] []) s) fun t =>
         (floeOf t f).faultCode = 1 ∧ (floeOf t f).faultArg = 0 ∧ (floeOf t f).faultPc = x.pc ∧
         (floeOf t f).faultCnt = min 0xFFFF (x.faultCnt + 1))) ∧
  (∀ (f : Nat) (s : State), f < 96 → s.dev.inReset = false → let x := floeOf s f
     (x.run = true → x.fenced = false →
       (∀ it e, x.cur = some it → x.started = false →
         (s.mods.findSome? fun m => (m.kinds.find? fun k => k.1 == it.kind).map (·.2)) = some e →
         Gives (exec (.workItemStart f []) s)
           (modFloe s f fun x => { x with started := true, govMask := 0, govPc := 0, pc := e })) ∧
       (∀ it, x.cur = some it → x.started = false → x.xfers = [] → s.lkp.thread = true →
         (s.mods.findSome? fun m => (m.kinds.find? fun k => k.1 == it.kind).map (·.2)) = none →
         Answers (exec (.workItemStart f []) s) fun t =>
           (floeOf t f).faultCode = 7 ∧ (floeOf t f).faultArg = it.kind) ∧
       (∀ it v, x.cur.isSome = true → x.started = true → x.nxt = none → popFlume s (96 + f) [] = some (it, v) →
         Gives (exec (.workItemStart f []) s) (modFloe v f fun x => { x with nxt := some it.item }))) ∧
     (∀ ws, x.stall = .imem ws → Gives (exec (.imemRewriteDone f) s)
       (modFloe (modFmem s f fun m => { m with poison := m.poison.filter fun w => !(ws.map (32768 + ·)).contains w }) f fun x =>
         { x with stall := .none, imUe := min 255 (x.imUe + ws.length) })) ∧
     (∀ k t o, x.xfers[k]? = some t → (∀ u, u ∈ x.xfers.take k → xferDest s u ≠ xferDest s t) → t.isGet = true →
       t.addr % t.size = 0 → canalWhere s t.addr = .ddr o → x.stall = .none →
       Answers (exec (.canalTransferComplete f k ⟨none, [], .ok⟩) s) fun v =>
         readBytes (fmemOf v f).dmem t.loc t.size = readBytes s.fab.ddr o t.size ∧
         (∀ a, a < t.loc ∨ t.loc + t.size ≤ a → tabGet 0 (fmemOf v f).dmem a = tabGet 0 (fmemOf s f).dmem a) ∧
         (floeOf v f).xfers = x.xfers.eraseIdx k))

/-- The Floe registers: the Icehouse alone writes RUN, the sticky bits and GOV, by ones; the counts clear on a read (R159, R614,
R615). -/
def Obligations.FloeRegisters : Prop :=
  ∀ (f : Nat) (w : Word) (hi : Bool) (s : State), f < 96 → s.dev.inReset = false → s.dev.iceRuns = true →
    let x := floeOf s f
    (x.fenced = false → Gives (exec (.floeCtrlWrite f true w) s) (modFloe s f fun x => { x with run := w.getLsbD 0 })) ∧
    exec (.floeCtrlWrite f false w) s = .next s ∧ exec (.floeStatusWrite f false w) s = .next s ∧
    exec (.floeGovWrite f hi false w) s = .next s ∧
    Gives (exec (.floeStatusWrite f true w) s)
      (modFloe s f fun x => { x with cbout := x.cbout && !w.getLsbD 7, cbfold := x.cbfold && !w.getLsbD 6 }) ∧
    (Answers (exec (.floeGovWrite f hi true w) s) fun t => ∀ i, i < 64 → (floeOf t f).gov.getLsbD i =
      (x.gov.getLsbD i && !(if hi then decide (32 ≤ i) && w.getLsbD (i - 32) else decide (i < 32) && w.getLsbD i))) ∧
    Gives (exec (.floeFaultCntRead f) s) (returned (modFloe s f fun x => { x with faultCnt := 0 }) x.faultCnt) ∧
    Gives (exec (.floeEccRead f) s) (returned (modFloe s f fun x => { x with imUe := 0, dmUe := 0, imCe := 0, dmCe := 0 })
      (x.imUe * 2 ^ 24 + x.dmUe * 2 ^ 16 + x.imCe * 2 ^ 8 + x.dmCe)) ∧
    Gives (exec (.floeRetiredRead f) s) (returned (modFloe s f fun x =>
      { x with retired := 0, retiredHi := some (BitVec.ofNat 32 (x.retired / 2 ^ 32)) }) (x.retired % 2 ^ 32)) ∧
    Gives (exec (.floeStallsRead f) s) (returned (modFloe s f fun x => { x with stalls := 0 }) x.stalls)

/-- Floe modules: NX_MOD_LOAD of an image that passes every check goes on as a long command. Its work takes the Floes in turn: while a
Floe still serves an item, dispatch to it is withheld, the Floes before it hold the module and the command goes on; where the Floes' work
slots are empty and the Lockkeeper holds nothing for them, it puts the module into the list and its bundles into every Floe, each
restarted with its registers cleared. UNLOAD takes a module no other requires off the list and refuses one not loaded with 0x0147; LIST
and FLOE_STATS reply, and FLOE_STATS clears its counts with CLEAR (R150, R614). The order of the values in a reply is the model's
(log 108). -/
def Obligations.ModuleCommands : Prop :=
  ∀ (b : Nat) (f : Fmt) (s : State), let u := nxAt s b; let k := objIdx s b
    (∀ sig image, nxAccepted spNxModLoad b f s = true → signed u sig (imgNum image 8 2) = none →
      firstBad (modRules u image) = none →
      Gives (exec (.nxModLoad b f sig image) s) (addLong u b (hdrOf s b) (.modLoad image none))) ∧
    (∀ image l out c fail, s.dev.inReset = false → s.dev.nxUp = true → s.dev.iceRuns = true →
      (s.nx.long.find? fun l => l.berth == b) = some l → l.work = .modLoad image none → modFirst s l = true →
      firstBad (modRules s image) = none → l.hdr.dma = false → heldItems s = 0 →
      ((∀ n, n < 96 → slotsEmpty s n = true) →
        Answers (exec (.longCommandComplete b out c fail) s) fun t =>
          (∃ m, t.mods = s.mods ++ [m] ∧ m.modId = imgNum image 8 2 ∧ m.code = imgCode image) ∧
          l ∉ t.nx.long ∧ berthShows t b 0 [] ∧ ∀ n, n < 96 → (floeOf t n).regs = FloeRegs.reset ∧ (floeOf t n).gov = 0 ∧
            (floeOf t n).run = !(floeOf s n).fenced ∧ (floeOf t n).withhold = false) ∧
      ∀ n, n < 96 → (∀ m, m < n → slotsEmpty s m = true) → slotsEmpty s n = false →
        Answers (exec (.longCommandComplete b out c fail) s) fun t => t.mods = s.mods ∧
          (∃ g, g ∈ t.nx.long ∧ g.berth = b ∧ g.done = n) ∧ floeOf t n = { floeOf s n with withhold := true } ∧
          (∀ m, m < n → (floeOf t m).regs = FloeRegs.reset ∧ (floeOf t m).withhold = false) ∧
          ∀ m, n < m → floeOf t m = floeOf s m) ∧
    (nxDirect spNxModUnload b f s = true → (s.mods.any fun m => m.modId == k) = true →
      (∀ m, m ∈ s.mods → m.requires.contains k = false) →
      Gives (exec (.nxModUnload b f) s) { u with mods := s.mods.filter fun m => m.modId != k }) ∧
    (nxAccepted spNxModUnload b f s = true → (s.mods.any fun m => m.modId == k) = false →
      Answers (exec (.nxModUnload b f) s) fun t =>
        t.inside = (takeBell s).inside ∧ ((hdrOf s b).dma = false → berthShows t b 0x0147 [])) ∧
    (∀ r, r = replyOf (s.mods.map fun m => [nv m.modId, nv m.version, nv m.base, nv m.code, nv m.baseX, nv m.dataX,
        nv m.baseY, nv m.dataY]) → nxInBerth spNxModList b f s r.length = true →
      Replies (exec (.nxModList b f) s) u b r) ∧
    (let n := k - 0x10000; let x := floeOf s n
     ∀ r, r = replyOf [[nv (b2n x.threadMode * 4 + b2n x.fenced * 2 + b2n x.run), nv x.status, .wide x.gov.toNat, nv x.faultWord, .ctr x.faultCnt,
        .ctr x.imUe, .ctr x.dmUe, .ctr x.imCe, .ctr x.dmCe, .ctr x.retired, .ctr x.stalls, nv (floeRegRead s n 0x28).1, nv (floeRegRead s n 0x2C).1]] →
      nxInBerth spNxFloeStats b f s r.length = true →
      Replies (exec (.nxFloeStats b f) s)
        (if (hdrOf s b).clear then modFloe u n fun x =>
          { x with faultCnt := 0, imUe := 0, dmUe := 0, imCe := 0, dmCe := 0, retired := 0, stalls := 0 } else u) b r)


/-! ## The Lockkeeper (chapter 06) -/

/-- WORK_ITEM_ADMIT, from a Floe's flume, the units' flume or the injection buffer, once it is the source's turn: Towpath boundaries
reached by then have fallen; an item whose routing words arrive poisoned, and a malformed one, is counted and dropped; one that can be
admitted leaves its source; one that cannot stays, its hold counted once (R174, R178, R190, R196). An ATOMIC item of a
held chamber joins the chamber queue; any other joins the tail of its pound or group queue and an ATOMIC one then holds its chamber; a
delayed one enters the Towpath (R179, R180). Every Floe has its reserve of 16 entries, and every other producer the shared part (R197).
-/
def Obligations.LockkeeperAdmission : Prop :=
  (∀ (src : AdmitSrc) (ecc : List Ecc) (s v : State) (h : Held), let n := towNow s
    foremost n ecc src = some (v, h) →
    let free (s : State) : State := { s with lkp := { s.lkp with holding := s.lkp.holding.filter (· != src) } }
    let r := itemReach h.it src.bank
    (h.it.unroutable = true → Settles (exec (.workItemAdmit src ecc) s) fun u =>
      u = lkpRun (free (lkpPoison v (src.bank / 2) (srcSite n src h.it))) r) ∧
    (h.it.unroutable = false → h.it.bad src.injReach = true → Settles (exec (.workItemAdmit src ecc) s) fun u =>
      u = lkpRun (free (badDesc v (src.bank / 2) h)) r) ∧
    (∀ w, h.it.unroutable = false → h.it.bad src.injReach = false → admitHeld v h = some w →
      Settles (exec (.workItemAdmit src ecc) s) fun u => u = lkpRun (free w) r) ∧
    (h.it.unroutable = false → h.it.bad src.injReach = false → admitHeld v h = none →
      (n.lkp.holding.contains src = true → exec (.workItemAdmit src ecc) s = .next n) ∧
      (n.lkp.holding.contains src = false → Settles (exec (.workItemAdmit src ecc) s) fun u =>
        u = modReach { n with lkp := { n.lkp with holding := n.lkp.holding ++ [src] } } r fun x =>
          { x with hold := sat32 (x.hold + 1) }))) ∧
  (∀ (s : State) (h : Held), let k := admitBank h.it.target; let r := k / 2
    (h.it.delay = false → h.it.atomic = true → (lkpBank s k).heldCh.contains h.it.chamber = true → chqRoom s h = true →
      admitHeld s h = some (modBank s k fun b => { b with chq := b.chq ++ [h] })) ∧
    (h.it.delay = false → (h.it.atomic = true → (lkpBank s k).heldCh.contains h.it.chamber = false ∧
        (lkpBank s k).heldCh.length < 8192) → queueRoom s r h = true →
      ∃ w, admitHeld s h = some w ∧
        (lkpBank w k).heldCh = (lkpBank s k).heldCh ++ (if h.it.atomic then [h.it.chamber] else []) ∧
        (∀ p, (lkpReach w r).pound p =
          (lkpReach s r).pound p ++ if h.it.group = 0xFF ∧ p = h.it.prio then [h] else []) ∧
        ∀ g, (lkpReach w r).gq g = (lkpReach s r).gq g ++ if h.it.group ≠ 0xFF ∧ g = h.it.group then [h] else []) ∧
    (h.it.delay = true → let n := towList h.it
      let d : Delayed := { due := s.lkp.boundary + h.it.ticks, stamp := (lkpReach s r).stamp, h := h, fell := none }
      (((lkpReach s r).list n).length < 1024 → ∃ w, admitHeld s h = some w ∧
        (lkpReach w r).list n = insertDue d ((lkpReach s r).list n) ∧ ∀ m, m ≠ n →
          (lkpReach w r).list m = (lkpReach s r).list m) ∧
      (1024 ≤ ((lkpReach s r).list n).length → admitHeld s h = none))) ∧
  ∀ (q : List Held) (shared : Nat) (own : Nat → Bool) (p : Producer) (x : Held), x.from_ = p →
    (∀ h f, h ∈ q → h.from_ = .floe f → f < 96) → (∀ f, p = .floe f → f < 96) →
    let kept (q : List Held) : Nat :=
      (((nums 96).filter own).map fun f => min ((q.filter fun h => h.from_ == .floe f).length) 16).sum
    (∀ f, p = .floe f → own f = true → (q.filter fun h => h.from_ == .floe f).length < 16 →
      hasRoom q shared own p = true) ∧
    (q.length - kept q < shared → hasRoom q shared own p = true) ∧
    (hasRoom q shared own p = true → q.length ≤ kept q + shared →
      (q ++ [x]).length ≤ kept (q ++ [x]) + shared)

/-- The dispatch choice: where no group item is eligible, or the ceiling is reached and an ordinary item is eligible, the item is the
first eligible one of the highest pound that has one, and the bank's window records it. The descriptor goes to the Floe's flume 96 + f,
and a Floe with an empty current slot is served first, then the lowest (R184 to R186, R188). -/
def Obligations.LockkeeperDispatch : Prop :=
  (∀ (f : Nat) (q : List Held), (q.any (eligible f) = true →
      ∃ a h c, q = a ++ h :: c ∧ eligible f h = true ∧ (∀ x, x ∈ a → eligible f x = false) ∧
        takeFor f q = some (h, q.erase h))) ∧
  (∀ (s : State) (k f p : Nat) (h : Held) (q : List Held), let x := lkpReach s (k / 2)
    ((x.groups.any fun g => g.2.any (eligible f)) = false ∨
      (s.lkp.ceil ≤ ((lkpBank s k).window.filter id).length ∧ (x.pounds.any fun n => n.2.any (eligible f)) = true)) →
    p < 16 → (∀ n, n < 16 → p < n → (x.pound n).any (eligible f) = false) → takeFor f (x.pound p) = some (h, q) →
    let t := dispatchTo s k f
    (lkpReach t (k / 2)).pound p = q ∧ (∀ n, n ≠ p → (lkpReach t (k / 2)).pound n = x.pound n) ∧
      (lkpBank t k).window = (false :: (lkpBank s k).window).take 100 ∧
      tabGet [] (lkpBank t k).slots f = tabGet [] (lkpBank s k).slots f ++ [⟨h.it.chamber, h.it.atomic, admitBank h.it.target⟩] ∧
      flumeOf t (96 + f) = (flumeOf s (96 + f)).push (flumeB (96 + f)) [h.it.flit 0] ∧
      (lkpReach t (k / 2)).disp = sat64 (x.disp + 1) ∧ (lkpReach t (k / 2)).gdisp = x.gdisp) ∧
  (∀ (s : State) (k : Nat) (f : Nat), floeToServe s k = some f →
    f ∈ bankFloes k ∧ slotFree s k f = true ∧ anyFor s (k / 2) f = true ∧
    (∀ m, m ∈ bankFloes k → slotFree s k m = true → anyFor s (k / 2) m = true →
      tabGet [] (lkpBank s k).slots m = [] → tabGet [] (lkpBank s k).slots f = [] ∧ f ≤ m)) ∧
  ∀ (s : State) (k : Nat), floeToServe s k = none →
    ∀ m, m ∈ bankFloes k → slotFree s k m = true → anyFor s (k / 2) m = false

/-- Retire records free their slot and, where nothing of the chamber waits, the chamber in the bank that admitted the item (R176, R181,
R182); GOV records wait in the bank's
queue of 16 for the Icehouse, and while it is full beside it, one for each Floe (R177); a Towpath boundary makes its items due, the
earliest due and then the first inserted of the reach going first, and a list keeps items of one boundary in their order of insertion
(R190 to R194). -/
def Obligations.LockkeeperRecords : Prop :=
  (∀ (f : Nat) (ecc : List Ecc) (s v : State) (x : FItem) (c : SlotRec) (l : List SlotRec), f < 96 →
    popFlume s f ecc = some (x, v) → x.side = 1 → x.item.px = 0 →
    tabGet [] (lkpBank v (bankOf f)).slots f = c :: l → x.item.chamber = c.chamber →
    Settles (exec (.retireRecord f ecc) s) fun u =>
      u = lkpRun (modBank (modBank v (bankOf f) fun b => { b with slots := tabSet [] b.slots f l }) c.bank fun b =>
        { b with heldCh := if c.atomic && !b.chq.any (fun h => h.it.chamber == c.chamber) then b.heldCh.erase c.chamber
                           else b.heldCh }) (bankOf f / 2)) ∧
  (∀ (f : Nat) (ecc : List Ecc) (s v : State) (x : FItem), f < 96 → popFlume s f ecc = some (x, v) → x.side = 2 →
    x.item.px = 0 → let k := bankOf f; let b := lkpBank v k
    let g : GovRec := { rtype := 0x80, chamber := x.item.chamber, floe := f, pc := bitsOf x.item.w1.toNat 11 0, mask := x.item.w2, merges := 0 }
    (b.govQ.length < 16 → Settles (exec (.govEventRecord f ecc) s) fun u =>
      u = modBank v k fun b => { b with govQ := b.govQ ++ [g] }) ∧
    (16 ≤ b.govQ.length → b.govPend.any (fun p => p.1 == f) = false → Settles (exec (.govEventRecord f ecc) s) fun u =>
      u = modBank v k fun b => { b with govPend := b.govPend ++ [(f, g)] })) ∧
  (∀ (k : Nat) (s : State) (g : GovRec) (l : List GovRec), s.dev.iceRuns = true → (lkpBank s k).govQ = g :: l →
    Answers (exec (.govQueueTake k) s) fun t =>
      (lkpBank t k).govQ = l ++ ((lkpBank s k).govPend.take 1).map (·.2) ∧
      (lkpBank t k).govPend = (lkpBank s k).govPend.drop 1) ∧
  (∀ s : State, s.dev.inReset = false → s.lkp.boundary < s.tb.sel / towPeriod s →
    Settles (exec .towpathTick s) fun u => u = towNow s ∧ u.lkp.boundary = s.tb.sel / towPeriod s) ∧
  (∀ (s : State) (r l : Nat) (d : Delayed), dueHead s r = some (l, d) →
    d.due ≤ s.lkp.boundary ∧ l < 4 ∧ (∃ q, (lkpReach s r).list l = d :: q) ∧
    ∀ n e q, n < 4 → (lkpReach s r).list n = e :: q → e.due ≤ s.lkp.boundary →
      d.due < e.due ∨ (d.due = e.due ∧ d.stamp ≤ e.stamp)) ∧
  ∀ (d : Delayed) (q : List Delayed), q.Pairwise (fun a b => a.due ≤ b.due) →
    insertDue d q = q.filter (fun x => x.due ≤ d.due) ++ d :: q.filter (fun x => d.due < x.due)

/-- Host injection takes 32 bytes, eight words, into a buffer of 64, or drops and counts (R199). The Lockkeeper's counts and peaks
clear on a read. NX_LKP_MODE switches the banks and every Floe at one instant, and is refused while items are held (R204);
NX_LKP_GROUP sets weights and CEIL (R188), NX_LKP_TICK the tick of an empty Towpath (R195); NX_LKP_PURGE empties pounds, group
queues, chamber queue and lists and frees every chamber (R205); NX_LKP_STATS replies and, with CLEAR, clears. -/
def Obligations.LockkeeperCommands : Prop :=
  (∀ (r n : Nat) (w : Word) (s : State), barLive s .host = true → r < 4 →
    (n < 8 → Gives (exec (.lkpInjDataWrite r n w) s) (modReach s r fun x => { x with injData := tabSet 0 x.injData n w })) ∧
    (w.getLsbD 0 = true → let d (k : Nat) : Word := tabGet 0 (lkpReach s r).injData k
      ((lkpReach s r).inject.length < 64 → Gives (exec (.lkpInjPush r w) s) (modReach s r fun x =>
        { x with inject := x.inject ++ [(⟨d 1 ++ d 0, d 3 ++ d 2, d 5 ++ d 4, d 7 ++ d 6, 0⟩ : Item)] })) ∧
      (64 ≤ (lkpReach s r).inject.length →
        Gives (exec (.lkpInjPush r w) s) (modReach s r fun x => { x with injDrop := sat32 (x.injDrop + 1) }))) ∧
    Gives (exec (.lkpInjDropRead r) s)
      (returned (modReach s r fun x => { x with injDrop := 0 }) (lkpReach s r).injDrop)) ∧
  (∀ (r n : Nat) (s : State), let x := lkpReach s r
    Gives (exec (.lkpPeakRead r false n) s)
      (returned (modReach s r fun x => { x with poundPeak := tabSet 0 x.poundPeak n 0 })
        (tabGet 0 x.poundPeak n * 2 ^ 16 + (x.pound n).length)) ∧
    Gives (exec (.lkpPeakRead r true n) s)
      (returned (modReach s r fun x => { x with groupPeak := tabSet 0 x.groupPeak n 0 })
        (tabGet 0 x.groupPeak n * 2 ^ 16 + (x.gq n).length)) ∧
    Gives (exec (.lkpCountRead r 0) s) (returned (modReach s r fun x => { x with hold := 0 }) x.hold) ∧
    Gives (exec (.lkpCountRead r 2) s) (returned (modReach s r fun x => { x with badDesc := 0 }) x.badDesc) ∧
    Gives (exec (.lkpDispRead r false) s)
      (returned (modReach s r fun x => { x with disp := 0, dispHi := some (BitVec.ofNat 32 (x.disp / 2 ^ 32)) })
        (x.disp % 2 ^ 32))) ∧
  ∀ (b : Nat) (f : Fmt) (s : State), let u := nxAt s b
    (∀ mode, nxDirect spNxLkpMode b f s = true → mode ≤ 1 →
      (mode = 1 → u.lkp.thread = false → heldItems u = 0) →
      (mode = 0 → u.lkp.thread = true → threadItems u + slotItems u = 0) →
      Answers (exec (.nxLkpMode b f mode) s) fun t => t.lkp = { u.lkp with thread := mode == 1 } ∧
        ∀ k, floeOf t k = if k < 96 then { floeOf u k with threadMode := mode == 1 } else floeOf u k) ∧
    (nxAccepted spNxLkpMode b f s = true → u.lkp.thread = false → heldItems u ≠ 0 →
      Answers (exec (.nxLkpMode b f 1) s) fun t =>
        t.inside = (takeBell s).inside ∧ ((hdrOf s b).dma = false → berthShows t b 0x0151 [])) ∧
    (∀ ws ceil, nxDirect spNxLkpGroup b f s = true → (∀ w, w ∈ ws → w.1 < 8 ∧ 1 ≤ w.2 ∧ w.2 ≤ 255) →
      (∀ c, ceil = some c → 10 ≤ c ∧ c ≤ 90) →
      Gives (exec (.nxLkpGroup b f ws ceil) s) { u with lkp := { u.lkp with
        weights := ws.foldl (fun t w => tabSet 1 t w.1 w.2) u.lkp.weights, ceil := ceil.getD u.lkp.ceil } }) ∧
    (∀ n, nxDirect spNxLkpTick b f s = true → (∀ r, r < 4 → towDepth u r = 0) → 1 ≤ n → n ≤ 64 →
      Gives (exec (.nxLkpTick b f n) s)
        { u with lkp := { u.lkp with tick := n, boundary := max (u.tb.sel / (n * 250 * 65536)) (u.lkp.boundary * towPeriod u / (n * 250 * 65536)) } }) ∧
    (∀ r, r = replyOf [((nums 4).map fun k => let x := lkpReach u k
          ((nums 16).map fun p => nv (x.pound p).length) ++ ((nums 8).map fun g => nv (x.gq g).length) ++
          (nums 4).map fun n => nv (x.list n).length).flatten ++ [nv (chqAll u).length]] →
      nxFits spNxLkpPurge b f s r.length = true → ∃ v, Completes (exec (.nxLkpPurge b f) s) spNxLkpPurge v b (hdrOf s b) r ∧
        (∀ k, k < 4 → (lkpReach v k).pounds = [] ∧ (lkpReach v k).groups = [] ∧ (lkpReach v k).tow = [] ∧
          (lkpReach v k).inject = (lkpReach u k).inject) ∧
        (∀ k, k < 8 → (lkpBank v k).heldCh = [] ∧ (lkpBank v k).chq = [] ∧ (lkpBank v k).rr = 0 ∧
          (lkpBank v k).deficit = [] ∧ (lkpBank v k).window = [] ∧ (lkpBank v k).slots = (lkpBank u k).slots) ∧
        v.lkp.thread = u.lkp.thread ∧ v.flumes = u.flumes ∧ v.media = u.media) ∧
    (let x := lkpReach u (objIdx s b)
     let v : State := if (hdrOf s b).clear then modReach u (objIdx s b) fun x =>
        { x with poundPeak := [], groupPeak := [], hold := 0, towLate := 0, badDesc := 0, poison := 0, govMerged := 0,
                 disp := 0, gdisp := 0 } else u
     ∀ r, r = replyOf [[nv (b2n u.lkp.thread), nv u.lkp.ceil, nv u.lkp.tick] ++ ((nums 8).map fun g => nv (weightOf u g)) ++
          ((nums 16).map fun p => [nv (tabGet 0 x.poundPeak p), nv (x.pound p).length]).flatten ++
          ((nums 8).map fun g => [nv (tabGet 0 x.groupPeak g), nv (x.gq g).length]).flatten ++
          [nv (chqAll u).length, nv (towDepth u (objIdx s b)), .ctr x.hold, .ctr x.towLate, .ctr x.badDesc, .ctr x.poison,
           .ctr x.govMerged, .ctr x.disp, .ctr x.gdisp]] →
       nxFits spNxLkpStats b f s r.length = true →
       Completes (exec (.nxLkpStats b f) s) spNxLkpStats v b (hdrOf s b) r)


/-! ## Basins and replay rings (chapter 07) -/

/-- A packet that reaches its Basin manager is taken by each member channel in turn, and by none where its frame reads poisoned from the
receive store (R310, R321); a channel whose Basin head has a poisoned word faults (R246). It is classified by R216: NOT_RUNNING, OVERSIZE,
DUPLICATE, LATE, TOO_EARLY, each discarded and counted; or accepted into the slot of its sequence, ready at once where no key applies; the
eighth TOO_EARLY in a row is discarded too, and the Basin is flushed and resyncs on it (R210, R217, R225). -/
def Obligations.BasinArrival : Prop :=
  (∀ (r : Nat) (errs : List (Nat × Ecc)) (a : Nat × List (Nat × Pkt)) (l : List (Nat × List (Nat × Pkt))) (q : Nat × Pkt)
     (s w : State) (bad : Bool),
     arrOf s r = a :: l → unitStalled s (168 + r) = false → a.2.head? = some q →
     pktRead { s with media := { s.media with arr := s.media.arr.erase a } } q.2 errs = (bad, w) →
     (bad = false → (∀ x, x ∈ a.2 → x.2.poison = false) →
       Settles (exec (.packetArrival ⟨r, errs⟩) s) fun u => u = a.2.foldl (fun s x => takePkt s r x.1 x.2) w) ∧
     ((bad = true ∨ ∃ x, x ∈ a.2 ∧ x.2.poison = true) → ∀ n id, q.2.frame = some (n, id) →
       Settles (exec (.packetArrival ⟨r, errs⟩) s) fun u => u = portCount w n 17 1)) ∧
  (∀ (r c : Nat) (p : Pkt) (s : State),
     (headHurt s c = false → rxKey (chanOf s c) p.legB = none → takePkt s r c p = (arrive s c p).2) ∧
     (headHurt s c = true → (chanOf s c).st.live = true → (chanOf (takePkt s r c p) c).st = .faulted)) ∧
  ∀ (c : Nat) (p : Pkt) (s : State), let ch := chanOf s c; let b := basinOf s c; let d := seqSub p.seq b.next
    let counted (k : Nat) : Arrived × State := (.discarded, modBasin s c fun b => { b with ctr := bump b.ctr k 1 })
    ((ch.st ≠ .running ∨ b.on_ = false) → arrive s c p = counted 11) ∧
    (ch.st = .running → b.on_ = true →
      (b.slotZ - 64 < p.payload.length - tagBytes s (rxKey ch p.legB) → arrive s c p = counted 4) ∧
      (p.payload.length - tagBytes s (rxKey ch p.legB) ≤ b.slotZ - 64 → b.anchored = true →
        (d + 2 ≤ b.slotsN → (∀ x, b.slot p.seq = some x → x.st = .failed) → rxKey ch p.legB = none →
          (arrive s c p).1 = .accepted ∧ (basinOf (arrive s c p).2 c).next = b.next ∧
          tabGet 0 (basinOf (arrive s c p).2 c).ctr 0 = sat64 (tabGet 0 b.ctr 0 + 1) ∧
          ∃ x, (basinOf (arrive s c p).2 c).slot p.seq = some x ∧ x.st = .ready ∧ x.seq = p.seq ∧ x.ts = p.ts ∧
            x.marker = p.marker ∧ x.len = p.payload.length) ∧
        (∀ x, d + 2 ≤ b.slotsN → b.slot p.seq = some x → x.st ≠ .failed → x.seq = p.seq → arrive s c p = counted 2) ∧
        (b.slotsN < d + 2 → 32768 ≤ d → let back := seqSub b.next p.seq
          (back ≤ 64 → b.hist.getLsbD (back - 1) = true → arrive s c p = counted 2) ∧
          ((64 < back ∨ b.hist.getLsbD (back - 1) = false) → (arrive s c p).1 = .discarded ∧
            tabGet 0 (basinOf (arrive s c p).2 c).ctr 1 = sat64 (tabGet 0 b.ctr 1 + 1) ∧
            (basinOf (arrive s c p).2 c).slots = b.slots)) ∧
        (b.slotsN < d + 2 → d < 32768 → b.early < 7 → (arrive s c p).1 = .discarded ∧
          (basinOf (arrive s c p).2 c).early = b.early + 1 ∧
          tabGet 0 (basinOf (arrive s c p).2 c).ctr 3 = sat64 (tabGet 0 b.ctr 3 + 1)) ∧
        (b.slotsN < d + 2 → d < 32768 → 7 ≤ b.early → let t := (arrive s c p).2
          (arrive s c p).1 = .discarded ∧ (basinOf t c).next = p.seq ∧ (basinOf t c).x = p.ts ∧
          (basinOf t c).early = 0 ∧ (basinOf t c).disc = true ∧ (basinOf t c).slots = [] ∧
          tabGet 0 (basinOf t c).ctr 3 = sat64 (tabGet 0 b.ctr 3 + 1) ∧
          tabGet 0 (basinOf t c).ctr 12 = sat64 (tabGet 0 b.ctr 12 + 1))))

/-- A playout decision (R221 to R223): the position is handed over present where the entry at NEXT is ready and its timestamp
within the limit, silent where silence is signalled or announced, else missing; it is posted as one item, to the channel's Floe in
its own chamber, with STATUS and SEQ in ARG; NEXT advances but at a silent position, POS always. A timestamp step beyond the limit
resyncs. An inserted position is missing and leaves NEXT where it is (R228). -/
def Obligations.PlayoutDecision : Prop :=
  ∀ (c n : Nat) (s : State), playoutDue s c = true → headHurt s c = false → (chanOf s c).floe = some n → n < 96 →
    c < 8192 → (chanOf s c).core.prio < 16 → itemGroup (chanOf s c) < 256 →
    let b := basinOf s c; let ch := chanOf s c
    let signalled := b.silence = true ∨ b.lastSid = true
    let items (u : State) : List FItem := let f := flumeOf u (bankFlume (bankOf n)); f.head.map (·.2) ++ f.body.map (·.2) ++ f.held
    let posted (u : State) (st : Nat) : Prop := (basinOf u c).pos = b.pos + 1 ∧ ∃ it : Item,
      items u = items s ++ [it.canalFlit (168 + n / 24)] ∧
      it.chamber = c ∧ it.target = n ∧ it.atomic = true ∧ it.delay = false ∧ it.prio = ch.core.prio ∧
      it.group = itemGroup ch ∧ it.w3.toNat % 4 = st ∧ bitsOf it.w3.toNat 31 16 = b.next % 65536
    (0 < b.stretch → Settles (exec (.playoutDecision c) s) fun u => posted u 2 ∧ (basinOf u c).next = b.next ∧
      (basinOf u c).stretch = b.stretch - 1) ∧
    (b.stretch = 0 →
    (∀ e, b.ready b.next = true → b.slot b.next = some e → let d := tsDiff e.ts b.x
      (signalled ∨ d.natAbs ≤ stepLimit s ch) →
      ((d ≤ (tsStep s ch : Int) ∨ (e.marker = false ∧ ¬ signalled)) → memPoisoned s (b.addr b.next) b.slotZ = false →
        Settles (exec (.playoutDecision c) s) fun u => posted u 0 ∧ (basinOf u c).next = (b.next + 1) % 65536 ∧
          (basinOf u c).silence = false ∧ (basinOf u c).hist = (b.hist <<< 1) ||| 1) ∧
      ((tsStep s ch : Int) < d → (e.marker = true ∨ signalled) →
        Settles (exec (.playoutDecision c) s) fun u => posted u 1 ∧ (basinOf u c).next = b.next ∧
          (basinOf u c).silence = true)) ∧
    (b.ready b.next = false → (¬ signalled ∨ ∃ p, p ∈ b.slots ∧ p.2.st = .ready ∧ tsDiff p.2.ts b.x ≤ 0) →
      Settles (exec (.playoutDecision c) s) fun u => posted u 2 ∧ (basinOf u c).next = (b.next + 1) % 65536 ∧
        (basinOf u c).silence = false ∧ (basinOf u c).hist = b.hist <<< 1) ∧
    (b.ready b.next = false → signalled → (∀ p, p ∈ b.slots → p.2.st = .ready → 0 < tsDiff p.2.ts b.x) →
      Settles (exec (.playoutDecision c) s) fun u => posted u 1 ∧ (basinOf u c).next = b.next) ∧
    (∀ e, b.ready b.next = true → b.slot b.next = some e → ¬ signalled → stepLimit s ch < (tsDiff e.ts b.x).natAbs →
      Settles (exec (.playoutDecision c) s) fun u => (basinOf u c).next = e.seq ∧ (basinOf u c).x = e.ts ∧
        (basinOf u c).disc = true ∧ items u = items s ∧ ∀ p, p ∈ (basinOf u c).slots → p.2.seq = e.seq))

/-- Depth and drift (R227 to R230): the target stays within DEPTH_MIN and DEPTH_MAX; an increase that has waited ADAPT_WAIT without
silence is made by inserting positions; ε at its limit for 10 s is posted once; at a whole second a slip discards the oldest ready
entry or inserts one position where the mean depth is more than a packet time away from the depth. -/
def Obligations.DepthAndDrift : Prop :=
  (∀ (ch : Chan) (b : Basin) (now : Nat), ch.blk.depthMin ≤ ch.blk.depthMax → b.margins ≠ [] →
    (∀ q, q ∈ b.margins → now ≤ q.1 + ch.live.adaptWin * 1000000000) → ch.live.adaptQ ≤ 1000 → 0 < ch.live.adaptQ →
    ch.blk.depthMin ≤ (targetOf ch b now).2 ∧ (targetOf ch b now).2 ≤ ch.blk.depthMax ∧
    let m := (targetOf ch b now).1; let k := b.margins.length * (1000 - ch.live.adaptQ) / 1000 + 1
    (b.margins.filter fun q => q.2 < m).length < k ∧ k ≤ (b.margins.filter fun q => q.2 ≤ m).length ∧
    m ∈ b.margins.map (·.2)) ∧
  ∀ (c : Nat) (s : State), (chanOf s c).st = .running → let ch := chanOf s c; let b := basinOf s c
    (∀ t, b.anchored = true → ch.blk.adaptive = true → ch.core.tdmSrc = false → ch.core.codec.linear = false →
      b.depth < b.target → b.upSince = some t → t + ch.live.adaptWait * 500000000 ≤ nowNs s → b.stretch = 0 →
      let n := ((b.target - b.depth) * 6 + ch.rxTicks - 1) / ch.rxTicks
      Settles (exec (.stretchInsert c) s) fun u => (basinOf u c).stretch = n ∧
        (basinOf u c).depth = b.depth + n * ch.rxTicks / 6 ∧ (basinOf u c).slots = b.slots ∧
        tabGet 0 (basinOf u c).ctr 13 = sat64 (tabGet 0 b.ctr 13 + 1)) ∧
    (ch.blk.drift = .sluice → 10 ≤ b.epsSecs → b.epsPosted = false → b.eps.natAbs = 20000 →
      (s.nx.chanQ.filter fun e => e.chan == c).length < 16 →
      Settles (exec (.bsnDriftLimit c) s) fun u => (basinOf u c).epsPosted = true ∧
        ∃ e, u.nx.chanQ = s.nx.chanQ ++ [e] ∧ e.chan = c ∧ e.code = 0x2A) ∧
    (ch.blk.drift = .slip → b.depthN ≠ 0 → b.lastSec < nowNs s / 1000000000 →
      let mean := b.depthSum / (b.depthN : Int); let pt : Int := ch.rxTicks * 1000000 / 48
      (mean + pt < b.depth * 125000 → Settles (exec (.slip c) s) fun u => (basinOf u c).stretch = b.stretch + 1 ∧
        tabGet 0 (basinOf u c).ctr 15 = sat64 (tabGet 0 b.ctr 15 + 1)) ∧
      (∀ x, (b.depth : Int) * 125000 + pt < mean → oldestReady b = some x →
        Settles (exec (.slip c) s) fun u => (basinOf u c).slot x.seq = none ∧ (basinOf u c).stretch = b.stretch ∧
          tabGet 0 (basinOf u c).ctr 15 = sat64 (tabGet 0 b.ctr 15 + 1)))

/-- What recording a position does to a ring (R236 to R239): the block goes to its place and the last written index moves on; a
pinned mark that would be overtaken is dragged to the oldest block, with MARK_LOST, or under COMPAT_Q48 the block is dropped. A
rewind ends at the later of its target and the mark, and a reply that waited for that is given then (R240). The pool gives places that lie in it and meet no other (R211). -/
def Obligations.RingRecording : Prop :=
  (∀ (s : State) (n c : Nat) (blk : List Byte), let r := ringOf s n; let t := recordIn s n c blk
    ((∀ m, r.mark = some m → r.written < m + r.nb) →
      ringOf t n = { r with written := r.written + 1, dropping := false } ∧
      ∀ o, canalWhere s (r.body + r.written % r.nb * r.z) = .ddr o → readBytes t.fab.ddr o blk.length = blk) ∧
    (∀ m, r.mark = some m → m + r.nb ≤ r.written → s.dev.compatQ48 = false →
      (ringOf t n).written = r.written + 1 ∧ (ringOf t n).mark = some (r.written + 1 - r.nb) ∧
      (ringOf t n).markLost = true ∧ (ringOf t n).lostCnt = sat64 (r.lostCnt + 1) ∧
      r.written + 1 - r.nb ≤ (ringOf t n).readPos) ∧
    (∀ m, r.mark = some m → m + r.nb ≤ r.written → s.dev.compatQ48 = true →
      ringOf t n = { r with drop := sat64 (r.drop + 1), dropping := true } ∧ t.fab = s.fab)) ∧
  (∀ (s : State) (n target w : Nat) (l : Bool), (ringOf s n).rew = some (target, w, l) →
    (ringOf (resolveRewind s n) n).st = .enabled ∧ (ringOf (resolveRewind s n) n).rew = none ∧
      (ringOf (resolveRewind s n) n).readPos = max target (ringOf s n).markAt ∧
      ∀ b h, s.nx.later.find? (fun x => x.1 == n) = some (n, b, h) → h.dma = false →
        berthShows (resolveRewind s n) b 0 (rewindReply w (max target (ringOf s n).markAt) l)) ∧
  ∀ (s : State) (base size n c : Nat), s.media.pool = some (base, size) → poolFit s n = some c →
    base ≤ c ∧ c + n ≤ base + size ∧
    ∀ a, a ∈ s.media.allocs → c + n ≤ a.base ∨ a.base + a.size ≤ c

/-- The Basin and ring commands complete with their effect (R212, R235, R237, R240 to R244): the pool, DEFINE, ENABLE with its body
from the pool, MARK, REWIND, READ of whole blocks into host memory, DISABLE, FREE and the statistics. The
rewind of a ring that records waits for the next position, its reply with it (R240). The order of the statistics' values is the model's
(log 108). -/
def Obligations.RingCommands : Prop :=
  ∀ (b : Nat) (f : Fmt) (s : State), let u := nxAt s b; let k := objIdx s b; let r := ringOf u k
    (∀ base size, nxDirect spNxBsnPool b f s = true → base % 65536 = 0 → size % 65536 = 0 →
      base + size + 71 * 2 ^ 20 ≤ ddrUsable u → (∀ a, a ∈ u.media.allocs → a.kind ≠ 1 ∧ a.kind ≠ 2) →
      Gives (exec (.nxBsnPool b f base size) s) { u with media := { u.media with pool := some (base, size) } }) ∧
    (∀ chan span, nxDirect spNxRingDefine b f s = true → chan < 8192 →
      Gives (exec (.nxRingDefine b f chan span) s)
        (modRing u k fun _ => { Ring.reset with st := .defined, chan := chan, span := span })) ∧
    (∀ base, nxDirect spNxRingEnable b f s = true → let ch := chanOf u r.chan
      let nb := (r.span * 48000 + ch.rxTicks - 1) / ch.rxTicks; let z := (basinOf u r.chan).slotZ
      ch.core.usesBasin = true → ch.st.live = true → 1 ≤ r.span → r.span ≤ 120 → ringCtxs u (mgrOf u r.chan) < 256 →
      poolFit u (nb * z) = some base →
      Answers (exec (.nxRingEnable b f) s) fun t => ringOf t k =
          { r with st := .enabled, mgr := mgrOf u r.chan, nb := nb, z := z, body := base, written := 0, mark := none,
                   markLost := false, readPos := 0, dropping := false, bodyUe := false, detached := false, rew := none } ∧
        t.media.allocs = u.media.allocs ++ [{ kind := 1, num := k, base := base, size := nb * z }] ∧
        (∀ n, n ≠ k → ringOf t n = ringOf u n) ∧ t.media.chans = u.media.chans) ∧
    (∀ i, nxDirect spNxRingMark b f s = true →
      (i ≤ r.written → r.written ≤ i + r.nb → Gives (exec (.nxRingMark b f (some i)) s)
        (modRing u k fun r => { r with mark := some i, dropping := false })) ∧
      Gives (exec (.nxRingMark b f none) s) (modRing u k fun r => { r with mark := none, dropping := false })) ∧
    (∀ span x, nxDirect spNxRingRewind b f s = true → recording u k = false →
      x = max (r.written - span) r.markAt → nxInBerth spNxRingRewind b f s 16 = true →
      Answers (exec (.nxRingRewind b f span) s) fun t => (ringOf t k).readPos = x ∧ (ringOf t k).st = .enabled ∧
        (ringOf t k).written = r.written ∧ (ringOf t k).mark = r.mark ∧ berthShows t b 0
          (replyOf [[nv (r.written - x), nv 0]])) ∧
    (∀ span, nxInBerth spNxRingRewind b f s 16 = true → recording u k = true →
      Gives (exec (.nxRingRewind b f span) s) (let v := modRing u k fun r =>
        { r with st := .rewinding, rew := some (r.written - span, r.written, false) }
        { v with nx := { v.nx with later := v.nx.later ++ [(k, b, hdrOf s b)] } })) ∧
    (∀ count addr, nxAccepted spNxRingRead b f s = true → replyFits u (hdrOf s b) 24 = true →
      Gives (exec (.nxRingRead b f count addr) s) (addLong u b (hdrOf s b) (.ringRead k count addr))) ∧
    (nxDirect spNxRingDisable b f s = true → Answers (exec (.nxRingDisable b f) s) fun t =>
      (ringOf t k).st = .defined ∧ (ringOf t k).chan = r.chan ∧ (ringOf t k).span = r.span ∧ (ringOf t k).written = 0 ∧
        (∀ n, n ≠ k → ringOf t n = ringOf u n) ∧ ∀ a, a ∈ t.media.allocs → ¬ (a.kind = 1 ∧ a.num = k)) ∧
    (nxDirect spNxRingFree b f s = true → Gives (exec (.nxRingFree b f) s) (modRing u k fun _ => Ring.reset)) ∧
    (∀ l, l = replyOf [[.ctr r.lostCnt, .ctr r.readSkip, .ctr r.drop, nv r.markAt, nv r.readPos,
        .val ((r.written : Int) - 1), nv (ringStatus r)]] → nxInBerth spNxRingStats b f s l.length = true →
      Replies (exec (.nxRingStats b f) s) (if (hdrOf s b).clear then modRing u k fun r =>
        { r with lostCnt := 0, readSkip := 0, drop := 0, markLost := false } else u) b l) ∧
    (∀ l, let x := basinOf u k; l = replyOf [((nums 16).map fun n => .ctr (tabGet 0 x.ctr n)) ++
        [nv x.depth, nv x.target, .val x.margin, .val x.eps]] → nxInBerth spNxBsnStats b f s l.length = true →
      Replies (exec (.nxBsnStats b f) s)
        (if (hdrOf s b).clear then modBasin u k fun x => { x with ctr := [] } else u) b l) ∧
    ∀ l n count addr, s.dev.inReset = false → s.dev.nxUp = true → s.dev.iceRuns = true → hostOk s = true →
      (s.nx.long.find? fun x => x.berth == b) = some l → l.work = .ringRead n count addr → l.hdr.dma = false →
      let g := ringOf s n; let first := max g.readPos g.markAt; let m := min count (g.written - first)
      Settles (exec (.longCommandComplete b [] 0 none) s) fun u => (ringOf u n).readPos = first + m ∧
        (∀ j, j < m → readBytes u.hostMem (addr + j * g.z) g.z = memRead s (g.body + (first + j) % g.nb * g.z) g.z) ∧
        l ∉ u.nx.long


/-! ## The Junction (chapter 08) -/

/-- A bus output sample (R261, R267): the terms of its list but of the crosspoints whose source is MINUS or whose words were found
poisoned, each the exact product rounded half up to sample scale, summed exactly and saturated once at 32 bits; the sum never
exceeds 2^45. A ramp moves between its ends and ends exactly at its target (R263). The block goes to the bus's output ring and the
samples saturated are counted (R258, R262). -/
def Obligations.JunctionArithmetic : Prop :=
  (∀ (s : State) (t : Samples) (b i : Nat), let x := busOf s b
    let ks := (listOf s b).filter fun k => !(xpOf s k).faulted && x.minus != some (xpOf s k).src
    let acc := (ks.map fun k => (sampleAt t (xpOf s k).src i * (xpOf s k).gainAt (i + 1) + 4096) / 8192).sum
    (busSample s t b i).1 = max (-2147483648) (min 2147483647 acc) ∧
    ((busSample s t b i).2 = true ↔ 2147483647 < acc ∨ acc < -2147483648) ∧
    ((listOf s b).length ≤ 4096 →
      (∀ k, k ∈ ks → -32768 ≤ (xpOf s k).gainAt (i + 1) ∧ (xpOf s k).gainAt (i + 1) ≤ 32767 ∧
        -2147483648 ≤ sampleAt t (xpOf s k).src i ∧ sampleAt t (xpOf s k).src i ≤ 2147483647) → acc.natAbs ≤ 2 ^ 45)) ∧
  (∀ (g0 g1 : Int) (n i : Nat),
    (n ≤ i → rampGain g0 g1 n i = g1) ∧
    (i < n → min g0 g1 ≤ rampGain g0 g1 n i ∧ rampGain g0 g1 n i ≤ max g0 g1 ∧
      2 * n * rampGain g0 g1 n i ≤ 2 * n * g0 + 2 * (g1 - g0) * i + n ∧
      2 * n * g0 + 2 * (g1 - g0) * i < 2 * n * rampGain g0 g1 n i + n)) ∧
  (∀ (x : XPoint) (g : Int) (ms : Nat), x.pend = some (g, ms) →
    x.begin.target = g ∧ x.begin.rampMs = ms ∧ x.begin.pend = none ∧ x.begin.total = 48 * ms ∧
    (ms = 0 → x.begin.gain = g) ∧ (ms ≠ 0 → x.begin.gain = x.gain ∧ x.begin.g0 = x.gain)) ∧
  ∀ (s : State) (t : Samples) (j b base n o : Nat), sourceRing s (8192 + b) = some (base, n) →
    canalWhere s (base + (j + 1) % n * 32) = .ddr o → (busOf s b).faulted = false →
    let out := (nums 6).map fun i => busSample s t b i
    readBytes (busBlock s t j b).fab.ddr o 32 =
      leBytes (j + 1) 8 ++ (out.map fun x => leBytes (BitVec.ofInt 32 x.1).toNat 4).flatten ∧
    (busOf (busBlock s t j b) b).clip = sat32 ((busOf s b).clip + (out.filter (·.2)).length)

/-- The Junction's commands, events and registers complete with their effect (R248 to R252, R256, R259, R260, R263 to R266, R269,
R271): a crosspoint takes the lowest free number of its slice; gains of up to 30 crosspoints wait for one boundary; a deleted one
fades out; MINUS waits for the boundary in SERVICE; a write at the instant of a block boundary waits for that boundary first. Poisoned
words of a bus zero its output, are counted and raise JCT_UE (R272, R522). Gains and MINUS written outside SERVICE apply at once by the model's choice
(log 36). -/
def Obligations.JunctionCommands : Prop :=
  (∀ (late xpUe busUe : List Nat) (j : Nat) (s : State), s.jct.block = some j → s.dev.devState = .service →
    6 * (j + 1) ≤ tick48 s →
    Settles (exec (.blockBoundary late xpUe busUe) s) fun u => u.jct.block = some (j + 1) ∧
      ∀ n, n < 8 → late = [] → (sliceOf u n).overrun = (sliceOf s n).overrun) ∧
  (∀ (s : State) (b : Nat), let t := busFault s b; let n := b / 512
    (busOf t b).faulted = true ∧ (sliceOf t n).ue = sat32 ((sliceOf s n).ue + 1) ∧ t.jct.xps = s.jct.xps ∧
    (s.dev.iceRuns = true → s.ice.lanes.ring.en = true → 3 ≤ s.ice.lanes.ring.minSev →
      (t.ice.lanes.ring.pend.any fun r => r.code == 0x31 && decide (0 < r.count)) = true)) ∧
  (∀ (n : Nat) (w : Word) (s : State), n < 8 →
    (w.getLsbD 30 = true → Gives (exec (.jctSliceStatusWrite n w) s) (modSlice s n fun x => { x with ovrSeen := false })) ∧
    (w.getLsbD 30 = false → Gives (exec (.jctSliceStatusWrite n w) s) s) ∧
    Gives (exec (.jctSliceCountRead n 0) s) (returned (modSlice s n fun x => { x with overrun := 0 }) (sliceOf s n).overrun) ∧
    Gives (exec (.jctSliceCountRead n 1) s) (returned (modSlice s n fun x => { x with late := 0 }) (sliceOf s n).late) ∧
    Gives (exec (.jctSliceCountRead n 2) s) (returned (modSlice s n fun x => { x with ue := 0 }) (sliceOf s n).ue)) ∧
  ∀ (b : Nat) (f : Fmt) (s : State), let u := nxAt s b; let k := objIdx s b; let x := busOf u k
    (∀ share parent minus, nxDirect spNxJctBusDefine b f s = true → parent < 4096 →
      (∀ m, minus = some m → m < 12288) → Gives (exec (.nxJctBusDefine b f share parent minus) s)
        (modBus u k fun _ => { Bus.reset with st := .defined, share := share, parent := parent, minus := minus })) ∧
    (blockDue s = true → (∀ share parent minus, exec (.nxJctBusSet b f share parent minus) s = .next s) ∧
      (∀ es, exec (.nxJctXpSet b f es) s = .next s) ∧ exec (.nxJctXpDelete b f) s = .next s) ∧
    (∀ m, nxDirect spNxJctBusSet b f s = true → blockDue s = false → (∀ n, m = some n → n < 12288) →
      (let v := if s.dev.devState = .service then modBus u k fun x => { x with minusNext := some m }
         else modBus u k fun x => { x with minus := m }
       (x.st = .enabled → sliceTerms v (k / 512) ≤ 16384 ∧ sliceTerms (minusDue v) (k / 512) ≤ 16384) →
       Gives (exec (.nxJctBusSet b f none none (some m)) s) v)) ∧
    (∀ share parent, nxDirect spNxJctBusSet b f s = true → blockDue s = false →
      (x.st = .defined → parent < 4096 → (share = true → x.share = true ∨ (x.xps = [] ∧ listBuses u k = [k])) →
        Gives (exec (.nxJctBusSet b f (some share) (some parent) none) s)
          (modBus u k fun x => { x with share := share, parent := parent })) ∧
      (x.st = .enabled → Answers (exec (.nxJctBusSet b f (some share) (some parent) none) s) fun t =>
        t.inside = u.inside ∧ ((hdrOf s b).dma = false → berthShows t b 0x0201 []))) ∧
    (∀ base, nxDirect spNxJctBusEnable b f s = true → let v := modBus u k fun x => { x with st := .enabled, faulted := false }
      (x.share = true → (busOf u x.parent).st = .enabled ∧ (busOf u x.parent).share = false ∧ x.parent / 512 = k / 512) →
      onCycle u k = false → sliceTerms v (k / 512) ≤ 16384 → sliceTerms (minusDue v) (k / 512) ≤ 16384 → poolFit u 32768 = some base →
      Gives (exec (.nxJctBusEnable b f) s) { v with media := { v.media with allocs :=
        v.media.allocs ++ [{ kind := 2, num := k, base := base, size := 32768 }] } }) ∧
    (nxDirect spNxJctBusDisable b f s = true → shareOf u k = none →
      Answers (exec (.nxJctBusDisable b f) s) fun t => busOf t k = { x with st := .defined } ∧ t.jct.xps = u.jct.xps ∧
        ∀ a, a ∈ t.media.allocs ↔ a ∈ u.media.allocs ∧ ¬ (a.kind = 2 ∧ a.num = k)) ∧
    (nxDirect spNxJctBusFree b f s = true → shareOf u k = none → busUser u k = none →
      Answers (exec (.nxJctBusFree b f) s) fun t => busOf t k = Bus.reset ∧
        ∀ y, y ∈ x.xps → xpOf t y = XPoint.reset) ∧
    (∀ src gain ramp n, nxInBerth spNxJctXpAdd b f s 12 = true → src < 12288 → -32768 ≤ gain → gain ≤ 32767 →
      ramp ≤ 1000 → onList u k src = false → closesCycle u k src = false → freeXp u (k / 512) = some n →
      termsFit (xpPut u k n src 0 0 none) (k / 512) = true →
      Answers (exec (.nxJctXpAdd b f src gain ramp) s) fun t => berthShows t b 0 (replyOf [[nv n]]) ∧
        n / 4096 = k / 512 ∧ (∀ m, 4096 * (k / 512) ≤ m → m < n → m ∈ xpsUsed u (k / 512)) ∧
        xpOf t n = { XPoint.reset with bus := k, src := src, gain := gain, target := gain, rampMs := ramp } ∧
        busOf t k = { x with xps := x.xps ++ [n] } ∧ ∀ m, m ≠ k → busOf t m = busOf u m) ∧
    (∀ es : List XpSet, nxDirect spNxJctXpSet b f s = true → blockDue s = false → es.length ≤ 30 → s.dev.devState = .service →
      (∀ e, e ∈ es → e.1 < 32768 ∧ -32768 ≤ e.2.1 ∧ e.2.1 ≤ 32767 ∧ e.2.2 ≤ 1000 ∧ xpUsed u e.1 = true ∧
        (xpOf u e.1).deleting = false) →
      Answers (exec (.nxJctXpSet b f es) s) fun t => t.jct.buses = u.jct.buses ∧ ∀ n, xpOf t n =
        match es.reverse.find? fun e => e.1 == n with
        | some e => { xpOf u n with pend := some (e.2.1, e.2.2) }
        | none => xpOf u n) ∧
    (nxDirect spNxJctXpDelete b f s = true → blockDue s = false → s.dev.devState = .service → (xpOf u k).entry = none →
      (xpOf u k).deleting = false → Gives (exec (.nxJctXpDelete b f) s)
        (modXp u k fun x => { x with pend := some (0, x.rampMs), deleting := true })) ∧
    (nxInBerth spNxJctStats b f s (88 + 16 * x.xps.length) = true →
      let v : State := if (hdrOf s b).clear then modSlice (modBus u k fun x => { x with clip := 0 }) (k / 512) fun y =>
        { y with overrun := 0, late := 0, ue := 0 } else u
      Answers (exec (.nxJctStats b f) s) fun t => t.inside = v.inside ∧ berthNum t b 14 2 = 88 + 16 * x.xps.length ∧
        readBytes t.nx.berthMem (b * berthSize t + 44) 8 = leBytes x.clip 8)


/-! ## The Sluice (chapter 09) -/

/-- Stage arithmetic (R277 to R280): a DEC stage outputs at phase 0 the rounded, shifted and saturated sum over its N taps of the samples
up to the current one, zeros before the history began, and its phase wraps at M; an INT stage gives L outputs, output j from taps j, j +
L, …; a DC stage subtracts its rounded estimate and, unless frozen, moves it. The standard profiles have the reserved rates and settle
counts of R290. Outputs delivered lower the count of unsettled outputs and carry the mark while it lasts (R292). Where a context goes
(R289): a running lane of the reach that holds the profile, not faulted, with a free context and the reserved rate to spare, with the most
free contexts of those, ties to the lowest; the lowest free context of it. The refusals are 0x0322 and 0x0340. -/
def Obligations.SluiceArithmetic : Prop :=
  ((∀ (coef : Nat → Int) (g : Stage) (frozen : Bool) (eps : Int) (z : StageSt) (x : Int),
     let sat (q : Int) : Int := max (-2147483648) (min 2147483647 q)
     let shifted (q : Int) : Int := if g.shift = 0 then q else (q + 2 ^ (g.shift - 1)) / 2 ^ g.shift
     let past (l : List Int) (i : Nat) : Int := l.getD i 0
     let out (q : Int) : Int × Nat := (sat q, if sat q = q then 0 else 1)
     (g.kind = .dec → let r := stageStep coef g frozen eps z x
       r.1.phase = (z.phase + 1) % g.ratio ∧ r.1.hist = (x :: z.hist).take g.n ∧
       r.2 = if z.phase = 0 then [out (shifted (((nums g.n).map fun i =>
         (past (x :: z.hist) i * coef (g.coef + i) + 32768) / 65536).sum))] else []) ∧
     (g.kind = .int → 0 < g.ratio → g.n % g.ratio = 0 → let r := stageStep coef g frozen eps z x
       r.2 = (nums g.ratio).map fun j => out (shifted (((nums (g.n / g.ratio)).map fun i =>
         (past (x :: z.hist) i * coef (g.coef + j + g.ratio * i) + 32768) / 65536).sum))) ∧
     (g.kind = .dcb → stageStep coef g frozen eps z x =
       ({ z with dc := if frozen then z.dc else z.dc + (x * 2 ^ 24 - z.dc + 2 ^ (g.k - 1)) / 2 ^ g.k },
        [out (x - (z.dc + 2 ^ 23) / 2 ^ 24)])) ∧
     (g.kind = .adapt → ∀ (hist : List Int) (frac : Nat), frac * g.p / 2 ^ 32 + 1 < g.p →
       let y (i : Nat) : Int := adaptPhase coef g (hist.drop 1) i; let i := frac * g.p / 2 ^ 32
       (adaptOut coef g hist frac).1 =
         sat (y i + ((y (i + 1) - y i) * ((frac * g.p / 2 ^ 16 % 2 ^ 16 : Nat) : Int) + 32768) / 65536))) ∧
   ((nums 6).map fun p => ((stdProfile p).mac, (stdProfile p).u)) =
     [(1248000, 6), (2496000, 6), (576000, 36), (576000, 6), (768000, 24), (768000, 8)] ∧
   (∀ (r : SluRun) (o : List Int), let t := r.emit o
     t.out = o.reverse ++ r.out ∧ t.c.left = r.c.left - o.length ∧
     (r.c.left = 0 → t.mark = r.mark) ∧
     (0 < r.c.left → o ≠ [] → t.mark = r.out.length + min r.c.left o.length))) ∧
  (∀ (s : State) (r p : Nat),
     let free (l : Nat) : Nat := 512 - (laneOf s l).bound.length
     let holds (l : Nat) : Prop := 4 * r ≤ l ∧ l < 4 * r + 4 ∧ (laneOf s l).run = true ∧ ((laneOf s l).prof p).isSome = true ∧
       (laneOf s l).faulted.contains p = false ∧ 0 < free l
     let fits (l : Nat) : Prop := (laneOf s l).load + (laneOf s l).macOf p ≤ 1200000000
     (∀ k, sluPlace s r p = .ok k → let l := k / 512
       holds l ∧ fits l ∧ (∀ m, holds m → fits m → free m < free l ∨ (free m = free l ∧ l ≤ m)) ∧
       k % 512 ∉ (laneOf s l).bound.map (·.1) ∧ ∀ c, c < k % 512 → c ∈ (laneOf s l).bound.map (·.1)) ∧
     ((∃ l, holds l) → (∀ l, holds l → ¬ fits l) → sluPlace s r p = .error 0x0340) ∧
     ((∀ l, ¬ holds l) → sluPlace s r p = .error 0x0322))

/-- Requests, sync and the Sluice's commands complete with their effect (R273, R282 to R286, R295 to R302): a request of the lane's own
reach is accepted in order, or held while the lane is stopped or its queue full; that a lane takes nothing from another reach is the
model's choice (log 181); one served writes its outputs and posts its completion; a malformed one
is counted, writes nothing and completes with ERR. A sync event while another is pending is ignored and counted. -/
def Obligations.SluiceCommands : Prop :=
  (∀ (l dom : Nat) (data : List Byte) (s : State), l < 16 → data.length = 32 → s.dev.inReset = false → canalIssuer dom = true →
    let x := laneOf s l
    (sluServes l dom = false → Gives (exec (.sluiceRequest l dom data) s) s) ∧
    (sluServes l dom = true → x.run = true → x.held = [] → x.queue.length < 256 →
      Gives (exec (.sluiceRequest l dom data) s) (modLane s l fun x => { x with queue := x.queue ++ [sluReqOf data] })) ∧
    (sluServes l dom = true → (x.run = false ∨ 256 ≤ x.queue.length) →
      Gives (exec (.sluiceRequest l dom data) s) (modLane s l fun x => { x with held := x.held ++ [sluReqOf data] }))) ∧
  (∀ (l o : Nat) (q : SluReq) (t : List SluReq) (c : Ctx) (p : Profile) (s : State), let x := laneOf s l
    let items (u : State) (it : Item) : List FItem :=
      let f := flumeOf u (bankFlume (postBank (l / 4) it)); f.head.map (·.2) ++ f.body.map (·.2) ++ f.held
    x.queue = q :: t → unitStalled s (128 + l) = false → x.run = true → x.rewrite = false → x.held = [] → ctxOf s (512 * l + q.ctx) = some c →
    x.prof c.prof = some p → x.faulted.contains c.prof = false → q.ctx < 512 →
    (q.rsvd = false → 1 ≤ q.count → q.count ≤ 4096 → q.inPtr % 32 = 0 → q.outPtr % 32 = 0 →
      canalWhere s q.outPtr = .ddr o →
      let r := sluLoop x.coef p (ctxEps s c) q.tick 0 (sluIn s q).1
        { c := c.begin p q, out := [], sat := 0, mark := 0, moved := false, late := 0, slip := 0 }
      r.out.length ≤ 8192 →
      Settles (exec (.sluiceRequestDone ⟨l, []⟩ none false) s) fun u => (laneOf u l).queue = t ∧
        ctxOf u (512 * l + q.ctx) = some { r.c with sat := sat64 (r.c.sat + r.sat), stepPend := false } ∧
        readBytes u.fab.ddr o (4 * r.out.length) =
          (r.out.reverse.map fun y => leBytes (BitVec.ofInt 32 y).toNat 4).flatten ∧
        ∃ it : Item, items u it = items s it ++ [it.canalFlit (128 + l)] ∧
          (c.kind < 64 → c.chamber < 65536 → c.target < 256 → (ctxPrio s c).1 < 16 → (ctxPrio s c).2 < 256 →
            it.kind = c.kind ∧ it.chamber = c.chamber ∧ it.target = c.target ∧ it.atomic = c.atomic ∧
            it.w3.toNat = r.out.length + r.mark * 2 ^ 14 + b2n (decide (0 < r.sat)) * 2 ^ 28 +
              b2n (decide (0 < (sluIn s q).2)) * 2 ^ 29 + b2n r.moved * 2 ^ 30)) ∧
    ((q.rsvd = true ∨ q.count = 0 ∨ 4096 < q.count ∨ q.inPtr % 32 ≠ 0 ∨ q.outPtr % 32 ≠ 0) →
      Settles (exec (.sluiceRequestDone ⟨l, []⟩ none false) s) fun u => (laneOf u l).queue = t ∧ u.fab = s.fab ∧
        (laneOf u l).bad = sat32 (x.bad + 1) ∧ ctxOf u (512 * l + q.ctx) = some c ∧
        ∃ it : Item, items u it = items s it ++ [it.canalFlit (128 + l)] ∧ it.w3 = 0x80000000)) ∧
  (∀ s : State, s.slu.pinEn = true → s.dev.inReset = false →
    (s.slu.pending = true → tick48 s < s.slu.tick →
      Gives (exec (.sluSyncEdge false) s) { s with slu := { s.slu with ign := sat32 (s.slu.ign + 1) } }) ∧
    ((s.slu.pending = false ∨ s.slu.tick ≤ tick48 s) → Answers (exec (.sluSyncEdge false) s) fun t =>
      t.slu.pending = true ∧ t.slu.tick = tick48 s + 1 ∧ t.slu.ign = s.slu.ign ∧
        ∀ l k c, l < 16 → (k, c) ∈ (laneOf t l).bound → tick48 s + 1 ∈ c.sync)) ∧
  (∀ (l : Nat) (w : Word) (s : State), l < 16 → let x := laneOf s l
    Gives (exec (.coefRewriteDone l) s) (modLane s l fun x => { x with rewrite := false }) ∧
    exec (.sluLaneCtrlWrite l .host w) s = .next s ∧
    (w.getLsbD 0 = false → Gives (exec (.sluLaneCtrlWrite l .canal w) s) (modLane s l fun x => { x with run := false })) ∧
    Gives (exec (.sluCountRead l 0) s) (returned (modLane s l fun x => { x with sat := 0 }) x.sat) ∧
    Gives (exec (.sluCountRead l 1) s) (returned (modLane s l fun x => { x with ue := 0 }) x.ue) ∧
    Gives (exec (.sluCountRead l 2) s) (returned (modLane s l fun x => { x with slip := 0 }) x.slip) ∧
    Gives (exec (.sluCountRead l 3) s) (returned (modLane s l fun x => { x with late := 0 }) x.late) ∧
    Gives (exec (.sluCountRead l 4) s) (returned (modLane s l fun x => { x with bad := 0 }) x.bad) ∧
    Gives (exec (.sluSyncTickRead false) s)
      (returned { s with slu := { s.slu with tickHi := some (BitVec.ofNat 32 (s.slu.tick / 2 ^ 32)) } }
        (s.slu.tick % 2 ^ 32)) ∧
    (∀ h, s.slu.tickHi = some h → Gives (exec (.sluSyncTickRead true) s)
      (returned { s with slu := { s.slu with tickHi := none } } h.toNat)) ∧
    Gives (exec .sluSyncIgnRead s) (returned { s with slu := { s.slu with ign := 0 } } s.slu.ign)) ∧
  ∀ (b : Nat) (f : Fmt) (s : State), let u := nxAt s b; let k := objIdx s b
    (nxDirect spNxSluStop b f s = true → chanCtx u k = none →
      Gives (exec (.nxSluStop b f) s) (modLane u k fun x => { x with run := false })) ∧
    (nxDirect spNxSluStart b f s = true → Answers (exec (.nxSluStart b f) s) fun t => (laneOf t k).run = true ∧
      (laneOf t k).queue ++ (laneOf t k).held = (laneOf u k).queue ++ (laneOf u k).held ∧
      (laneOf t k).ctxs = (laneOf u k).ctxs) ∧
    (∀ profs coefs, nxAccepted spNxSluLoad b f s = true → (∀ p, p ∈ profs → 6 ≤ p.1 ∧ p.1 ≤ 15 ∧
        chainShape p.2.2 = true ∧ (∀ g, g ∈ p.2.2 → stageOk g = true) ∧ historyOk p.2.2 = true ∧
        p.2.1 ∈ sluRates ∧ ratesWhole p.2.2 p.2.1 = true ∧ profUsed u k p.1 = none) →
      (∀ c, c ∈ coefs → 1776 ≤ c.1 ∧ c.1 ≤ 2047) →
      Gives (exec (.nxSluLoad b f profs coefs) s) (addLong u b (hdrOf s b)
        (.sluLoad (profs.map fun p => (p.1, some (mkProfile p.2.1 p.2.2))) coefs))) ∧
    (∀ l p cs, s.dev.inReset = false → s.dev.nxUp = true → s.dev.iceRuns = true →
      (s.nx.long.find? fun x => x.berth == b) = some l → l.work = .sluLoad [(6, some p)] cs →
      Answers (exec (.longCommandComplete b [] 0 none) s) fun t => (laneOf t l.hdr.idx).prof 6 = some p ∧
        l ∉ t.nx.long ∧ (laneOf t l.hdr.idx).ctxs = (laneOf s l.hdr.idx).ctxs) ∧
    (∀ reach prof kind chamber atomic target c p, nxInBerth spNxSluCtxBind b f s 16 = true → reach < 4 → prof < 16 →
      kind < 64 → chamber < 65536 → targetReach target = some reach → sluPlace u reach prof = .ok c →
      (laneOf u (c / 512)).prof prof = some p →
      Replies (exec (.nxSluCtxBind b f reach prof kind chamber atomic target) s)
        (setCtx u c (some (newCtx p prof kind chamber atomic target none))) b
        (replyOf [[nv (c / 512), nv (c % 512)]])) ∧
    (∀ v x, nxDirect spNxSluCtxSet b f s = true → s.dev.devState = .service → ctxOf u k = some x → x.owner = none →
      (laneOf (setCtx u k (some x)) (k / 512)).load ≤ 1200000000 →
      Gives (exec (.nxSluCtxSet b f (some v) false none) s) (setCtx u k (some { x with frzPend := some v }))) ∧
    (∀ x, nxDirect spNxSluCtxFree b f s = true → ctxOf u k = some x → x.owner = none →
      Gives (exec (.nxSluCtxFree b f) s) (setCtx u k none)) ∧
    (nxDirect spNxSluSync b f s = true → (u.slu.pending = false ∨ u.slu.tick ≤ tick48 u) →
      Answers (exec (.nxSluSync b f) s) fun t => t.slu.pending = true ∧ t.slu.tick = tick48 u + 1) ∧
    (nxDirect spNxSluStats b f s = true → (hdrOf s b).dma = true → (hdrOf s b).clear = false →
      8368 + 20 * (laneOf u k).bound.length ≤ (hdrOf s b).outLen → Gives (exec (.nxSluStats b f) s) u)


/-! ## The Quay ports, host rings and streams (chapter 10) -/

/-- What becomes of a received frame (R305, R306, R311, R330, R331): it is judged in the order FCS, length, MAC control, address, room,
counted where it ends, and otherwise joins flume 384 + n with its corrected stamp. A frame classified goes to the Timebase, to its flow
entry's consumer or to the default ring (R313), and is released once every consumer has taken it (R310); while the classifier holds
what it has to post, none is classified (R309); a flow word read poisoned drops it, counted, and the entry is rewritten (R319). After reset no address or hash bin is set and broadcast alone is let through. -/
def Obligations.QuayReceive : Prop :=
  (∀ (c : PortCfg) (l : List Byte), rxAccept c l = true ↔ c.promisc = true ∨ (be l 0 6 = 2 ^ 48 - 1 ∧ c.bcast = true) ∨
    (∃ e, e ∈ c.uc ∧ e.2 = be l 0 6 + 2 ^ 48) ∨
    (bitOf (be l 0 1) 0 = true ∧ (c.mcAll = true ∨ hashBin (l.take 6) ∈ c.bins))) ∧
  (∀ (n : Nat) (l : List Byte) (raw dt corr uncorr : Nat) (dom : Bool) (s : State), portRuns s n = true →
    let c := (portOf s n).cfg; let v := portCount (portCount s n 4 corr) n 5 uncorr
    let r : Out := exec (.frameReceive n l raw dom dt corr uncorr) s
    c.rxEn = true → c.link = true →
    (fcsOk l = false → Settles r fun u => u = portCount v n 2 1) ∧
    (fcsOk l = true → (l.length < 64 ∨ c.maxFrame < l.length) → Settles r fun u => u = portCount v n 3 1) ∧
    (fcsOk l = true → 64 ≤ l.length → l.length ≤ c.maxFrame →
      (∀ q, be l 12 2 = 0x8808 → be l 14 2 = 0x0001 → be l 16 2 = q → c.pauseRx = true → Settles r fun u =>
        tabGet 0 (portOf u n).ctr 10 = sat64 (tabGet 0 (portOf v n).ctr 10 + 1) ∧
        (portOf u n).rxq = (portOf s n).rxq ∧ (portOf u n).paused = if q = 0 then none else
          some (s.tb.sel + dt + (q * 512 * 65536 + max 1 (gbps c.speed) - 1) / max 1 (gbps c.speed))) ∧
      (be l 12 2 = 0x8808 → be l 14 2 = 0x0101 → Settles r fun u => u = portCount v n 11 1) ∧
      (be l 12 2 ≠ 0x8808 → rxAccept c l = false → Settles r fun u => u = portCount v n 6 1) ∧
      (be l 12 2 ≠ 0x8808 → rxAccept c l = true → let i := 384 + n
        (flumeB i < (flumeOf s i).wrOcc (flumeB i) + (frameItems l).length → Settles r fun u =>
          (portOf u n).rxq = (portOf s n).rxq ∧ flumeOf u i = flumeOf s i ∧
          tabGet 0 (portOf u n).ctr 7 = sat64 (tabGet 0 (portOf v n).ctr 7 + 1)) ∧
        ((flumeOf s i).wrOcc (flumeB i) + (frameItems l).length ≤ flumeB i → Settles r fun u =>
          (flumeOf u i).body.map (·.2) = (flumeOf s i).body.map (·.2) ++ frameItems l ∧ (portOf u n).rxq =
            (portOf s n).rxq ++ [{ bytes := l, stamp := timeAdd raw (-(c.corrRx.toNat * 256 : Nat)), dom := b2n dom }])))) ∧
  (∀ (n : Nat) (ecc : List (List Ecc)) (ue : Option (Nat × Nat)) (s v : State) (x : RxFrame) (t : List RxFrame) (items : List FItem),
    portRuns s n = true → let p := portOf s n
    p.rxq = x :: t → rxUsed p + (x.bytes.length + 32 + 255) / 256 ≤ rxCells s → postHeld s n = false →
    popItems s (384 + n) (fun k => ecc.getD k []) (frameItems x.bytes).length = some (items, v) →
    let f : Stored_ := { id := p.nextId, frame := x, cells := (x.bytes.length + 32 + 255) / 256,
                         cellAt := takeCells p ((x.bytes.length + 32 + 255) / 256), takers := [], tag := 0, hit := false,
                         ptp := false, poison := items.any fun i => i.words.any (·.poison) }
    Settles (exec (.frameClassify n ecc ue) s) fun u =>
      u = classify (cleanCells (modPort v n fun p => { p with rxq := t, nextId := p.nextId + 1 }) n f) n f ue) ∧
  (∀ (n : Nat) (ecc : List (List Ecc)) (ue : Option (Nat × Nat)) (s : State), postHeld s n = true →
    exec (.frameClassify n ecc ue) s = .next s) ∧
  (∀ (s : State) (n : Nat) (f : Stored_) (ue : Option (Nat × Nat)),
    let p := parseFrame (f.frame.bytes.take (f.frame.bytes.length - 4))
    (∀ m, p.ptp = some m → classify s n f ue = toTimebase s n f m) ∧
    (p.ptp = none → flowLookup s n p ue = .miss → classify s n f ue = toHost s n (portOf s n).cfg.defRing f) ∧
    (∀ k e, p.ptp = none → flowLookup s n p ue = .hit k e →
      (e.act = .drop → classify s n f ue = portCount s n 15 1) ∧
      (∀ h, e.act = .host h → classify s n f ue = toHost (portCount s n 14 1) n h { f with tag := e.tag, hit := true })) ∧
    (∀ b i, p.ptp = none → flowLookup s n p ue = .bad b i →
      (∀ k e, flowAt s b i = some (k, e) → flowOf (classify s n f ue) k = some { e with poison := true }) ∧
      (portOf (classify s n f ue) n).store = (portOf s n).store ∧
      tabGet 0 (portOf (classify s n f ue) n).ctr 18 = sat64 (tabGet 0 (portOf s n).ctr 18 + 1))) ∧
  (∀ (n id t : Nat) (f : Stored_) (s : State), storedOf s n id = some f → t ∈ f.takers → takerDone s n id t = true →
    Settles (exec (.frameRelease n id t) s) fun u =>
      (f.takers = [t] → storedOf u n id = none) ∧
      (f.takers.erase t ≠ [] → storedOf u n id = some { f with takers := f.takers.erase t })) ∧
  (∀ n, let c := (portOf State.reset n).cfg; c.uc = [] ∧ c.bins = [] ∧ c.bcast = true ∧ c.mcAll = false ∧ c.promisc = false) ∧
  ∀ (e : Nat) (x : FlowEntry) (s : State), flowOf s e = some x → x.poison = true → s.dev.iceRuns = true →
    Gives (exec (.flowEntryRewrite e) s) (setFlow s e (some { x with poison := false }))

/-- The flow table (R314, R315, R316, R319, R342): a lookup takes the most specific key type that hits; a poisoned candidate of a key it
reads, whichever bank holds it, ends it; an insertion takes a free candidate in
the lowest bank, keeps every other entry under its number with its key, action and tag, and is refused where the key is there
already. NX_FLOW_ADD and NX_FLOW_DEL add and delete host entries. -/
def Obligations.FlowTable : Prop :=
  (∀ (s : State) (n : Nat) (p : Parsed) (ue : Option (Nat × Nat)) (k : Nat) (e : FlowEntry) (m : List Byte) (a d : Nat),
    p.udp = some (a, d, m) → flowLookup s n p ue = .hit k e →
    let key (t : Nat) : List Byte :=
      flowKey t n (p.vids.headD 0x1000) p.ipv p.dstIp d p.srcIp ((rtpOf m).elim 0 (·.ssrc.toNat))
    ∃ t, t < 4 ∧ e.key = key t ∧ ∀ j, t < j → j < 4 → (j < 2 ∨ (rtpOf m).isSome = true) →
      (∃ x, x ∈ flowUsed s ∧ x.2.key.take 2 = [BitVec.ofNat 8 j, BitVec.ofNat 8 n]) → flowFind s (key j) = none) ∧
  (∀ (s : State) (n : Nat) (p : Parsed) (ue : Option (Nat × Nat)) (key : List Byte) (t : List (List Byte)), flowKeys s n p = key :: t →
    let hurt (b : Nat) : Prop := b < 4 ∧ (ue = some (0, b) ∨ ∃ x, flowAt s b (flowCand key b) = some x ∧ x.2.poison = true)
    ((∃ b, hurt b) → ∃ b, hurt b ∧ flowLookup s n p ue = .bad b (flowCand key b)) ∧
    ((∀ b, ¬ hurt b) → ∀ k e, flowFind s key = some (k, e) → flowLookup s n p ue = .hit k e)) ∧
  (∀ (s t : State) (key : List Byte) (act : FlowAct) (tag n : Nat), flowInsert s key act tag = .ok (n, t) →
    flowFind s key = none ∧ flowOf s n = none ∧ (∃ e, flowOf t n = some e ∧ e.key = key ∧ e.act = act ∧ e.tag = tag) ∧
    (∀ m e, m ≠ n → flowOf s m = some e → ∃ e', flowOf t m = some e' ∧ e'.key = e.key ∧ e'.act = e.act ∧ e'.tag = e.tag) ∧
    ∀ b, b < 4 → flowAt s b (flowCand key b) = none → (∀ c, c < b → flowAt s c (flowCand key c) ≠ none) →
      ∃ e, flowOf t n = some e ∧ e.bank = b ∧ e.idx = flowCand key b) ∧
  (∀ (s : State) (key : List Byte) (act : FlowAct) (tag : Nat), (flowFind s key).isSome = true →
    flowInsert s key act tag = .error 0x019B) ∧
  ∀ (b : Nat) (f : Fmt) (s : State), let u := nxAt s b; let k := objIdx s b
    (∀ t port vid ipv dst udp src ssrc act tag n v, nxDirect spNxFlowAdd b f s = true → hostAct act = true → tag < 65536 →
      keyValid t port vid ipv dst udp src (BitVec.toNat ssrc) = true → port = k →
      flowInsert u (flowKey t port vid ipv dst udp src ssrc.toNat) act tag = .ok (n, v) →
      Gives (exec (.nxFlowAdd b f t port vid ipv dst udp src ssrc act tag) s) v) ∧
    (nxDirect spNxFlowDel b f s = true → Gives (exec (.nxFlowDel b f) s) (setFlow u k none))

/-- Host rings (R332 to R339): a frame needs ⌈length / buffer⌉ descriptors, at least one; with fewer available it is dropped and counted,
none written; one found without OWN abandons the frame, counted, HEAD staying; a frame of one buffer stands in it, its descriptor written
back, and HEAD moves past it. A transmit frame of one descriptor joins the queue of its class whole, its descriptor written back; one
without FIRST is written back with error 3 and counted. RING_TAIL, RING_STATUS, RING_CFG and the ring counts are written and read as
R11, R14, R333 and R342 say. -/
def Obligations.HostRings : Prop :=
  (∀ (n : Nat) (q : DmaReq) (t : List DmaReq) (f : Stored_) (id : Nat) (ds : List (Bool × Nat)) (errs : List (Nat × Ecc))
    (s : State), portRuns s n = true → hostOk s = true → (portOf s n).dma = q :: t → q.frame = some id → storedOf s n id = some f →
    wireRing s q.ring = true → (frameRead (modPort s n fun p => { p with dma := t }) n f errs).1 = false →
    let r := dmaOf s q.ring; let data := f.frame.bytes.take (f.frame.bytes.length - 4)
    let k := max 1 ((data.length + bufBytes r.bufsz - 1) / bufBytes r.bufsz)
    (r.avail < k → Settles (exec (.rxDmaPlace ⟨n, errs⟩ ds) s) fun u => u.hostMem = s.hostMem ∧ (portOf u n).dma = t ∧
      dmaOf u q.ring = { r with dropNobuf := sat64 (r.dropNobuf + 1), nobuf := true }) ∧
    (k ≤ r.avail → (∃ j, j < k ∧ (ds.getD j (false, 0)).1 = false) →
      Settles (exec (.rxDmaPlace ⟨n, errs⟩ ds) s) fun u => (portOf u n).dma = t ∧
        dmaOf u q.ring = { r with dropDesc := sat64 (r.dropDesc + 1), race := true }) ∧
    (∀ a, k ≤ r.avail → k = 1 → ds.head? = some (true, a) → (r.desc 0 + 32 ≤ a ∨ a + data.length ≤ r.desc 0) →
      Settles (exec (.rxDmaPlace ⟨n, errs⟩ ds) s) fun u => readBytes u.hostMem a data.length = data ∧
        readBytes u.hostMem (r.desc 0 + 16) 16 = rxDesc f true data.length (bufBytes r.bufsz) 0 1 ∧
        dmaOf u q.ring = { r with head := (r.head + 1) % r.size, frames := sat64 (r.frames + 1) })) ∧
  (∀ (g : Nat) (d : TxDesc) (s : State), portRuns s (g / 32) = true → g / 16 % 2 = 1 → hostOk s = true →
    let r := dmaOf s g; let n := g / 32; let fr := hostFrame r [d]
    r.en = true → r.channel = false → 1 ≤ r.avail → d.own = true → d.last = true →
    (d.first = true → 1 ≤ d.len → d.len ≤ 9216 → d.len + 4 ≤ (portOf s n).cfg.maxFrame → txRoom s n fr.cls fr.cells = true →
      (∀ x, x ∈ (portOf s n).txHeld → x.cls ≠ fr.cls) →
      Settles (exec (.txDescriptorFetch g [d]) s) fun u => tabGet [] (portOf u n).txq r.cls = tabGet [] (portOf s n).txq r.cls ++ [fr] ∧
        dmaOf u g = { r with head := (r.head + 1) % r.size, frames := sat64 (r.frames + 1) } ∧
        readBytes u.hostMem (r.desc 0 + 20) 4 = [d.flags, 0, 0, 0]) ∧
    (d.first = false → Settles (exec (.txDescriptorFetch g [d]) s) fun u => (portOf u n).txq = (portOf s n).txq ∧
      dmaOf u g = { r with head := (r.head + 1) % r.size, dropDesc := sat64 (r.dropDesc + 1) } ∧
      readBytes u.hostMem (r.desc 0 + 20) 4 = [d.flags, 1, 3, 0])) ∧
  ∀ (q : Nat) (w : Word) (s : State), q < 128 → barLive s .host = true → let r := dmaOf s q; let n := w.toNat
    (n % 32768 < r.size → Gives (exec (.ringTailWrite q w) s) (modDma s q fun r => { r with tail := n % 32768 })) ∧
    Gives (exec (.ringStatusWrite q w) s)
      (modDma s q fun r => { r with race := r.race && !w.getLsbD 30, nobuf := r.nobuf && !w.getLsbD 29 }) ∧
    (r.en = true → w.getLsbD 31 = false → Answers (exec (.ringCfgEnWrite q w) s) fun t =>
      dmaOf t q = { r with modUs := bitsOf n 15 6, en := false }) ∧
    (r.en = false → ringIdle s q = true → w.getLsbD 31 = true →
      let v := { r with modUs := bitsOf n 15 6, channel := bitOf n 30, cls := bitsOf n 26 24, vector := bitsOf n 23 16,
                        bufsz := bitsOf n 5 4, log2 := bitsOf n 3 0 }
      Answers (exec (.ringCfgEnWrite q w) s) fun t => dmaOf t q =
        if r.base.toNat % 4096 = 0 ∧ 6 ≤ bitsOf n 3 0 ∧ bitsOf n 5 4 < 3 then { v with en := true, reason := 0 }
        else { v with reason := 0x0199 }) ∧
    ∀ k, k < 3 → Answers (exec (.ringCountRead q k false) s) fun t => (dmaOf t q).count k = 0 ∧
      t.dev.rdata.toNat = r.count k % 2 ^ 32 ∧ tabGet none (dmaOf t q).hi k = some (BitVec.ofNat 32 (r.count k / 2 ^ 32)) ∧
      Answers (exec (.ringCountRead q k true) t) fun u => u.dev.rdata.toNat = r.count k / 2 ^ 32 % 2 ^ 32

/-- Sending (R323 to R328, R330, R340): at a start opportunity the highest class goes whose head frame its gate lets start, frames of a
class leaving in order; a frame sent is counted; a lane with room takes the next frame of its class; a pause ends at its time. Gate
intervals set the entry and the open gates; gate lists switch at the first cycle start at least 1 ms after their command. An assembled
packet is sent at its deadline. The gate test's time is that of R327, rounded up. -/
def Obligations.QuayTransmit : Prop :=
  (∀ (s : State) (p : Port) (t c : Nat) (held : List Nat), startPick s p t (nums 8).reverse = (some c, held) →
    let may (c : Nat) (f : TxFrame) : Prop := (f.prot.isSome = true → protOk s = true) ∧
      (p.cfg.gateEn = true → gateTest p c (f.bytes.length + 4) t = true)
    (∃ f q, tabGet [] p.lanes c = f :: q ∧ may c f) ∧ c < 8 ∧
    ∀ j f q, c < j → j < 8 → tabGet [] p.lanes j = f :: q → ¬ may j f) ∧
  (∀ (n dt raw c : Nat) (dom : Bool) (f : TxFrame) (q : List TxFrame) (s : State), let p := portOf s n
    portRuns s n = true → p.cfg.txEn = true → p.cfg.link = true → p.sending = none →
    (∀ e, p.paused = some e → e ≤ s.tb.sel + dt) → startPick s p (s.tb.sel + dt) (nums 8).reverse = (some c, []) →
    tabGet [] p.lanes c = f :: q → f.inst = none → f.tsReq = false → f.oneStep = false → f.csum = false →
    Settles (exec (.frameStart n dt raw dom false) s) fun u => (portOf u n).sending = some f ∧
      tabGet [] (portOf u n).lanes c = q ∧ ∀ j, j ≠ c → tabGet [] (portOf u n).lanes j = tabGet [] p.lanes j) ∧
  (∀ (n dt : Nat) (s : State), let p := portOf s n
    (∀ f, p.sending = some f → Settles (exec (.frameSent n) s) fun u => (portOf u n).sending = none ∧
      tabGet 0 (portOf u n).ctr 19 = sat64 (tabGet 0 p.ctr 19 + 1) ∧
      tabGet 0 (portOf u n).ctr 20 = sat64 (tabGet 0 p.ctr 20 + (f.bytes.length + 4))) ∧
    (∀ c f q, portRuns s n = true → tabGet [] p.txq c = f :: q → (tabGet [] p.lanes c).length < 2 → p.txHeld = [] →
      Settles (exec (.txLaneMove n c []) s) fun u => tabGet [] (portOf u n).txq c = q ∧
        tabGet [] (portOf u n).lanes c = tabGet [] p.lanes c ++ [f]) ∧
    (∀ e, p.paused = some e → e ≤ s.tb.sel + dt →
      Gives (exec (.pauseExpire n dt) s) (modPort s n fun p => { p with paused := none })) ∧
    (portRuns s n = true → p.cfg.gateEn = true → ∀ g i m d, p.gate = some g → g.at_ (s.tb.sel + dt) = some (i, m, d) →
      Answers (exec (.gateIntervalEnd n dt) s) fun t => (portOf t n).entry = i ∧ (portOf t n).open_ = m) ∧
    (∀ g x, portRuns s n = true → p.gatePend = some (g, x) → x ≤ s.tb.sel + dt →
      Answers (exec (.gateListSwitch n dt) s) fun t => (portOf t n).gate = some g ∧ (portOf t n).gatePend = none ∧
        (portOf t n).cfg = { p.cfg with gateEn := true }) ∧
    (∀ g : Gate, 0 < g.cycle → g.base ≤ s.tb.sel + 65536000000 → let x := g.first s.tb.sel
      (x - g.base) % (g.cycle * 65536) = 0 ∧ s.tb.sel + 65536000000 ≤ x ∧
        x < s.tb.sel + 65536000000 + g.cycle * 65536)) ∧
  (∀ (n dt k : Nat) (s : State), let x := txsOf s n; x.st = .enabled → x.asmNext = some k →
    k + 2 * asmTicks s x ≤ ticksOf 48000 (s.tb.sel + dt) → (x.asm.all fun a => a.1 == k) = true →
    Settles (exec (.txAssemblyDeadline n dt) s) fun u => u = asmSend s n k ∧
      (txsOf u n).sent = sat64 (x.sent + 1) ∧ (txsOf u n).seq = (x.seq + 1) % 65536 ∧
      (txsOf u n).asmNext = some (k + asmTicks s x)) ∧
  ∀ (l r : Nat), 0 < r → ((l + 8) * 8 * 5 + 64 * r) * 65536 ≤ 5 * r * tNeed l r ∧
    5 * r * tNeed l r < ((l + 8) * 8 * 5 + 64 * r) * 65536 + 5 * r

/-- Links and the ports' and streams' commands (R303, R320, R321, R328, R341, R342, R385, R491, R499, R500): a link up at a speed and
FEC of R304 enables the port, down or changed parameters restart the negotiation from the highest speed, and speeds are given up one
by one; the commands set parameters, filters and gates, enable, disable and free streams with their flow entries, and return counters,
which clear where the host reads them. The first sequence number of a transmit stream is open (log 58). -/
def Obligations.PortsAndStreams : Prop :=
  (∀ (n speed fec : Nat) (train : Bool) (s : State), portRuns s n = true → let c := (portOf s n).cfg
    (c.link = false → fecOk speed fec = true → speed ∈ c.neg.speeds → speed ∉ c.given →
      Answers (exec (.linkUp n speed fec train) s) fun t => let d := (portOf t n).cfg
        d.link = true ∧ d.speed = speed ∧ d.fec = fec ∧
        (d.rxEn = true ↔ s.dev.devState = .ready ∨ s.dev.devState = .service ∨ s.dev.devState = .recovery) ∧
        d.txEn = d.rxEn ∧ (negOf t (2 + n)).st = (if c.given = [] then .full else .degraded) ∧
        (negOf t (2 + n)).result = (if c.given = [] then 0 else 0x0810) ∧
        (tabGet none c.corrs (4 * speed + fec) = none → speed = 4 → fec = 2 → d.corrRx = 0x5480 ∧ d.corrTx = 0x4600)) ∧
    (c.link = true → Answers (exec (.linkDown n) s) fun t => (portOf t n).cfg =
      { c with link := false, speed := 0, fec := 0, rxEn := false, txEn := false, given := [] } ∧
      (negOf t (2 + n)).st = .pending) ∧
    (c.link = false → (negOf s (2 + n)).st = .pending →
      (Answers (exec (.ethLinkTimeout n .noCommon) s) fun t => (negOf t (2 + n)).st = .failed ∧
        (negOf t (2 + n)).result = 0x0811) ∧
      (∀ v w l, speedsLeft c = v :: w :: l → Answers (exec (.ethLinkTimeout n .timeout) s) fun t =>
        (portOf t n).cfg = { c with given := c.given ++ [v] } ∧ (negOf t (2 + n)).st = .pending) ∧
      (∀ v, speedsLeft c = [v] → Answers (exec (.ethLinkTimeout n .timeout) s) fun t =>
        (negOf t (2 + n)).st = .failed ∧ (negOf t (2 + n)).result = 0x0812)) ∧
    ((negOf s (2 + n)).st = .failed → Answers (exec (.ethNegRetry n) s) fun t =>
      (portOf t n).cfg.given = [] ∧ (negOf t (2 + n)).st = .pending)) ∧
  (∀ (a : Agent) (n k : Nat) (s : State), barLive s a = true → n < 4 → k < 24 → let v := tabGet 0 (portOf s n).ctr k
    (Answers (exec (.quayCounterRead a n k false false) s) fun t => tabGet 0 (portOf t n).ctr k = 0 ∧
      t.dev.rdata.toNat = v % 2 ^ 32) ∧
    Answers (exec (.quayCounterRead a n k false true) s) fun t => (portOf t n).ctr = (portOf s n).ctr ∧
      t.dev.rdata.toNat = v % 2 ^ 32) ∧
  ∀ (b : Nat) (f : Fmt) (s : State), let u := nxAt s b; let k := objIdx s b; let p := portOf u k
    (∀ m, nxDirect spNxQuaySet b f s = true → s.dev.devState = .ready → 1518 ≤ m → m ≤ 9600 → framesFit u k m = true →
      gatesOk p m = none → negRules p.cfg.neg = none →
      Gives (exec (.nxQuaySet b f [.maxFrame m]) s) (modCfg u k fun c => { c with maxFrame := m })) ∧
    (∀ l, nxDirect spNxQuayFilter b f s = true → l.all FilterSet.inRange = true →
      Gives (exec (.nxQuayFilter b f l) s) (modCfg u k fun c => l.foldl PortCfg.filterSet c)) ∧
    (∀ es cyc base, nxDirect spNxQuayGate b f s = true → let g : Gate := { entries := es, cycle := cyc, base := base }
      gateRules g p.cfg.maxFrame p.cfg.speed = none →
      Gives (exec (.nxQuayGate b f es cyc base) s) (modPort u k fun p => { p with gatePend := some (g, g.first u.tb.sel) })) ∧
    (∀ r, r = replyOf [(nums 24).map fun n => .ctr (tabGet 0 p.ctr n)] → nxInBerth spNxQuayStats b f s r.length = true →
      Replies (exec (.nxQuayStats b f) s)
        (if (hdrOf s b).clear then modPort u k fun p => { p with ctr := [] } else u) b r) ∧
    (∀ l, nxDirect (spNxRxsDefine l) b f s = true → l.all RxSet.inRange = true → Gives (exec (.nxRxsDefine b f l) s)
      (modRxs u k fun _ => { RxStream.reset with st := .defined, p := l.foldl RxPar.set RxPar.reset })) ∧
    (∀ l, nxDirect (spNxRxsSet l) b f s = true → l.all RxSet.inRange = true → Gives (exec (.nxRxsSet b f l) s)
      (modRxs u k fun x => { x with p := l.foldl RxPar.set x.p })) ∧
    (∀ e v, nxDirect spNxRxsEnable b f s = true → let x := (rxsOf u k).p
      x.weir = false → x.nch = 1 → keyValid x.ktype x.port x.vid x.ipv x.dstIp x.dstUdp x.srcIp x.ssrc.toNat = true →
      flowInsert u (rxKeyOn x x.port) (.stream k) 0 = .ok (e, v) →
      Answers (exec (.nxRxsEnable b f) s) fun t => (rxsOf t k).st = .enabled ∧ (rxsOf t k).flows = [e] ∧
        (rxsOf t k).p = x ∧ t.net.flow = v.net.flow) ∧
    (nxDirect spNxRxsDisable b f s = true → rxNamed u k = none → Answers (exec (.nxRxsDisable b f) s) fun t =>
      (rxsOf t k).st = .defined ∧ (rxsOf t k).flows = [] ∧ (rxsOf t k).p = (rxsOf u k).p ∧
        ∀ e, e ∈ (rxsOf u k).flows → flowOf t e = none) ∧
    (nxDirect spNxRxsFree b f s = true → Gives (exec (.nxRxsFree b f) s) (modRxs u k fun _ => RxStream.reset)) ∧
    (nxInBerth spNxRxsStats b f s 12 = true → (rxsOf u k).p.weir = false → ∀ e, (rxsOf u k).flows = [e] →
      (hdrOf s b).clear = false → Replies (exec (.nxRxsStats b f) s) u b (replyOf [[nv e]])) ∧
    (∀ l, nxDirect (spNxTxsDefine l) b f s = true → l.all TxSet.inRange = true → Gives (exec (.nxTxsDefine b f l) s)
      (modTxs u k fun _ => { TxStream.reset with st := .defined, p := l.foldl TxPar.set TxPar.reset })) ∧
    (∀ l, nxDirect (spNxTxsSet l) b f s = true → l.all TxSet.inRange = true → Gives (exec (.nxTxsSet b f l) s)
      (modTxs u k fun x => { x with p := l.foldl TxPar.set x.p })) ∧
    (nxDirect spNxTxsEnable b f s = true → frameFits u k = true → (txsOf u k).p.nch = 1 → (txsOf u k).p.weir = false →
      Answers (exec (.nxTxsEnable b f) s) fun t => ∃ q, q < 65536 ∧ txsOf t k =
        { txsOf u k with st := .enabled, seq := q, seqBase := q, epoch := tick48 u, sent := 0, asm := [], asmNext := none,
                         ctxNo := none }) ∧
    (nxDirect spNxTxsDisable b f s = true → txNamed u k = none → Gives (exec (.nxTxsDisable b f) s)
      (modTxs u k fun x => { x with st := .defined, asm := [], asmNext := none, ctxNo := none })) ∧
    (nxDirect spNxTxsFree b f s = true → Gives (exec (.nxTxsFree b f) s) (modTxs u k fun _ => TxStream.reset)) ∧
    (nxInBerth spNxTxsStats b f s 104 = true → (txsOf u k).p.weir = false → (hdrOf s b).clear = true →
      Answers (exec (.nxTxsStats b f) s) fun t => (txsOf t k).late = 0 ∧ (txsOf t k).fails = [] ∧
        (txsOf t k).seq = (txsOf u k).seq ∧ readBytes t.nx.berthMem (b * berthSize t + 24) 8 = leBytes (txsOf u k).late 8)


/-! ## Weir and Tandem (chapters 11, 16) -/

/-- Seamless merging (R347 to R350): a sequence ahead of the window, or in it and not yet passed, is passed and marked; a second copy is
a duplicate; one outside is discarded, the eighth in a row resyncing. So no sequence passes twice in succession, on whichever legs.
Every sequence that leaves the window is accounted once. A unit judges its oldest arrival, which waits while a manager that would take
it withholds acknowledge (R198), and one read poisoned is dropped, counted on its port and its leg, and not judged (R310, R366). -/
def Obligations.WeirMerging : Prop :=
  (∀ (c : WeirCtx) (wp q : Nat) (legB : Bool), let d := seqSub q c.h; let back := seqSub c.h q; let j := weirJudge c wp q legB
    (c.valid = false → j.pass = true ∧ j.ctx.h = q ∧ j.ctx.passed = 1 ∧ j.counts = []) ∧
    (c.valid = true → 1 ≤ d → d ≤ 32767 → j.pass = true ∧ j.resync = false ∧ j.ctx.h = q ∧ (1 ≤ wp → ∀ i, i < wp →
      (j.ctx.passed.testBit i = (i == 0 || (decide (d ≤ i) && c.passed.testBit (i - d))) ∧
       j.ctx.seenA.testBit i = ((i == 0 && !legB) || (decide (d ≤ i) && c.seenA.testBit (i - d))) ∧
       j.ctx.seenB.testBit i = ((i == 0 && legB) || (decide (d ≤ i) && c.seenB.testBit (i - d))))) ∧
      ∃ a b n, j.counts = [(4, a), (5, b), (6, n)] ∧ a + b + n + ((nums (min d wp)).filter fun k =>
        c.seenA.testBit (wp - 1 - k) && c.seenB.testBit (wp - 1 - k)).length = d) ∧
    (c.valid = true → d = 0 ∨ 32767 < d → back < wp →
      j.pass = !c.passed.testBit back ∧ j.ctx.h = c.h ∧ j.counts = (if c.passed.testBit back then [(b2n legB, 1)] else []) ∧
      ∀ i, j.ctx.passed.testBit i = (i == back || c.passed.testBit i)) ∧
    (c.valid = true → d = 0 ∨ 32767 < d → wp ≤ back →
      (c.outRun < 7 → j.pass = false ∧ j.ctx = { c with outRun := c.outRun + 1 } ∧ j.counts = [(2 + b2n legB, 1)]) ∧
      (7 ≤ c.outRun → j.pass = true ∧ j.resync = true ∧ j.ctx.h = q ∧ j.ctx.passed = 1)) ∧
    ∀ legB', 1 ≤ wp → j.pass = true → (weirJudge j.ctx wp q legB').pass = false) ∧
  ∀ (u : Nat) (a : WeirIn) (t : List WeirIn) (s : State), tabGet [] s.net.weirIn u = a :: t → let n := a.stream
    let v := { s with net := { s.net with weirIn := tabSet [] s.net.weirIn u t } }
    (∀ ue errs, (takersOf s n).any (mgrFull s) = true → exec (.weirArrival ⟨u, errs⟩ ue) s = .next s) ∧
    ∀ (errs : List (Nat × Ecc)) (bad : Bool) (w : State), (takersOf s n).any (mgrFull s) = false → pktRead v a.pkt errs = (bad, w) →
      ((rxsOf s n).st = .enabled → bad = false → (rxsOf s n).ctx.faulted = false →
        Settles (exec (.weirArrival ⟨u, errs⟩ false) s) fun x => x = weirApply (legHeard w n a.pkt.legB) n a.pkt
          (weirJudge (rxsOf (legHeard w n a.pkt.legB) n).ctx (rxsOf s n).p.window a.pkt.seq a.pkt.legB)) ∧
      ((rxsOf s n).st = .enabled → bad = true → Settles (exec (.weirArrival ⟨u, errs⟩ false) s) fun x =>
        x.media.arr = s.media.arr ∧ (rxsOf x n).ctx = (rxsOf s n).ctx ∧ tabGet 0 (rxsOf x n).ctr (7 + b2n a.pkt.legB) =
          sat64 (tabGet 0 (rxsOf s n).ctr (7 + b2n a.pkt.legB) + 1) ∧
        ∀ q id, a.pkt.frame = some (q, id) → tabGet 0 (portOf x q).ctr 17 = sat64 (tabGet 0 (portOf w q).ctr 17 + 1)) ∧
      ((rxsOf s n).st ≠ .enabled → ∀ ue, Settles (exec (.weirArrival ⟨u, errs⟩ ue) s) fun x => x = w)

/-- The Weir's other events (R349 to R352, R366, R368): a silent leg is reported once; a failed tag clears its PASSED bit; which roles
send each leg; a packet to send is queued on both ports of the pair, one frame with each leg's headers, once the unit's earlier frames
have found room (R324), is counted, not sent, on a leg whose link is down, and is not sent at all while lifting; a poisoned
context is rebuilt; counters clear on a read. -/
def Obligations.WeirEvents : Prop :=
  (∀ (n dt : Nat) (s : State), let x := rxsOf s n; let t := s.tb.sel + dt
    x.st = .enabled → x.p.weir = true → x.ctx.silentA = false → x.ctx.lastA + 6553600000000 ≤ t →
    t ≤ x.ctx.lastB + 6553600000000 → Answers (exec (.weirLegSilent n false dt) s) fun u =>
      (rxsOf u n).ctx = { x.ctx with silentA := true } ∧ (rxsOf u n).ctr = x.ctr) ∧
  (∀ (u n q : Nat) (b : Bool) (t : List (Nat × Nat × Bool)) (s : State), tabGet [] s.net.weirBad u = (n, q, b) :: t →
    (rxsOf s n).ctx.valid = true → seqSub (rxsOf s n).ctx.h q < (rxsOf s n).p.window →
    Answers (exec (.weirAuthFailReport u) s) fun v => tabGet [] v.net.weirBad u = t ∧ ∀ i,
      (rxsOf v n).ctx.passed.testBit i = (i != seqSub (rxsOf s n).ctx.h q && (rxsOf s n).ctx.passed.testBit i)) ∧
  (∀ (u : Nat) (o : WeirOut) (t : List WeirOut) (s : State), tabGet [] s.net.weirOut u = o :: t →
    let n := o.stream; let x := (txsOf s n).p; let p := x.port / 2 * 2
    (txWaits s (164 + u) = true → exec (.weirTxDuplicate u) s = .next s) ∧
    (txWaits s (164 + u) = false → s.tdm.st = .off ∨ s.tdm.st = .solo →
      let fr (b : Bool) : TxFrame := mediaFrame s n (p + b2n b) (if b then x.legB else x.a) (o.rtp ++ o.payload) true (164 + x.port)
      (∀ b, (portOf s (p + b2n b)).cfg.link = true ∧ legKey s o.chan b = none ∧
        ((portOf s (p + b2n b)).txHeld.any fun f => f.cls == x.cls) = false ∧
        txRoom s (p + b2n b) x.cls (fr b).cells = true) →
      Settles (exec (.weirTxDuplicate u) s) fun v => tabGet [] v.net.weirOut u = t ∧ ∀ b,
        tabGet [] (portOf v (p + b2n b)).txq x.cls = tabGet [] (portOf s (p + b2n b)).txq x.cls ++ [fr b]) ∧
    (txWaits s (164 + u) = false → Settles (exec (.weirTxDuplicate u) s) fun v =>
      v = weirLeg (weirLeg { s with net := { s.net with weirOut := tabSet [] s.net.weirOut u t } } o false) o true) ∧
    (txWaits s (164 + u) = false → s.tdm.st = .off → (portOf s p).cfg.link = false → (portOf s (p + 1)).cfg.link = false →
      Answers (exec (.weirTxDuplicate u) s) fun v => tabGet [] v.net.weirOut u = t ∧ v.net.ports = s.net.ports ∧
        tabGet 0 (txsOf v n).ctr 10 = sat64 (tabGet 0 (txsOf s n).ctr 10 + 1) ∧
        tabGet 0 (txsOf v n).ctr 11 = sat64 (tabGet 0 (txsOf s n).ctr 11 + 1)) ∧
    (txWaits s (164 + u) = false → s.tdm.st = .lifting → Answers (exec (.weirTxDuplicate u) s) fun v => tabGet [] v.net.weirOut u = t ∧
      v.net.ports = s.net.ports ∧ v.net.txs = s.net.txs)) ∧
  (∀ s : State, sendsLeg s false = true ↔ s.tdm.st = .off ∨ s.tdm.st = .solo ∨
    (s.tdm.st = .primary ∧ ∀ t, s.tdm.drill ≠ some (.mute t))) ∧
  (∀ s : State, sendsLeg s true = true ↔ s.tdm.st = .off ∨ s.tdm.st = .solo ∨ s.tdm.st = .standby) ∧
  (∀ (n : Nat) (s : State), (rxsOf s n).ctx.faulted = true → s.dev.iceRuns = true →
    Answers (exec (.weirContextRebuild n) s) fun t => (rxsOf t n).ctx.faulted = false ∧ (rxsOf t n).ctx.valid = false) ∧
  ∀ s : State, s.dev.inReset = false →
    Gives (exec (.weirTdmCountRead 0) s) (returned { s with tdm := { s.tdm with crc0 := 0 } } s.tdm.crc0) ∧
    Gives (exec (.weirTdmCountRead 1) s) (returned { s with tdm := { s.tdm with crc1 := 0 } } s.tdm.crc1) ∧
    Gives (exec (.weirTdmCountRead 2) s) (returned { s with tdm := { s.tdm with takeovers := 0 } } s.tdm.takeovers)

/-- Tandem (R353 to R365, R502 to R504): ALIVE_OUT goes on only in SERVICE with a fresh timer; a loss of the link holds the roles, the
loss of the peer takes over, each leg A slot's mark raised to the reported one plus 2^16, and none lowered (R360, R425); commands, epochs and marks pass between the devices while the link
carries records (R353), and a mirrored Junction command due at a block boundary takes effect after it (R263, R356); a joining
device takes each lifted channel and becomes STANDBY when every one is lifted; a drill swaps roles or mutes leg A for its period; the
Tandem commands complete. -/
def Obligations.TandemPair : Prop :=
  (∀ (fresh peer : Bool) (s : State), s.dev.tandemEn = true → s.dev.inReset = false →
    Gives (exec (.aliveToggle fresh peer) s) (
      let go := fresh && s.dev.iceRuns && s.dev.devState == .service
      { s with tdm := { s.tdm with aliveFresh := go, aliveOut := s.tdm.aliveOut ^^ go, aliveIn := s.tdm.aliveIn || peer } })) ∧
  (∀ s : State, tdmRuns s = true →
    (Answers (exec .tandemHelloSend s) fun t => t.tdm.hellos = s.tdm.hellos + 1 ∧ t.tdm.st = s.tdm.st ∧
      ∃ h, t.tdm.out = some h ∧ h.devState = s.dev.devState.no ∧ h.tdm = s.tdm.st.no ∧ h.ident = s.tdm.ident ∧
        h.pref = s.tdm.pref) ∧
    (∀ h a b, (s.tdm.st = .solo → h.tdm = 1 → s.tdm.ident ≤ h.ident) →
      Gives (exec (.tandemHelloReceive h a b 0 0) s) { s with tdm := { s.tdm with
        peer := some h, helloAt := some s.tb.elapsed, lane0 := a, lane1 := b, crc0 := sat32 s.tdm.crc0,
        crc1 := sat32 s.tdm.crc1 } }) ∧
    (s.tdm.lane0 = true → Gives (exec .tandemLinkLoss s)
      { s with tdm := { s.tdm with lane0 := false, lane1 := false, helloAt := none } }) ∧
    (s.tdm.aliveIn = true → s.tdm.st = .standby → let ks := legSlots s (protTx s) false
      Answers (exec .peerLost s) fun t => t.tdm.st = .solo ∧ t.tdm.aliveIn = false ∧
        t.tdm.takeovers = sat32 (s.tdm.takeovers + 1) ∧ (negOf t 17).result = 0x0854 ∧
        (∀ k w, k ∈ ks → tabGet none s.tdm.report k = some w → (slotOf t k).hot.hwm =
          some (max (w + 65536) ((slotOf s k).hot.hwm.getD 0))) ∧
        ∀ k, k ∉ ks → slotOf t k = slotOf s k) ∧
    (s.tdm.st = .primary → s.tdm.aliveIn = true → Answers (exec .peerLost s) fun t => t.tdm.st = .solo ∧ t.rime = s.rime)) ∧
  (∀ (t n base epoch : Nat) (h : NxHdr) (i : Instr) (marks : List (Nat × Nat)) (s : State), tdmRuns s = true →
    (linkUp s = true → s.tdm.st = .standby → Gives (exec (.mirroredCommand t h i) s) { s with mirror := s.mirror ++ [(t, h, i)] }) ∧
    (linkUp s = true → s.tdm.st = .primary → s.mirrorOut ≠ [] →
      Gives (exec (.mirroredCommand t h i) s) { s with mirrorOut := s.mirrorOut.drop 1 }) ∧
    (linkUp s = true → s.tdm.st = .standby → n < 16384 → (txsOf s n).p.weir = true → Answers (exec (.streamEpochRecord n base epoch) s) fun u =>
      (txsOf u n).seqBase = base % 65536 ∧ (txsOf u n).epoch = epoch ∧
        (txsOf u n).seq = (base % 65536 + (txsOf s n).sent) % 65536) ∧
    (linkUp s = true → s.tdm.st = .standby → Gives (exec (.indexReport marks) s) { s with tdm := { s.tdm with
      report := marks.foldl (fun m k => tabSet none m k.1 (some k.2)) s.tdm.report } }) ∧
    (s.tdm.st = .standby → s.tdm.drill = none → Answers (exec (.drillSwap marks) s) fun u => u.tdm.st = .primary) ∧
    (∀ x, s.tdm.st = .primary → s.tdm.drill = some (.swap x) → x ≤ tick48 s →
      Answers (exec (.drillSwap marks) s) fun u => u.tdm.st = .standby ∧ u.tdm.drill = none) ∧
    (∀ c x, linkUp s = true → s.tdm.st = .lifting → c < 8192 → s.tdm.lifted.contains c = false → x.ctxs = [] → x.mem = [] →
      Answers (exec (.liftChannel c x) s) fun u => chanOf u c = x.chan ∧ dspOf u c = x.dsp ∧ basinOf u c = x.basin ∧
        u.tdm.lifted = s.tdm.lifted ++ [c]) ∧
    (linkUp s = true → s.tdm.st = .lifting → marks = [] → Answers (exec (.liftComplete marks) s) fun u => u.tdm.st = .standby ∧
      u.tdm.lifted = [] ∧ (negOf u 17).st = .full) ∧
    (linkUp s = false → ∀ c x, exec (.mirroredCommand t h i) s = .next s ∧ exec (.streamEpochRecord n base epoch) s = .next s ∧
      exec (.indexReport marks) s = .next s ∧ exec (.liftChannel c x) s = .next s ∧ exec (.liftComplete marks) s = .next s) ∧
    (s.tdm.st = .lifting → s.tdm.aliveIn = true → Answers (exec .liftAbort s) fun u => u.dev.devState = .ready ∧
      (negOf u 17).result = 0x0857)) ∧
  (∀ (x : Nat) (s : State), s.tdm.drill = some (.mute x) → x ≤ s.tb.elapsed →
    Gives (exec .muteEnd s) { s with tdm := { s.tdm with drill := none } }) ∧
  (∀ (t : Nat) (h : NxHdr) (i : Instr) (s : State), s.mirror = [(t, h, i)] → t ≤ tick48 s →
    (blockDue s = true → h.opcode / 256 ≠ 5) →
    Settles (exec .mirrorApply s) fun u => u = mirrorRun { s with mirror := [] } h i) ∧
  ∀ (b : Nat) (f : Fmt) (s : State), let u := nxAt s b
    (∀ p, nxDirect spNxTdmSet b f s = true → p < 3 →
      Gives (exec (.nxTdmSet b f p) s) { u with tdm := { u.tdm with pref := p } }) ∧
    (∀ n, nxDirect spNxTdmDrill b f s = true → 1 ≤ n → n ≤ 60 → (u.tdm.peer.any fun p => p.tdm == 3) = true →
      Gives (exec (.nxTdmDrill b f false n) s)
        { u with tdm := { u.tdm with drill := some (.mute (u.tb.elapsed + n * 65536000000000)) } }) ∧
    (∀ r, r = replyOf [[nv u.tdm.st.no, .flag u.tdm.aliveIn, .flag u.tdm.lane0, .flag u.tdm.lane1, .ctr u.tdm.crc0,
        .ctr u.tdm.crc1, .ctr u.tdm.takeovers]] → nxInBerth spNxTdmStats b f s r.length = true →
      Replies (exec (.nxTdmStats b f) s) (if (hdrOf s b).clear then
        { u with tdm := { u.tdm with crc0 := 0, crc1 := 0, takeovers := 0 } } else u) b r)


/-! ## Timebase (chapter 12) -/

/-- PTP and the servos (R372, R373, R375, R501). A one-step Sync of the chosen master, at an interval its profile accepts, gives the
offset from its origin time, correction, asymmetry and mean delay; a LOCKED clock more than 1 µs off returns to LOCKING. A poisoned
message is discarded. A chosen sender is one heard and qualified, and a grandmaster outside GM_ALLOW is never chosen. Without a Sync for max(4 intervals, 1 s) the clock enters HOLDOVER; within ±100 ns for 10 s it is LOCKED;
entering HOLDOVER posts TB_SERVO. With no Announce for three timeouts the entry reads FAILED. What the servo makes of an offset is open
(log 84). -/
def Obligations.PtpServo : Prop :=
  (∀ (n id : Nat) (ecc : List (List Ecc)) (freq : Int) (q : List Nat) (f : Stored_) (m : List Byte)
      (items : List FItem) (s v : State), (portOf s n).ptpq = id :: q → storedOf s n id = some f → s.dev.inReset = false →
    (parseFrame (f.frame.bytes.take (f.frame.bytes.length - 4))).ptp = some m →
    popItems s (392 + n) (fun k => ecc.getD k []) (ceilDiv m.length 32) = some (items, v) →
    let w := modPort v n fun p => { p with ptpq := q }
    (f.poison = true → Settles (exec (.ptpMessage n ecc freq) s) fun u => u = portCount w n 17 1) ∧
    (∀ k, f.poison = false → (items.any fun i => i.words.any (·.poison)) = false → f.frame.dom = 0 →
      listens w 0 n (parseFrame (f.frame.bytes.take (f.frame.bytes.length - 4))) m = true → be m 0 1 % 16 = 0 →
      let c := clkOf w 0
      c.cand = some k → k.src = be m 20 10 → k.port = n → bitOf (be m 6 1) 1 = false →
      within (profRange c.p.profile).1 (beS m 33 1) = true → within (profRange c.p.profile).2.1 k.annLog = true →
      c.gm.isSome = true → c.servo = .locked →
      let off : Int := (timeAdd f.frame.stamp 0 : Int) - ((ptpTime m 34 : Int) + beS m 8 8) - c.p.asym - c.delay
      Answers (exec (.ptpMessage n ecc freq) s) fun t => (clkOf t 0).offset = off ∧ (clkOf t 0).freq = freq ∧
        (clkOf t 0).time = c.time ∧ (clkOf t 0).servo = (if off.natAbs ≤ 65536000 then .locked else .locking) ∧
        t.tb.clkB = w.tb.clkB ∧ t.tb.sel = w.tb.sel)) ∧
  (∀ now l f, bestOf now l = some f → f ∈ l ∧ f.fit now = true) ∧
  (∀ (x n : Nat) (m : List Byte) (s : State), x < 2 → (clkOf s x).p.gmAllow ≠ [] →
    (clkOf s x).p.gmAllow.contains (be m 53 8) = false → (clkOf (onAnnounce s x n m) x).cand = (clkOf s x).cand) ∧
  ∀ (x : Nat) (s : State), x < 2 → s.dev.inReset = false → (clkOf s x).en = true → let c := clkOf s x
    (c.p.source = 0 → (∀ k, c.cand = some k → s.tb.elapsed < c.lastAnn + 3 * log2Time k.annLog) → c.servo.steered = true →
      c.lastUse + max (4 * log2Time c.syncLog) unitsPerSec ≤ s.tb.elapsed →
      Settles (exec (.servoStateTimeout x) s) fun u => (clkOf u x).servo = .holdover ∧ (clkOf u x).freq = holdFreq c ∧
        (clkOf u x).time = c.time ∧ ∃ e, u.nx.unitQ = s.nx.unitQ ++ [e] ∧ e.code = 0x10 ∧ e.arg = BitVec.ofNat 64 (x + 768)) ∧
    (∀ since, c.p.source ≠ 2 → c.cand = none → c.servo = .locking → c.inBand = some since →
      since + 10 * unitsPerSec ≤ s.tb.elapsed →
      s.tb.elapsed < c.lastUse + max (4 * (if c.p.source = 1 then unitsPerSec else log2Time c.syncLog)) unitsPerSec →
      Settles (exec (.servoStateTimeout x) s) fun u => (clkOf u x).servo = .locked ∧ (clkOf u x).freq = c.freq) ∧
    (c.p.source = 0 → c.gm = none → c.cand = none → (negOf s (15 + x)).st ≠ .failed →
      c.heard + 9 * log2Time (profRange c.p.profile).2.1.2 ≤ s.tb.elapsed →
      Answers (exec (.ptpNoGm x) s) fun t => (negOf t (15 + x)).st = .failed ∧ (negOf t (15 + x)).result = 0x0840 ∧
        t.tb = s.tb) ∧
    ∀ k, c.cand = some k → c.p.source = 0 → c.servo.steered = true → c.dreqAt = none → (portOf s k.port).cfg.txEn = true →
      txWaits s 230 = false →
      Answers (exec (.delayReqSend x) s) fun t => (clkOf t x).dreqSeq = (c.dreqSeq + 1) % 65536 ∧
        (clkOf t x).dreqAt = some s.tb.elapsed ∧ (clkOf t x).time = c.time ∧ ∃ fr : TxFrame, fr.inst = some x ∧
        fr.cls = (portOf s k.port).cfg.ptpClass ∧
        (fr ∈ tabGet [] (portOf t k.port).txq fr.cls ∨ fr ∈ (portOf t k.port).txHeld)

/-- The selected time (R371, R378 to R380, R399): a media tick advances it, never back, to the instant k / f seconds and counts one tick;
a slew changes its relative frequency by at most 1 ppm/s and never beyond 5 ppm; at the switch instant the domain changes and in SERVICE
the time stays, more than 1 ns off beginning a slew; a slew ends within 1 ns; an automatic switch names a whole millisecond at least
100 µs ahead. A lost reference clock sends the device to RECOVERY (R402). -/
def Obligations.SelectedTime : Prop :=
  (∀ (delta r : Int) (d : Nat), r.natAbs ≤ slewMax →
    (slewNext delta r d).natAbs ≤ slewMax ∧ (slewNext delta r d - r).natAbs ≤ d) ∧
  (∀ f k, 0 < f → k * unitsPerSec ≤ tickTime f k * f ∧ tickTime f k * f < k * unitsPerSec + f) ∧
  ∀ s : State, s.dev.inReset = false →
    (∀ i, i ∈ [1, 2, 4, 6, 12] → (∀ j, j ∈ [1, 2, 4, 6, 12] → nextTick s i ≤ nextTick s j) →
      Answers (exec (.mediaTick i) s) fun t => t.tb.sel = max s.tb.sel (nextTick s i) ∧
        t.tb.elapsed = s.tb.elapsed + (t.tb.sel - s.tb.sel) ∧ tabGet 0 t.tb.ticks i = tabGet 0 s.tb.ticks i + 1 ∧
        (∀ j, j ≠ i → tabGet 0 t.tb.ticks j = tabGet 0 s.tb.ticks j) ∧
        (s.tb.slewing = false → (clkOf t s.tb.selDom).time = t.tb.sel) ∧ t.media = s.media ∧ t.net = s.net) ∧
    (∀ x S, s.tb.pend = some (x, S) → S ≤ s.tb.sel → s.dev.devState = .service →
      let far := 65536 < (((clkOf s x).time : Int) - s.tb.sel).natAbs
      Answers (exec .switchInstant s) fun t => t.tb.selDom = x ∧ t.tb.pend = none ∧ (t.tb.slewing = true ↔ far) ∧
        t.tb.sel = (if far then s.tb.sel else (clkOf s x).time) ∧
        t.tb.slewRate = (if far then s.tb.slewRate else 0) ∧ t.tb.ticks = s.tb.ticks) ∧
    (s.tb.slewing = true → (slewDelta s).natAbs ≤ 65536 →
      Settles (exec .slewEnd s) fun u => u.tb = { s.tb with
          sel := (clkOf s s.tb.selDom).time, slewing := false, slewRate := 0, slewRem := 0, slewSwitch := false } ∧
        (s.tb.slewSwitch = false → u.nx.unitQ = s.nx.unitQ) ∧
        (s.tb.slewSwitch = true → ∃ e, u.nx.unitQ = s.nx.unitQ ++ [e] ∧ e.code = 0x11)) ∧
    (s.tb.auto = true → s.tb.autoUsed = false → s.tb.pend = none → (clkOf s s.tb.selDom).servo.steered = false →
      (clkOf s s.tb.selDom).idle + s.tb.autoWait * 6553600000000 ≤ s.tb.elapsed →
      (clkOf s (1 - s.tb.selDom)).servo = .locked → nearSel s (1 - s.tb.selDom) s.tb.switchMax = true →
      Answers (exec .autoSwitch s) fun t => t.tb.autoUsed = true ∧ t.tb.selDom = s.tb.selDom ∧ t.tb.sel = s.tb.sel ∧
        ∃ S, t.tb.pend = some (1 - s.tb.selDom, S) ∧ S % 65536000000 = 0 ∧ s.tb.sel + 6553600000 ≤ S ∧
          S < s.tb.sel + 6553600000 + 65536000000) ∧
    (s.dev.iceRuns = true → s.dev.devState = .service →
      Answers (exec .tbRefclkLost s) fun t => t.dev.devState = .recovery ∧ t.dev.recovering = some 0x4A)

/-- Two-step queues, time registers and pulses per second (R377, R383, R390 to R393, R397, R398). A transmit stamp that crosses its flume
(R61) enters the queue, or reaches the instance that waits for it, as it left; how its item is laid out is the model's choice (log 176). A full queue discards the arrival, and
the next one queued carries GAP and the number lost; under COMPAT_Q48 it overwrites the oldest. Only a POP with the head's SEQ removes
it. Reads latch, return and clear as their registers say. An output rises once a second and falls after WIDTH; an input is stamped. -/
def Obligations.TimeStamps : Prop :=
  (∀ (s : State) (n dom id stamp : Nat) (ue : Bool), let q := tsqOf s n; let t := tsqOf (tsqPut s n dom id stamp ue) n
    let e : TsqEntry := { gap := decide (0 < q.lost), lost := min q.lost 255, domain := dom, ue := ue, seq := q.nextSeq,
                          tsId := id, time := stamp }
    (q.entries.length < tsqSize s → t.entries = q.entries ++ [e] ∧ t.lost = 0 ∧ t.ovf = q.ovf ∧
      t.nextSeq = (q.nextSeq + 1) % 4) ∧
    (64 ≤ q.entries.length → s.dev.compatQ48 = false → t.entries = q.entries ∧ t.lost = q.lost + 1 ∧
      t.ovf = sat32 (q.ovf + 1)) ∧
    (∀ a c l, s.dev.compatQ48 = true → q.entries = a :: c :: l → l.length = 14 →
      t.entries = { c with gap := true, lost := min 255 (a.lost + 1) } :: (l ++ [e]) ∧ t.ovf = sat32 (q.ovf + 1)) ∧
    t.ue = (if ue then sat32 (q.ue + 1) else q.ue)) ∧
  (∀ (s : State) (n dom id stamp x : Nat) (ue : Bool), dom < 2 → id < 65536 → stamp < 2 ^ 110 →
    stampTake s n (stampItem dom id stamp ue none) = tsqPut s n dom id stamp ue ∧
    (x < 2 → stampTake s n (stampItem x 0 stamp false (some x)) = modClk s x fun c => { c with dreqSent := some stamp })) ∧
  (∀ (a : Agent) (n : Nat) (w : Word) (s : State), barLive s a = true → n < 4 → let q := tsqOf s n
    (∀ e l, q.entries = e :: l →
      (w.toNat % 4 ≠ e.seq → exec (.tbTsqPop a n w) s = .next s) ∧
      (w.toNat % 4 = e.seq → Answers (exec (.tbTsqPop a n w) s) fun t => tsqOf t n = { q with entries := l } ∧
        ∀ j, j ≠ n → tsqOf t j = tsqOf s j)) ∧
    Gives (exec (.tbTsqCountRead a n 0) s) (returned (modTsq s n fun q => { q with ovf := 0 }) q.ovf) ∧
    Gives (exec (.tbTsqCountRead a n 1) s) (returned (modTsq s n fun q => { q with ue := 0 }) q.ue) ∧
    Gives (exec (.tbTsqCountRead a n 2) s) (returned (modTsq s n fun q => { q with flagIgn := 0 }) q.flagIgn) ∧
    Gives (exec (.tbTsqCountRead a n 3) s) (returned (modTsq s n fun q => { q with skip := 0 }) q.skip)) ∧
  (∀ (a : Agent) (x : Nat) (s : State), barLive s a = true →
    (x < 3 → Answers (exec (.tbTodNsRead a x) s) fun t => let T := todOf s x
      t.dev.rdata = BitVec.ofNat 64 (T % unitsPerSec / 65536) ∧ tabGet 0 t.tb.latches (3 * x + 2) = BitVec.ofNat 32 (T % 65536) ∧
        (T < 2 ^ 64 * unitsPerSec → (tabGet 0 t.tb.latches (3 * x)).toNat * 2 ^ 32 +
          (tabGet 0 t.tb.latches (3 * x + 1)).toNat = T / unitsPerSec) ∧ todOf t x = T) ∧
    (∀ v, v = BitVec.ofInt 64 ((s.tb.clkB.time : Int) - s.tb.clkA.time) →
      Answers (exec (.tbOffsetAbRead a false) s) (fun t => t.dev.rdata = BitVec.ofNat 64 (v.toNat % 2 ^ 32) ∧
        Answers (exec (.tbOffsetAbRead a true) t) fun t' => t'.dev.rdata = BitVec.ofNat 64 (v.toNat / 2 ^ 32))) ∧
    (x < 2 → Answers (exec (.tbPpsInNsRead a x) s) (fun t => t.dev.rdata = BitVec.ofNat 64 (clkOf s x).inNs ∧
        tabGet 0 t.tb.latches (16 + x) = BitVec.ofNat 32 (clkOf s x).inSec ∧ clkOf t x = clkOf s x) ∧
      Gives (exec (.tbPpsInCntRead a x) s) (returned (modClk s x fun c => { c with inCnt := 0 }) (clkOf s x).inCnt))) ∧
  ∀ (x dt : Nat) (freq : Int) (s : State), x < 2 → s.dev.inReset = false → let c := clkOf s x
    (c.outEn = true → s.dev.devState ≠ .halted →
      (c.outHigh = false → ppsSec c ≠ c.outSec → Gives (exec (.ppsOutEdge x) s)
        (modClk s x fun c => { c with outHigh := true, outSec := ppsSec c, outRise := s.tb.elapsed })) ∧
      (c.outHigh = false → ppsSec c = c.outSec → exec (.ppsOutEdge x) s = .next s) ∧
      (c.outHigh = true → c.outRise + c.width * 65536000 ≤ s.tb.elapsed → Gives (exec (.ppsOutEdge x) s)
        (modClk s x fun c => { c with outHigh := false, outSec := ppsSec c }))) ∧
    (c.inEn = true → let t := c.time + dt
      Answers (exec (.ppsInEdge x dt freq) s) (fun v => (clkOf v x).inNs = t % unitsPerSec / 65536 ∧
        (clkOf v x).inSec = t / unitsPerSec % 2 ^ 32 ∧ (clkOf v x).inCnt = sat32 (c.inCnt + 1)) ∧
      (∀ sec, c.en = true → c.p.source = 1 → c.todPend = some sec → dt = 0 → sec < 2 ^ 64 → s.tb.selDom ≠ x →
        Answers (exec (.ppsInEdge x dt freq) s) fun v => (clkOf v x).time = sec * unitsPerSec ∧ (clkOf v x).todPend = none))

/-- The Timebase commands complete (R374, R378, R380, R397, R398, R403, R404): parameters of a disabled instance, its enabling and
disabling, the selection, the PPS signals, a time of day, and the statistics. -/
def Obligations.TimebaseCommands : Prop :=
  ∀ (b : Nat) (f : Fmt) (s : State), let u := nxAt s b; let k := objIdx s b; let c := clkOf u k
    (∀ l p, nxDirect spNxTbDomainSet b f s = true → p = l.foldl InstParams.set c.p → p.ok = true → p.ports ≠ [] →
      portsClash p (clkOf u (1 - k)).p = false → p.profile ∈ p.accepts → (p.source = 1 → c.inEn = true) →
      Gives (exec (.nxTbDomainSet b f l) s) (modClk u k fun c => { c with p := p })) ∧
    (nxDirect spNxTbDomainEnable b f s = true → Answers (exec (.nxTbDomainEnable b f) s) fun t =>
      (clkOf t k).en = true ∧ (clkOf t k).p = c.p ∧ (clkOf t k).servo = c.servo ∧ (clkOf t k).gm = none ∧
        (clkOf t k).time = c.time ∧ t.tb.sel = u.tb.sel ∧
        (c.p.source = 0 → (negOf t (15 + k)).st = .pending ∧ (negOf t (15 + k)).result = 0)) ∧
    (nxDirect spNxTbDomainDisable b f s = true → (u.dev.devState = .service → u.tb.selDom ≠ k) →
      Answers (exec (.nxTbDomainDisable b f) s) fun t => (clkOf t k).en = false ∧ (clkOf t k).servo = .freerun ∧
        (clkOf t k).freq = 0 ∧ (clkOf t k).p = c.p ∧ (clkOf t k).time = c.time ∧ (negOf t (15 + k)).st = .disabled) ∧
    (∀ mode wait most, nxDirect spNxTbSelect b f s = true →
      (u.tb.selDom ≠ k → (c.servo = .locked ∨ c.servo = .holdover) ∧ nearSel u k (most.getD u.tb.switchMax) = true) →
      mode.getD (b2n u.tb.auto) < 2 → 1000 ≤ most.getD u.tb.switchMax → most.getD u.tb.switchMax ≤ 10000000 →
      1 ≤ wait.getD u.tb.autoWait → wait.getD u.tb.autoWait ≤ 600 →
      Gives (exec (.nxTbSelect b f mode wait most) s) (modTb u fun t =>
        { t with auto := mode.getD (b2n u.tb.auto) == 1, autoWait := wait.getD t.autoWait,
                 switchMax := most.getD t.switchMax, autoUsed := false,
                 pend := if u.tb.selDom = k then t.pend else some (k, switchAt u) })) ∧
    (∀ oe ie w p, nxDirect spNxTbPps b f s = true → (c.p.source = 1 → ie.getD c.inEn = true) → 1 ≤ w → w ≤ 500000 →
      -4000 ≤ p → p ≤ 4000 →
      Answers (exec (.nxTbPps b f oe ie (some w) (some p)) s) fun t => (clkOf t k).outEn = oe.getD c.outEn ∧
        (clkOf t k).inEn = ie.getD c.inEn ∧ (clkOf t k).width = w ∧ (clkOf t k).comp = p ∧
        (oe.getD c.outEn = false → (clkOf t k).outHigh = false) ∧ (clkOf t k).time = c.time) ∧
    (∀ sec ns frac, nxDirect spNxTbSetTod b f s = true → sec < 2 ^ 64 → ns < 1000000000 → frac < 65536 →
      (c.p.source = 1 → Gives (exec (.nxTbSetTod b f sec ns frac) s) (modClk u k fun c => { c with todPend := some sec })) ∧
      (c.p.source = 2 → Answers (exec (.nxTbSetTod b f sec ns frac) s) fun t =>
        (clkOf t k).time = sec * unitsPerSec + ns * 65536 + frac ∧
        (u.tb.selDom = k → t.tb.sel = (clkOf t k).time) ∧ (u.tb.selDom ≠ k → t.tb.sel = u.tb.sel))) ∧
    (nxInBerth spNxTbStats b f s 224 = true → ∃ r, r.length = 224 ∧ Replies (exec (.nxTbStats b f) s)
        (if (hdrOf s b).clear then
          let v := (nums 4).foldl (fun v n => modTsq v n fun q => { q with ovf := 0, ue := 0, flagIgn := 0, skip := 0 }) u
          modClk (modClk v 0 fun c => { c with inCnt := 0 }) 1 fun c => { c with inCnt := 0 }
        else u) b r ∧
      ∀ n, n < 4 → ofLe ((r.drop (80 + 32 * n)).take 8) = (tsqOf u n).ovf % 2 ^ 64 ∧
        ofLe ((r.drop (88 + 32 * n)).take 8) = (tsqOf u n).ue % 2 ^ 64)


/-! ## The Rime array (chapter 13) -/

/-- Indices (R425, R427): an index once accepted is refused ever after, so no packet passes twice; the highest accepted index never
falls; the estimate keeps the packet's sequence and lies within 2^15 of the highest accepted index. A transmit index must exceed the
mark: it becomes the mark at once, so no index is used twice under one key; any other latches the slot SPENT. -/
def Obligations.KeyIndices : Prop :=
  (∀ (h : Hot) (i j : Nat), (h.accept i).replayed i = true ∧ (h.replayed j = true → (h.accept i).replayed j = true) ∧
    (h.accept i).top = some (max i (h.top.getD 0)) ∧ (∀ t, h.top = some t → j + 128 ≤ t → h.replayed j = true)) ∧
  (∀ (h : Hot) (l q : Nat), h.sh = some l → l < 65536 → q < 65536 → h.guess q % 65536 = q ∧
    (0 < h.roc → h.roc < 2 ^ 32 - 1 → ((h.guess q : Int) - (h.roc * 65536 + l : Nat)).natAbs ≤ 32768)) ∧
  ∀ (s : State) (q : RimeReq), let k := slotOf s q.slot; let e := encCheck s q k.gen; let t := slotOf e.2 q.slot
    (∀ w, k.hot.hwm = some w → q.index ≤ w → e.1 = 3 ∧ t.st = .spent ∧ t.hot = k.hot) ∧
    ((∀ w, k.hot.hwm = some w → w < q.index) → e.1 = 0 ∧ t.hot.hwm = some q.index ∧ t.st = k.st ∧ t.gen = k.gen ∧
      (k.hot.warned = true → t.hot.warned = true) ∧ (2 ^ 48 - 2 ^ 20 ≤ q.index → t.hot.warned = true)) ∧
    ∀ j, j ≠ q.slot → slotOf e.2 j = slotOf s j

/-- Requests of the Rime array (R414, R419 to R423, R427, R428): a port takes 64 bytes, or holds the requester when its queue is full;
the head request ends with the status its slot's state calls for, or goes to an engine, after its key's derivation if that is not
cached, and a slot whose cold record is poisoned is faulted (R433); a tag that passes commits the index, one that fails commits
nothing; an unwrapping that fails faults the slot. A completion carries STATUS and TAG, 8 for poisoned input (R423); while its bank holds
the reach's last one, no request is taken up (R198). An encryption, sector or HMAC request over the Canal writes its output and nothing else. A packet protected
in a mode opens under the same material and index; no two slots or modes share a derivation input. The counters clear on a read. -/
def Obligations.RimeRequests : Prop :=
  (∀ (s : State) (r : Nat) (q : RimeReq), let k := slotOf s q.slot; let x := rimeCheck s r q k.gen .none
    (q.bad = true → x.1 = 7 ∧ x.2.2 = s) ∧
    (q.bad = false → k.st ≠ .empty → k.home ≠ some r → x.1 = 7 ∧ x.2.2 = s) ∧
    (q.bad = false → k.st = .empty → x.1 = 5 ∧ x.2.2 = s) ∧
    (q.bad = false → k.home = some r →
      (k.st = .faulted → x.1 = 11 ∧ x.2.2 = s) ∧ (k.st = .spent → x.1 = 4 ∧ x.2.2 = s) ∧
      (k.st = .loaded → q.suits (k.under k.gen) = false → x.1 = 6 ∧ x.2.2 = s) ∧
      (k.st = .loaded → q.suits (k.under k.gen) = true → q.op = 1 → x = ((encCheck s q k.gen).1, q.index, (encCheck s q k.gen).2)) ∧
      (k.st = .loaded → q.suits (k.under k.gen) = true → q.op = 2 → let i := k.hot.guess (reqSeq s q)
        x.2.1 = i ∧ x.2.2 = s ∧ (k.hot.replayed i = true → x.1 = 2) ∧
        (k.hot.replayed i = false → (∀ j, j ∈ (rimeReach s r).jobs → j.req.slot = q.slot → j.step ≠ .finished → j.idx ≠ i) →
          x.1 = 0)))) ∧
  (∀ (mode i : Nat) (m head p : List Byte), 1 ≤ mode → mode ≤ 6 →
    srtpOpen mode m head ((srtpProtect mode m head p i).drop head.length) i = (true, p) ∧
    (srtpProtect mode m head p i).length = head.length + p.length + modeTag mode ∧
    (srtpProtect mode m head p i).take head.length = head) ∧
  (∀ (i u n a b c d : Nat) (l : List Byte), l.length ≤ 32 → a < 16384 → b < 16384 → c < 10 → d < 10 →
    (kdfInput i u l a c n).length = 46 ∧ (kdfInput i u l a c n = kdfInput i u l b d n → a = b ∧ c = d)) ∧
  ∀ (r : Nat) (s : State), r < 4 → s.dev.inReset = false → let y := rimeReach s r
    let items (u : State) (it : Item) : List FItem :=
      let f := flumeOf u (bankFlume (postBank r it)); f.head.map (·.2) ++ f.body.map (·.2) ++ f.held
    let posts (u : State) (q : RimeReq) (st : Nat) : Prop :=
      ∃ it : Item, items u it = items s it ++ [it.canalFlit (96 + 8 * r)] ∧ it.w3.toNat % 256 = st ∧ it.w3.toNat / 65536 = q.tag.toNat
    (∀ dom data, rimeHere s = true → canalIssuer dom = true → let q := rimeReqOf dom data
      (data.length = 64 → Gives (exec (.rimeRequest r dom data) s) (modRimeR s r fun x =>
        if x.queue.length < 512 ∧ x.held = [] then { x with queue := x.queue ++ [(q, (slotOf s q.slot).gen)] }
        else { x with held := x.held ++ [q] })) ∧
      (data.length ≠ 64 → Gives (exec (.rimeRequest r dom data) s)
        { s with fab := { s.fab with canalAddrCnt := sat32 (s.fab.canalAddrCnt + 1) } })) ∧
    (∀ q g l ue, y.queue = (q, g) :: l → unitStalled s (96 + 8 * r) = true → exec (.rimeDispatch r ue) s = .next s) ∧
    (∀ q g l, y.queue = (q, g) :: l → y.held = [] → unitStalled s (96 + 8 * r) = false → engineFree y q.op = true → (∀ j, j ∈ y.jobs → j.step ≠ .finished) →
      let x := rimeCheck s r q g .none
      (x.1 = 0 → (y.cache.contains (q.slot, g) = true ∨ coldBad s q.slot = false) → Answers (exec (.rimeDispatch r .none) s) fun t => (rimeReach t r).queue = l ∧
        slotOf t q.slot = slotOf x.2.2 q.slot ∧ ∃ j, j ∈ (rimeReach t r).jobs ∧ j.req = q ∧ j.gen = g ∧ j.idx = x.2.1 ∧
          j.step = if y.cache.contains (q.slot, g) then .running else .deriving_) ∧
      (x.1 = 0 → y.cache.contains (q.slot, g) = false → coldBad s q.slot = true → q.done = 0 →
        (∀ j, j ∈ y.jobs → j.req.slot ≠ q.slot) → Answers (exec (.rimeDispatch r .none) s) fun t =>
          (slotOf t q.slot).st = .faulted ∧ (rimeReach t r).jobs = y.jobs ∧ posts t q 11) ∧
      (x.1 ≠ 0 → q.done = 0 → (∀ j, j ∈ y.jobs → j.req.slot ≠ q.slot) →
        Answers (exec (.rimeDispatch r .none) s) fun t => (rimeReach t r).queue = l ∧ (rimeReach t r).jobs = y.jobs ∧
          (rimeReach t r).reqs = sat64 (y.reqs + 1) ∧ posts t q x.1)) ∧
    (∀ k g, unitStalled s (96 + 8 * r) = false → (∃ j, j ∈ y.jobs ∧ j.step = .deriving_ ∧ j.req.slot = k ∧ j.gen = g) →
      let m := materialOf s k ((slotOf s k).under g)
      (y.cache.length < 512 → m.isSome = true → Answers (exec (.derivationDone r k g) s) fun t =>
        (rimeReach t r).cache.contains (k, g) = true ∧ slotOf t k = slotOf s k ∧
        (rimeReach t r).jobs = y.jobs.map fun j =>
          if j.step = .deriving_ ∧ j.req.slot = k ∧ j.gen = g then { j with step := .running } else j) ∧
      (m = none → (slotOf s k).gen = g →
        Answers (exec (.derivationDone r k g) s) fun t => (slotOf t k).st = .faulted ∧
          ∀ j, j ∈ (rimeReach t r).jobs → j.req.slot = k → j.gen = g → j.step ≠ .deriving_)) ∧
    (∀ j e errs, y.jobs[j]? = some e → unitStalled s (96 + 8 * r) = false → e.step = .running → reqLocal e.req = true → e.req.op = 2 →
      e.gen = (slotOf s e.req.slot).gen → let k := slotOf s e.req.slot
      let ok := (engineOut s e.req e.gen e.idx e.req.pkt).1
      Answers (exec (.rimeRequestDone ⟨r, errs⟩ j) s) fun t =>
        (slotOf t e.req.slot).hot = (if ok then k.hot.accept e.idx else k.hot) ∧
        (rimeReach t r).reqs = sat64 (y.reqs + 1) ∧
        (rimeReach t r).authFail = (if ok then y.authFail else sat32 (y.authFail + 1))) ∧
    (∀ j e o, y.jobs[j]? = some e → unitStalled s (96 + 8 * r) = false → e.step = .running → reqLocal e.req = false → e.req.op ≠ 2 → e.req.done = 0 →
      (∀ x, x ∈ y.jobs → x.step ≠ .finished) → (∀ i x, i < j → y.jobs[i]? = some x → x.req.slot ≠ e.req.slot) →
      let q := e.req; let mode := ((slotOf s q.slot).under e.gen).mode
      canalWhere s q.outPtr = .ddr o → o + outLen mode q ≤ ddrUsable s → memFlag s q.inPtr = false →
      memFlag s (q.inPtr + inLenOf mode q - 1) = false →
      (memPoisoned s q.inPtr (inLenOf mode q) = true → Answers (exec (.rimeRequestDone ⟨r, []⟩ j) s) fun t =>
        t.fab.ddr = s.fab.ddr ∧ (rimeReach t r).jobs = y.jobs.eraseIdx j ∧ posts t q 8) ∧
      (memPoisoned s q.inPtr (inLenOf mode q) = false → Answers (exec (.rimeRequestDone ⟨r, []⟩ j) s) fun t =>
        readBytes t.fab.ddr o (outLen mode q) =
          fitTo (outLen mode q) (engineOut s q e.gen e.idx (memRead s q.inPtr (inLenOf mode q))).2 ∧
        (∀ a, (a < o ∨ o + outLen mode q ≤ a) → tabGet 0 t.fab.ddr a = tabGet 0 s.fab.ddr a) ∧
        (rimeReach t r).jobs = y.jobs.eraseIdx j ∧ (rimeReach t r).reqs = sat64 (y.reqs + 1) ∧ posts t q 0)) ∧
    (rimeHere s = true →
      Gives (exec (.rimeCountRead r 0 false) s) (returned (modRimeR s r fun x =>
        { x with reqHi := some (BitVec.ofNat 32 (x.reqs / 2 ^ 32)), reqs := 0 }) (y.reqs % 2 ^ 32)) ∧
      Gives (exec (.rimeCountRead r 1 false) s) (returned (modRimeR s r fun x => { x with authFail := 0 }) y.authFail) ∧
      Gives (exec (.rimeCountRead r 2 false) s) (returned (modRimeR s r fun x => { x with replay := 0 }) y.replay) ∧
      Gives (exec (.rimeCountRead r 3 false) s) (returned (modRimeR s r fun x => { x with nonce := 0 }) y.nonce) ∧
      Gives (exec (.rimeCountRead r 4 false) s) (returned (modRimeR s r fun x => { x with bad := 0 }) y.bad) ∧
      Gives (exec (.rimeCountRead r 5 false) s) (returned (modRimeR s r fun x => { x with miss := 0 }) y.miss) ∧
      Gives (exec (.rimeCountRead r 6 false) s) (returned (modRimeR s r fun x => { x with ue := 0 }) y.ue))

/-- The Rime commands complete (R409, R413, R416 to R418, R424, R430, R431): a root is programmed once; KEY_SET loads a slot with a
fresh index state, and never the transmit key it holds; CLEAR empties a slot no enabled channel names; GET, SET, XTS and the
statistics. -/
def Obligations.RimeCommands : Prop :=
  ∀ (b : Nat) (f : Fmt) (s : State), let u := nxAt s b; let k := objIdx s b; let x := slotOf u k
    (∀ n key, nxDirect spNxRimeRootProg b f s = true → n < 4 → key.length = 32 →
      (rootHere u n = false → Answers (exec (.nxRimeRootProg b f n key) s) fun t => rootHere t n = true ∧ rootKey t n = key ∧
        ∀ j, j < 8 → j ≠ n → rootHere t j = rootHere u j ∧ rootKey t j = rootKey u j) ∧
      (rootHere u n = true → Answers (exec (.nxRimeRootProg b f n key) s) fun t => t.ice.stored = s.ice.stored)) ∧
    (∀ mode dir kind root label pin value reach m, nxDirect spNxRimeKeySet b f s = true →
      let w := keyStored u k mode kind root label value; let kcv := keyCheck mode m
      let y := keyLoaded x mode dir (kind != 0) root label pin w.2 kcv reach; let v := modSlot u k fun _ => y
      slotMaterial (rootKey u root) k mode (kind != 0) label w.2 = some m →
      let srtp := 1 ≤ mode ∧ mode ≤ 6
      (kind < 3 → root < 8 → label.length ≤ 32 → reach < 4 → (srtp ∧ dir < 2) ∨ (7 ≤ mode ∧ mode ≤ 9 ∧ dir = 2) →
        rootHere u root = true → kind = 0 ∨ srtp → (rxUsers u k && txUsers u k) = false →
        (rxUsers u k = true → srtp ∧ dir = 1) → (txUsers u k = true → srtp ∧ dir = 0) →
        (u.dev.tandemEn = true → slotProt u k = true → root < 4) → srtp ∨ mode = 9 ∨ xtsHalves m = true →
        kcvNew u k dir kcv = true → kind ≠ 2 ∨ value.length = modeKey mode + modeSalt mode →
        (∀ r, y.home = some r → reachFits v r u.rime.strength = true ∧ pinned v r ≤ 384) →
        srtp ∨ x.home = some reach ∨ (homed u reach).length < 4096 →
        Answers (exec (.nxRimeKeySet b f mode dir kind root label pin value reach) s) fun t =>
          slotOf t k = { y with olds := (slotOf t k).olds } ∧ (∀ j, j ≠ k → slotOf t j = slotOf u j) ∧
          (kind = 2 → (hdrOf s b).dma = false → ∀ i, i < payloadMax s →
            tabGet 0 t.nx.berthMem (b * berthSize s + 16 + i) = 0)) ∧
      (dir = 0 → x.st ≠ .empty → x.kcv = kcv →
        Answers (exec (.nxRimeKeySet b f mode dir kind root label pin value reach) s) fun t =>
          t.rime = s.rime)) ∧
    (nxDirect spNxRimeKeyClear b f s = true → slotUsers u k = [] → u.ice.archive ≠ some k →
      Answers (exec (.nxRimeKeyClear b f) s) fun t => (slotOf t k).st = .empty ∧ (slotOf t k).value = [] ∧
        (slotOf t k).gen = x.gen + 1 ∧ (slotOf t k).hot = Hot.reset ∧ ∀ j, j ≠ k → slotOf t j = slotOf u j) ∧
    (∀ r, r = replyOf [[nv x.st.no, nv x.mode, nv x.dir, nv (b2n x.wrapped), nv x.root, .blob x.label 32, .flag x.pin,
        .wide x.kcv.toNat, keyVal x.home] ++ (if srtpMode x.mode = false then [] else
          if x.dir = 0 then [.wide (x.hot.hwm.getD (2 ^ 64 - 1))] else [nv x.hot.roc, keyVal x.hot.sh])] →
      nxInBerth spNxRimeKeyGet b f s r.length = true → Replies (exec (.nxRimeKeyGet b f) s) u b r) ∧
    (∀ n, nxDirect spNxRimeSet b f s = true → 1 ≤ n → n ≤ 3 → (∀ r, r < 4 → reachFits u r n = true) →
      Gives (exec (.nxRimeSet b f n) s) { u with rime := { u.rime with strength := n } }) ∧
    (∀ dec sector, nxAccepted spNxRimeXts b f s = true → x.mode = 7 ∨ x.mode = 8 →
      (hdrOf s b).inLen = 512 ∨ (hdrOf s b).inLen = 4096 → (hdrOf s b).inLen ≤ (hdrOf s b).outLen →
      Gives (exec (.nxRimeXts b f dec sector) s) (addLong u b (hdrOf s b) (.rimeXts k dec sector))) ∧
    (nxDirect spNxRimeStats b f s = true → (hdrOf s b).dma = true → 348 ≤ (hdrOf s b).outLen →
      Answers (exec (.nxRimeStats b f) s) fun t => ∀ r, r < 4 → rimeReach t r = if (hdrOf s b).clear then
        { rimeReach u r with reqs := 0, authFail := 0, replay := 0, nonce := 0, bad := 0, miss := 0, ue := 0 }
      else rimeReach u r) ∧
    (∀ l, l = replyOf [[nv u.rime.strength, nv (rootMask u 4), nv (rootMask u 8)]] ++ replyOf ((nums 4).map fun r =>
        let z := rimeReach u r
        [nv (engBusy z), nv z.queue.length, nv (rimeResv u r).1, nv (rimeResv u r).2, nv (pinned u r), nv (homed u r).length,
         .ctr z.reqs, .ctr z.authFail, .ctr z.replay, .ctr z.nonce, .ctr z.bad, .ctr z.miss, .ctr z.ue]) →
      nxFits spNxRimeStats b f s l.length = true → Completes (exec (.nxRimeStats b f) s) spNxRimeStats
        (if (hdrOf s b).clear then (nums 4).foldl (fun v r => modRimeR v r fun z =>
          { z with reqs := 0, authFail := 0, replay := 0, nonce := 0, bad := 0, miss := 0, ue := 0 }) u else u) b (hdrOf s b) l)


/-! ## The Firn engines and the local ports (chapters 14, 16) -/

/-- Firn (R32, R440 to R447). A job port takes 64 bytes or, its queue full or its engine stopped, holds the writer; the head job of a
running engine leaves, unless a bank still holds the engine's last item (R198): one with a reserved
value ends with BADREQ and writes its record only; a well-formed one writes the engine's output, then the record with status, consumed,
produced, CHECK and TAG, posts its work item where DONE is 0, and counts. A compression gives the job's one stream (R436), cut where the
region ends; which stream that is is open (log 80), and one the chapter allows expands to the input and keeps the
bound of R439 outside COMPAT_Q48; OK output of decompression is what its input expands to, and an outcome of one the chapter rules out
does not occur (log 80, a choice of the model's). RUN is the Icehouse's, and starts the engine on what it holds; counters clear on a read. -/
def Obligations.FirnEngines : Prop :=
  ∀ (e : Nat) (s : State), e < 4 → s.dev.inReset = false → let x := firnOf s e
    let items (u : State) (it : Item) : List FItem :=
      let f := flumeOf u (bankFlume (postBank e it)); f.head.map (·.2) ++ f.body.map (·.2) ++ f.held
    (∀ dom data, canalIssuer dom = true →
      (data.length = 64 → x.run = true → x.held = [] → x.queue.length < 64 →
        Gives (exec (.firnJob e dom data) s) (modFirn s e fun x => { x with queue := x.queue ++ [firnJobOf data] })) ∧
      (data.length = 64 → x.run = false ∨ 64 ≤ x.queue.length →
        Gives (exec (.firnJob e dom data) s) (modFirn s e fun x => { x with held := x.held ++ [firnJobOf data] })) ∧
      (data.length ≠ 64 → Gives (exec (.firnJob e dom data) s)
        { s with fab := { s.fab with canalAddrCnt := sat32 (s.fab.canalAddrCnt + 1) } })) ∧
    (∀ r ue errs, unitStalled s (144 + e) = true → exec (.firnJobDone ⟨e, errs⟩ r ue) s = .next s) ∧
    (∀ q l r₀, x.queue = q :: l → x.run = true → unitStalled s (144 + e) = false → ∀ c, q.cplPtr % 32 = 0 → canalWhere s q.cplPtr = .ddr c →
      c + 32 ≤ ddrUsable s →
      let gone (t : State) : Prop := (firnOf t e).queue = l ++ x.held.take 1 ∧ (firnOf t e).held = x.held.drop 1 ∧
        (firnOf t e).jobs = sat32 (x.jobs + 1) ∧ (q.done = 0 → ∃ it : Item,
          items t it = items s it ++ [it.canalFlit (144 + e)] ∧ it.kind = q.kind ∧ it.w2.toNat = q.cplPtr)
      (q.bad = true → q.cplPtr < 2 ^ 40 → q.kind < 64 → Answers (exec (.firnJobDone ⟨e, []⟩ r₀ .none) s) fun t => gone t ∧
        (firnOf t e).bad = sat32 (x.bad + 1) ∧ readBytes t.fab.ddr c 32 = firnRecord q 5 0 0 (Config.failCheck s.free).toNat ∧
        ∀ a, a < c ∨ c + 32 ≤ a → tabGet 0 t.fab.ddr a = tabGet 0 s.fab.ddr a) ∧
      (∀ o, q.bad = false → canalWhere s q.outPtr = .ddr o →
        o + q.outLen ≤ ddrUsable s → c + 32 ≤ o ∨ o + q.outLen ≤ c → memFlag s q.inPtr = false →
        memFlag s (q.inPtr + q.inLen - 1) = false → memPoisoned s q.inPtr q.inLen = false → q.cplPtr < 2 ^ 40 → q.kind < 64 →
        let input := memRead s q.inPtr q.inLen
        let r := if q.op = 0 then firnMade s.dev.compatQ48 q input r₀.used else r₀
        let c₀ := Config.deflate s.dev.compatQ48 q.format q.level input
        (q.op ≠ 0 → firnPossible q input r = false → exec (.firnJobDone ⟨e, []⟩ r₀ .none) s = .next s) ∧
        ((q.op ≠ 0 → firnPossible q input r = true) → Answers (exec (.firnJobDone ⟨e, []⟩ r₀ .none) s) fun t => gone t ∧
          readBytes t.fab.ddr o r.out.length = r.out ∧
          readBytes t.fab.ddr c 32 = firnRecord q r.status r.used r.out.length (if r.status = 0 then
            firnCheck q.format (if q.op = 0 then input else r.out) else (Config.failCheck s.free).toNat) ∧
          (∀ a, (a < c ∨ c + 32 ≤ a) → (a < o ∨ o + r.out.length ≤ a) → tabGet 0 t.fab.ddr a = tabGet 0 s.fab.ddr a) ∧
          (firnOf t e).inCnt = sat64 (x.inCnt + r.used) ∧ (firnOf t e).outCnt = sat64 (x.outCnt + r.out.length) ∧
          (q.op = 0 → firnGood s.dev.compatQ48 q.format q.level input c₀ = true →
            r.out = c₀.take q.outLen ∧ (r.status = if c₀.length ≤ q.outLen then 0 else 1) ∧
            (r.status = 0 → r.used = q.inLen ∧ (expand q.format q.inLen true r.out).status = 0 ∧
              (expand q.format q.inLen true r.out).out = input ∧ (s.dev.compatQ48 = false →
                r.out.length ≤ q.inLen + 5 * ((q.inLen + 65534) / 65535) + wrapBytes q.format))) ∧
          (q.op = 0 → firnGood s.dev.compatQ48 q.format q.level input c₀ = false →
            r.out = (firnPlain s.dev.compatQ48 q.format q.level input).take q.outLen) ∧
          (q.op = 1 → r.status = 0 → ∃ wide, (expand q.format q.outLen wide input).out = r.out)))) ∧
    (∀ w : Word, (w.getLsbD 0 = false → Gives (exec (.firnCtrlWrite e w) s) (modFirn s e fun x => { x with run := false })) ∧
      (w.getLsbD 0 = true → Answers (exec (.firnCtrlWrite e w) s) fun t => (firnOf t e).run = true ∧
        (firnOf t e).queue ++ (firnOf t e).held = x.queue ++ x.held ∧
        ((firnOf t e).held = [] ∨ 64 ≤ (firnOf t e).queue.length))) ∧
    (∀ r ue errs, x.run = false → exec (.firnJobDone ⟨e, errs⟩ r ue) s = .next s) ∧
    Gives (exec (.firnCountRead e 0 false) s) (returned (modFirn s e fun x =>
      { x with inHi := some (BitVec.ofNat 32 (x.inCnt / 2 ^ 32)), inCnt := 0 }) (x.inCnt % 2 ^ 32)) ∧
    Gives (exec (.firnCountRead e 2 false) s) (returned (modFirn s e fun x => { x with jobs := 0 }) x.jobs) ∧
    Gives (exec (.firnCountRead e 5 false) s) (returned (modFirn s e fun x => { x with bad := 0 }) x.bad) ∧
    ∀ (b : Nat) (f : Fmt), let u := nxAt s b; let y := firnOf u (objIdx s b)
      ∀ l, l = replyOf [[.ctr y.inCnt, .ctr y.outCnt, .ctr y.jobs, .ctr y.fail, .ctr y.full, .ctr y.bad, .ctr y.ue]] →
        nxInBerth spNxFirnStats b f s l.length = true →
        Replies (exec (.nxFirnStats b f) s) (if (hdrOf s b).clear then modFirn u (objIdx s b) fun x =>
          { x with inCnt := 0, outCnt := 0, jobs := 0, fail := 0, full := 0, bad := 0, ue := 0 } else u) b l

/-- Local ports (R61, R79, R254, R505 to R507). A frame of a port whose format is known enters its flume whole and is counted, or is dropped
and counted, and the port sends with it, of each slot, the sample due at that tick, or digital silence; which frame carries a sample is
the model's choice (log 170); the 64th frame in a row that agrees gives a slave port its format, and its entry reads FULL. Without a clock the entry reads
FAILED 0x0860, unlocked DEGRADED 0x0862. SET applies parameters within R505, and a master port with all of them is FULL at once. -/
def Obligations.LocalPorts : Prop :=
  ∀ (n : Nat) (s : State), n < 8 → let x := lportOf s n
    (∀ (ws : List Word) b w m, s.dev.inReset = false → x.en = true →
      (∀ k r, x.fmt = some (k, r) → s.dev.devState ≠ .halted → Answers (exec (.tdmFrame n ws b w m) s) fun t =>
        (lportOf t n).tx = x.tx + 1 ∧
        (lportOf t n).sent = (nums k).map fun j => tdmDue s n j (ticksOf (r * 1000) s.tb.sel % 2 ^ 26)) ∧
      (∀ k r, x.fmt = some (k, r) → let i := 426 + n
        let items := tdmWords ((ws ++ List.replicate (k - ws.length) 0).take k)
        (∀ fl, (flumeOf s i).pushUnit (flumeB i) items = some fl → Answers (exec (.tdmFrame n ws b w m) s) fun t =>
          flumeOf t i = fl ∧ (lportOf t n).rx = x.rx + 1 ∧ (lportOf t n).ovr = x.ovr ∧ (lportOf t n).num = x.num + 1) ∧
        ((flumeOf s i).pushUnit (flumeB i) items = none → Answers (exec (.tdmFrame n ws b w m) s) fun t =>
          t.flumes = s.flumes ∧ (lportOf t n).rx = x.rx + 1 ∧ (lportOf t n).ovr = x.ovr + 1)) ∧
      (∀ b' w' m', x.fmt = none → iceUp s = true → x.meas = some (b', w', m') → x.agree = 63 → b' ≤ b + 1 → b ≤ b' + 1 →
        w' ≤ w + 1 → w ≤ w' + 1 →
        (∀ fr k r, detect x b' w' m = some (fr, k, r) → Answers (exec (.tdmFrame n ws b w m) s) fun t =>
          (lportOf t n).found = some (fr, k, r) ∧ (negOf t (18 + n)).st = .full ∧
            (negOf t (18 + n)).mode = lportMode x fr k r) ∧
        (detect x b' w' m = none → Answers (exec (.tdmFrame n ws b w m) s) fun t =>
          (lportOf t n).restarts = x.restarts + 1 ∧ (negOf t (18 + n)).st = .failed ∧
            (negOf t (18 + n)).result = 0x0861))) ∧
    (iceUp s = true → x.en = true →
      (x.master = false → Answers (exec (.lportNoClock n) s) fun t => (lportOf t n).found = none ∧
        (negOf t (18 + n)).st = .failed ∧ (negOf t (18 + n)).result = 0x0860) ∧
      (x.found.isSome = true → Answers (exec (.lportUnlocked n) s) fun t => (lportOf t n) = x ∧
        (negOf t (18 + n)).st = .degraded ∧ (negOf t (18 + n)).result = 0x0862 ∧
        (negOf t (18 + n)).mode = (negOf s (18 + n)).mode)) ∧
    ∀ (b : Nat) (f : Fmt), let u := nxAt s b; objIdx s b = n →
      (∀ l y, nxDirect spNxLportSet b f s = true → y = l.foldl Lport.set (lportOf u n) → y.inRange = true → y.clockOk = true →
        (y.format = 1 ∨ y.format = 2 → y.slots = 0 ∨ y.slots = 2) →
        (y.master = true → y.rate ≠ 0 ∧ y.slots ≠ 0 ∧ y.width ≠ 0) →
        Answers (exec (.nxLportSet b f l) s) fun t =>
          lportOf t n = { y with found := none, agree := 0, meas := none, pos := [] } ∧
          (negOf t (18 + n)).st = (if y.en = false then .disabled else if y.master then .full else .pending) ∧
          (y.en = true → (negOf t (18 + n)).attempts = (negOf u (18 + n)).attempts + (if (negOf u (18 + n)).attempts < 255
            then 1 else 0))) ∧
      (∀ l, l = replyOf [[.blob (negBytes (18 + n) (negOf u (18 + n))) 8, .ctr x.rx, .ctr x.tx, .ctr x.ovr, .ctr x.restarts]] →
        nxInBerth spNxLportStats b f s l.length = true →
        Replies (exec (.nxLportStats b f) s) (if (hdrOf s b).clear then
          modLport u n fun x => { x with rx := 0, tx := 0, ovr := 0, restarts := 0 } else u) b l)


/-! ## The Icehouse (chapters 15 to 17) -/

/-- Sensors and the faults they lead to (R30, R453, R515 to R519). A reading replaces the values and notes since when an island runs more
than 3 % behind its worst corner; a sensor is hot from 100 °C until below
97 °C; a trip, a lock-step or SRAM error halts the device, a lock-step error stops the Icehouse; a rail outside its limits is noted and
sends a device in SERVICE to RECOVERY where VDD_CORE is too low. RECOVERY ends in rcvDone, or HALTED where the part is bad, and never
after DDR_UE. Each millisecond the heartbeat rises and the log bucket takes two tokens. -/
def Obligations.SensorsAndFaults : Prop :=
  ∀ s : State, iceUp s = true →
    (∀ (temps : List Int) (volts periods : List Nat) (h : Nat),
      Answers (exec (.sensorRead temps volts periods h) s) fun t => t.ice.sense.holdup = h ∧
        (∀ i, i < 24 → tabGet 0 t.ice.sense.temps i = temps.getD i 0) ∧
        (∀ i, i < 16 → tabGet 0 t.ice.sense.volts i = volts.getD i 0) ∧
        (∀ i, i < 212 → tabGet 0 t.ice.sense.periods i = periods.getD i 0 ∧ tabGet none t.ice.sense.slowSince i =
          if 103 * tabGet 0 s.ice.stored.worst i < 100 * periods.getD i 0 then
            some ((tabGet none s.ice.sense.slowSince i).getD s.tb.elapsed) else none) ∧
        ∀ i, i < 24 → (i ∈ t.ice.sense.hot ↔ 10000 ≤ temps.getD i 0 ∨ (9700 ≤ temps.getD i 0 ∧ i ∈ s.ice.sense.hot))) ∧
    (∀ i (t : Int), i < 24 → 11000 ≤ t → Answers (exec (.tempTrip i t) s) fun v => v.dev.devState = .halted ∧
      tabGet 0 v.ice.sense.temps i = t) ∧
    (∀ i v ms, i < 16 → voltOk s i v = false → let low := ms = true ∧ i < 8 ∧ v + 500 < vSet s ∧ s.dev.devState = .service
      Answers (exec (.voltRange i v ms) s) fun t => i ∈ t.ice.sense.out ∧
        (low → t.dev.devState = .recovery ∧ t.dev.recovering = some 5) ∧ (¬ low → t.dev.devState = s.dev.devState)) ∧
    (Answers (exec .iceLockstep s) fun t => t.dev.devState = .halted ∧ t.dev.iceRuns = false) ∧
    (∀ w, Answers (exec (.iceSramUe w) s) fun t => t.dev.devState = .halted ∧ t.dev.iceRuns = true) ∧
    (∀ c bad, s.dev.devState = .recovery → s.dev.rcvDone = false → s.dev.recovering = some c →
      (bad = true → Answers (exec (.recoveryDone bad) s) fun t => t.dev.devState = .halted) ∧
      (bad = false → c ≠ 0x14 → (c = 5 → ∀ i, i < 8 → voltOk s i (tabGet 0 s.ice.sense.volts i) = true) →
        Gives (exec (.recoveryDone bad) s) { s with dev := { s.dev with rcvDone := true } }) ∧
      (bad = false → c = 0x14 → exec (.recoveryDone bad) s = .next s)) ∧
    (s.ice.sense.ablWant = none → Settles (exec .devHeartbeat s) fun u => u.dev.heartbeat = s.dev.heartbeat + 1 ∧
      u.ice.lanes.tokens = min 20000 (s.ice.lanes.tokens + 2) ∧ u.ice.lanes.stage = [])

/-- Background activities and probes (R520 to R531): Ablation raises V_ABL by STEP, at most once in 10 s and never beyond +60 mV, where
a Floe slow for 1 s is fenced (R30); Plough counts a correction and marks a Névé word it cannot correct; Sounding retrains a channel; Drift keeps the
last 60 snapshots; a probe takes a sample into the bin its width calls for, and its count reads as a pair. -/
def Obligations.BackgroundAndProbes : Prop :=
  (∀ (p : Probe) (x : Int) (k : Nat), 1 ≤ p.width → 1 ≤ k → k < 31 → let d := x - p.origin
    (p.log = false → (binOf p x = k ↔ (k * p.width : Nat) ≤ d ∧ d < ((k + 1) * p.width : Nat))) ∧
    (p.log = true → (binOf p x = k ↔ (2 ^ (k - 1) * p.width : Nat) ≤ d ∧ d < (2 ^ k * p.width : Nat))) ∧
    (binOf p x = 0 ↔ d < p.width) ∧ binOf p x ≤ 31) ∧
  (∀ s : State, bgRuns s = true → let z := s.ice.sense
    (∀ d, slowFor s d = false → exec (.islandSlow d) s = .next s) ∧
    (∀ d, d < 212 → slowFor s d = true →
      (600 ≤ z.vAbl → d < 96 → Answers (exec (.islandSlow d) s) fun t => (floeOf t d).fenced = true ∧
        t.ice.sense.vAbl = z.vAbl) ∧
      (z.vAbl < 600 → z.vrMode ≠ 2 → z.step ≠ 0 →
        ((∀ t, z.ablAt = some t → t + 10 * unitsPerSec ≤ s.tb.sel) → Answers (exec (.islandSlow d) s) fun t =>
          t.ice.sense.vAbl = min 600 (z.vAbl + z.step) ∧ t.ice.sense.ablAt = some s.tb.sel) ∧
        (∀ t0, z.ablAt = some t0 → s.tb.sel < t0 + 10 * unitsPerSec → Answers (exec (.islandSlow d) s) fun t =>
          t.ice.sense.vAbl = z.vAbl ∧ t.ice.sense.ablWant.isSome = true))) ∧
    (∀ proj, Answers (exec (.ablationCheck none proj) s) fun t =>
      t.ice.flash.wear = (decide (90000 < proj) || (decide (80000 ≤ proj) && s.ice.flash.wear))) ∧
    (∀ m w ch, plExists s m w = true → exec (.ploughRead m w .ok ch) s = .next s ∧
      ∀ bit, exec (.ploughRead m w (.corrected bit) true) s = .next s ∧
      Gives (exec (.ploughRead m w (.corrected bit) false) s)
        { s with ice := { s.ice with sense := { z with plgCe := tabMod 0 z.plgCe m.no (· + 1) } } }) ∧
    (∀ w ch, w < 4194304 → Answers (exec (.ploughRead .neve w .bad ch) s) fun t => w ∈ t.fab.nevePoison ∧
      t.fab.neveUe = sat32 (s.fab.neveUe + 1) ∧ t.fab.neve = s.fab.neve) ∧
    (∀ c, (s.fab.live.any fun l => l.1 == c) = true →
      (Answers (exec (.soundingRetrain c true) s) fun t => tabGet 0 t.ice.sense.sndFail c = 0 ∧
        tabGet 0 t.ice.sense.sndTemp c = tabGet 0 z.temps (4 * (c / 2) + 3)) ∧
      (Answers (exec (.soundingRetrain c false) s) fun t => tabGet 0 t.ice.sense.sndFail c = tabGet 0 z.sndFail c + 1 ∧
        t.ice.sense.sndTemp = z.sndTemp ∧ t.fab.live = s.fab.live)) ∧
    Gives (exec .soundingCalibrate s) { s with ice := { s.ice with sense := { z with sndCal := z.sndCal + 1 } } } ∧
    ∀ margin, Answers (exec (.driftSnapshot margin) s) fun t => t.ice.snapSeq = s.ice.snapSeq + 1 ∧
      t.ice.snaps.length = min 60 (s.ice.snaps.length + 1) ∧ t.ice.snaps.getLast? = some (snapNow s) ∧
      t.ice.sense = z) ∧
  ∀ (p : Nat) (s : State), p < 64 → s.dev.inReset = false → let q := probeOf s p
    (∀ x, q.en = true → Gives (exec (.strataSample p x true) s) (modProbe s p fun q => { q with skip := sat32 (q.skip + 1) }) ∧
      Answers (exec (.strataSample p x false) s) fun t => (probeOf t p).cnt = q.cnt + 1 ∧
        ∃ v, (probeOf t p).min = min q.min v ∧ (probeOf t p).max = max q.max v ∧ (q.qty = 5 → v = satS 32 x) ∧
          ∀ k, tabGet 0 (probeOf t p).bins k = if k = binOf q v then sat32 (tabGet 0 q.bins k + 1) else tabGet 0 q.bins k) ∧
    (∀ a, barLive s a = true → q.cnt < 2 ^ 64 → Answers (exec (.strCntRead a p false) s) fun t =>
      t.dev.rdata = BitVec.ofNat 64 (q.cnt % 2 ^ 32) ∧
      Answers (exec (.strCntRead a p true) t) fun t' => t'.dev.rdata = BitVec.ofNat 64 (q.cnt / 2 ^ 32)) ∧
    ∀ (b : Nat) (f : Fmt), let u := nxAt s b; objIdx s b = p →
      (nxDirect spNxStrProbe b f s = true →
        Gives (exec (.nxStrProbe b f none) s) (modProbe u p fun q => { q with en := false }) ∧
        ∀ y : ProbeSet, qtyOk y.qty y.obj = true → 1 ≤ y.width → y.width < 2 ^ 31 → y.period ≤ 1000000 →
          (y.qty = 2 ∨ y.qty = 3 → 1 ≤ y.period) → -(2 ^ 31) ≤ y.origin → y.origin < 2 ^ 31 →
          Gives (exec (.nxStrProbe b f (some y)) s) (modProbe u p fun _ => { Probe.reset with
            en := true, log := y.log, qty := y.qty, obj := y.obj, origin := y.origin, width := y.width,
            period := y.period })) ∧
      (nxDirect spNxStrRead b f s = true → (hdrOf s b).dma = true → 288 ≤ (hdrOf s b).outLen →
        Gives (exec (.nxStrRead b f) s) (if (hdrOf s b).clear then modProbe u p fun q =>
          { q with min := Probe.reset.min, max := Probe.reset.max, cnt := 0, cntHi := none, skip := 0, bins := [] } else u))

/-- Alarms, logs and the flash (R534, R537, R538, R540 to R545). An alarm not pending on an exit opens a record due at once, a pending one
is counted; at a whole second a record with a count is due and one without is dropped. A log record takes a token or is counted, and the
count is told of. No flash operation starts while power is failing; a batch goes to the least-erased sector of its region; a verified
write puts its records there; a failed operation is retried once, then its sector is replaced by a spare. -/
def Obligations.AlarmsLogsFlash : Prop :=
  (∀ (e : LaneExit) (code : Nat) (obj : Word) (arg site : DWord) (now : Nat), e.en = true → alarmSev code ≤ e.minSev →
    let f := e.alarm code obj arg site now
    ((∀ r : AlarmRec, r ∈ e.pend → r.code ≠ code) → f.pend = e.pend ++ [⟨code, 1, obj, arg, now, now, site, obj, true⟩]) ∧
    ((∃ r : AlarmRec, r ∈ e.pend ∧ r.code = code) → f.pend.length = e.pend.length ∧ ∀ (k : Nat) (r : AlarmRec), e.pend[k]? = some r → ∃ q : AlarmRec,
      f.pend[k]? = some q ∧
      (r.code ≠ code → q = r) ∧
      (r.code = code → q.code = code ∧ q.count = sat32 (r.count + 1) ∧ q.last = now ∧ q.lastObj = obj ∧ q.site = site ∧ q.due = r.due ∧
        (0 < r.count → q.first = r.first ∧ q.object = r.object ∧ q.arg = r.arg) ∧
        (r.count = 0 → q.first = now ∧ q.object = obj ∧ q.arg = arg)))) ∧
  (∀ s : State, iceUp s = true →
    (Settles (exec .alarmSecond s) fun u => ∀ q : AlarmRec, q ∈ u.ice.lanes.ring.pend ↔
      ∃ r : AlarmRec, r ∈ s.ice.lanes.ring.pend ∧ (r.due = true ∨ 0 < r.count) ∧ q = { r with due := true }) ∧
    (∀ code sev obj data, let t := logRec s code sev obj data; let l := s.ice.lanes
      (0 < l.tokens → l.ring.en = true → sev ≤ l.ring.minSev → l.ring.logs.length < 32768 →
        t.ice.lanes.tokens = l.tokens - 1 ∧
        t.ice.lanes.ring.logs = l.ring.logs ++ [{ code := code, sev := sev, object := obj, time := nowNs s, data := data }]) ∧
      (l.tokens = 0 → t.ice.lanes.supp = l.supp + 1 ∧ t.ice.lanes.ring = l.ring)) ∧
    (let l := s.ice.lanes; l.supp ≠ 0 → l.ring.en = true → 5 ≤ l.ring.minSev → l.ring.skipped = 0 → l.ring.logs.length < 32768 →
      Settles (exec .logSecond s) fun u => u.ice.lanes.supp = 0 ∧ u.ice.lanes.ring.logs = l.ring.logs ++
        [{ code := 1, sev := 5, object := 0, time := nowNs s,
           data := leBytes l.supp 4 ++ leBytes l.suppFirst 8 ++ leBytes l.suppLast 8 }])) ∧
  ∀ s : State, iceUp s = true → let f := s.ice.flash
    (∀ r k, s.dev.devState ≠ .halted → r < 3 → (tabGet Batch.reset f.batches r).recs ≠ [] → f.queue = [] → f.busy = false →
      holdupOk s .erase4 = true → Answers (exec (.logFlush r k) s) fun t => t.ice.flash.busy = true ∧
        ∃ o q sec n c, t.ice.flash.queue = [o, q] ∧ o.kind = .erase4 ∧ q.kind = .page ∧ q.left = 16 ∧ q.final = true ∧
          o.job = q.job ∧ o.job = .sector r sec n c s.ice.archive ∧ sec ∈ regionSectors s r ∧
          ((∀ x, x ∈ (tabGet Batch.reset f.batches r).recs → x.length ≤ 12288) → 1 ≤ n) ∧
          ∀ x, x ∈ regionSectors s r → tabGet 0 f.erases sec ≤ tabGet 0 f.erases x) ∧
    (∀ o l v, f.queue = o :: l → f.busy = false → let w := modSense s fun x => { x with holdup := v }
      Answers (exec (.holdupRecheck v) s) fun t => t.ice.flash.queue = f.queue ∧
        t.ice.flash.busy = (!f.pwrLow && holdEnergy w o.kind)) ∧
    (∀ o l r sec n c k, f.busy = true → f.queue = o :: l → o.job = .sector r sec n c k →
      let b := tabGet Batch.reset f.batches r
      (o.kind = .page → o.left ≤ 1 → o.final = true → Answers (exec (.flashOpDone true) s) fun t => t.ice.flash.queue = l ∧
        tabGet none t.ice.flash.sectors sec =
          some { region := r, gen := b.gen, first := b.seq, recs := b.recs.take n, comp := c, enc := k }) ∧
      (o.kind = .erase4 → o.left ≤ 1 → o.final = false → Answers (exec (.flashOpDone true) s) fun t => t.ice.flash.queue = l ∧
        tabGet none t.ice.flash.sectors sec = none ∧ tabGet 0 t.ice.flash.erases sec = tabGet 0 f.erases sec + 1) ∧
      (o.retry = false → Answers (exec (.flashOpDone false) s) fun t =>
        t.ice.flash.queue = { o with retry := true } :: l ∧ t.ice.flash.fails = f.fails) ∧
      (o.retry = true → f.spare < 1024 → Answers (exec (.flashOpDone false) s) fun t => t.ice.flash.fails = f.fails + 1 ∧
        t.ice.flash.spare = f.spare + 1 ∧ t.ice.flash.retired = f.retired ++ [(sec, 15360 + f.spare)] ∧
        ∃ p, t.ice.flash.queue.head? = some p ∧ p.job = .sector r (15360 + f.spare) n c k ∧ p.kind = .erase4)) ∧
    (f.pwrLow = false → Answers (exec .pwrfailNFall s) fun t => t.ice.flash.pwrLow = true ∧ t.ice.flash.queue = f.queue ∧
      t.ice.flash.busy = f.busy) ∧
    (f.pwrLow = true → (Answers (exec .pwrfailNRise s) fun t => t.ice.flash.pwrLow = false) ∧
      (∀ v, f.busy = false → Answers (exec (.holdupRecheck v) s) fun t => t.ice.flash.busy = false) ∧
      (f.queue ≠ [] → Answers (exec (.flashOpDone true) s) fun t => t.ice.flash.busy = false))

/-- The Icehouse commands complete (R515, R528, R544 to R549): readings, logs, exits and hold-up parameters; an update writes the slot
the device does not run from, which is VERIFIED once written and verified; activation is one boot record, made only where the hold-up
check passes; a key is enrolled where fewer than four are held, or revoked. -/
def Obligations.IcehouseCommands : Prop :=
  ∀ (b : Nat) (f : Fmt) (s : State), let u := nxAt s b
    (nxDirect spNxIceSensors b f s = true → (hdrOf s b).dma = true →
      (1060 ≤ (hdrOf s b).outLen → Gives (exec (.nxIceSensors b f none) s) u) ∧
      ∀ n x, u.ice.snaps.reverse[n]? = some x → (replyOf [snapVals x]).length ≤ (hdrOf s b).outLen →
        Gives (exec (.nxIceSensors b f (some n)) s) u) ∧
    (∀ kind first count, nxAccepted spNxIceLogRead b f s = true → (hdrOf s b).dma = true → kind < 4 →
      (logRecs u kind first count).flatten.length ≤ (hdrOf s b).outLen →
      Gives (exec (.nxIceLogRead b f kind first count) s) (addLong u b (hdrOf s b) (.logRead kind first count))) ∧
    (∀ l, nxDirect (spNxIceLogSet l) b f s = true → (∀ x, x ∈ l → x.inRange = true) →
      let p := l.foldl LogParams.set u.ice.params; let a := archiveAfter u.ice.archive l
      (p.syslogEn = true → p.mgmtAddr.isSome = true ∧ p.syslogDest.isSome = true) →
      (p.tlmEn = true → p.mgmtAddr.isSome = true ∧ p.tlmDest.isSome = true) →
      (∀ k, a = some k → (slotOf u k).st = .loaded ∧ ((slotOf u k).mode = 7 ∨ (slotOf u k).mode = 8)) →
      Answers (exec (.nxIceLogSet b f l) s) fun t => t.ice.params = p ∧ t.ice.archive = a ∧
        (u.ice.flash.queue = [] → ∃ o q, t.ice.flash.queue = [o, q] ∧ o.job = .config p ∧ q.job = .config p)) ∧
    (∀ p : HoldParams, nxDirect spNxIceHoldup b f s = true → p.ok = true →
      Answers (exec (.nxIceHoldup b f p) s) fun t => t.ice.hold = p ∧ t.ice.params = u.ice.params) ∧
    (∀ size v, nxAccepted spNxFwUpdate b f s = true → size ≤ 67108864 → u.ice.stored.otpFloor ≤ v →
      Answers (exec (.nxFwUpdate b f true size v) s) fun t => (1 - u.ice.slot) ∉ t.ice.stored.verified ∧
        t.ice.flash.fwDone = 0 ∧ t.ice.slot = u.ice.slot ∧ t.ice.stored.active = u.ice.stored.active ∧
        ∃ l, l ∈ t.nx.long ∧ l.berth = b ∧ l.work = .fwUpdate (1 - u.ice.slot) v) ∧
    (∀ l k v, iceUp s = true → (s.nx.long.find? fun l => l.berth == b) = some l → l.work = .fwUpdate k v → l.hdr.dma = false →
      (∀ o, o ∈ s.ice.flash.queue → ∀ j, o.job ≠ .fw j) →
      Answers (exec (.longCommandComplete b [] 0 none) s) fun t => t.ice.stored.verified = addOnce s.ice.stored.verified k ∧
        t.ice.stored.secVer = s.ice.stored.secVer.set k v ∧ t.ice.stored.active = s.ice.stored.active ∧ l ∉ t.nx.long) ∧
    (∀ k l, nxDirect fwActivateSpec b f s = true → u.ice.stored.verified = k :: l →
      (holdupOk u .page = true → Answers (exec (.nxFwActivate b f) s) fun t => t.ice.stored.active = k ∧ t.ice.stored.tries = 0 ∧
        t.ice.stored.fresh = true ∧ k ∉ t.ice.stored.verified ∧ t.ice.slot = u.ice.slot) ∧
      (holdupOk u .page = false → Answers (exec (.nxFwActivate b f) s) fun t => t.ice.stored = u.ice.stored)) ∧
    (nxDirect spNxKeyEnroll b f s = true → let ks := u.ice.stored.keys
      (∀ lo hi types, 0x8000 ≤ lo → lo ≤ hi → hi ≤ 0xFFFF → ks.length < 4 →
        Gives (exec (.nxKeyEnroll b f true (.enroll lo hi types)) s) (modStored_ u fun x =>
          { x with keys := ks ++ [{ lo := lo, hi := hi, types := types, revoked := false }] })) ∧
      (∀ k, k < ks.length → Gives (exec (.nxKeyEnroll b f true (.revoke k)) s) (modStored_ u fun x =>
        { x with keys := ks.modify k fun q => { q with revoked := true } })) ∧
      ∀ c, Answers (exec (.nxKeyEnroll b f false c) s) fun t => t.ice.stored = u.ice.stored)


/-! ## Nivo (chapter 18) -/

/-- No command lowers Nivo's audit counter, reuses a record sequence or takes an AUDIT record away, whatever it is and whatever state it
meets (R569 to R571). -/
def Obligations.AuditNeverFalls : Prop :=
  ∀ (i : Instr) (s t : State), exec i s = .next t →
    s.nivo.audit ≤ t.nivo.audit ∧ s.nivo.seq ≤ t.nivo.seq ∧ ∃ l, t.nivoFw.audits = s.nivoFw.audits ++ l

/-- Nivo's records (R557, R561, R563, R565 to R572). A record carries the next SEQ, the counter, TSRC and SEAL_OPEN; none is written after
the hold-up closes. An audited event raises the counter by one with its record, or at the limit is not accepted. A slot's usage opens
with ACTIVE and closes without it; a programme counts an invalid block where an ACTIVE slot is not VALID, and measures no other: 800
blocks make a step of 100 ms, integrated loudness gates blocks of four steps absolutely and 10 LU below their mean (R564; the energies
and peaks of each slot are the event's operands, log 189); each INTERVAL gives a MEASURE
record for each programme; without frames for 100 ms every usage closes. -/
def Obligations.NivoRecords : Prop :=
  (∀ (s : State) (type t0 t1 obj : Nat) (inv conc : Bool) (gen : Nat) (body : List Byte), let n := s.nivo
    let t := nivoRec s type t0 t1 obj inv conc gen body
    (nivoWrites s = false → t = s) ∧
    (nivoWrites s = true → n.recs.length < nivoRecMax → t.nivo.seq = n.seq + 1 ∧ ∃ r : NRec, t.nivo.recs = n.recs ++ [r] ∧
      r.seq = n.seq ∧ r.type = type ∧ r.audit = n.audit ∧ r.tsrc = n.tsrc ∧ r.tStart = t0 ∧ r.tEnd = t1 ∧
      (r.flags % 2 = 1 ↔ n.sealLow = false) ∧ r.bytes.length = 64 ∧ t.nivoFw.audits = s.nivoFw.audits ++ (if type = 4 then [r] else []))) ∧
  (∀ (s : State) (now code gen : Nat) (d : List Byte) (v : Nat),
    (nivoWrites s = true → s.nivo.audit < 0xFFFFFFFF → ∃ t r, nivoAudit s now code gen d v = some t ∧
      t.nivo.audit = s.nivo.audit + 1 ∧ t.nivoFw.audits = s.nivoFw.audits ++ [r] ∧ r.audit = s.nivo.audit + 1 ∧
      r.body.take 2 = leBytes code 2) ∧
    (0xFFFFFFFF ≤ s.nivo.audit → nivoAudit s now code gen d v = none)) ∧
  (∀ (s : State) (now : Nat) (f : TapFrame) (loud : List Nat) (e : TapEntry),
    let t := meterSlot s now f loud e; let act := (tabGet TapSlot.none f.slots e.slot).active
    (act = true → usageOf s e.slot = none → ∃ u, usageOf t e.slot = some u ∧ u.chan = e.chan ∧ u.tx = e.tx ∧ u.start = now) ∧
    (∀ u, act = true → usageOf s e.slot = some u → t.nivo.recs = s.nivo.recs ∧
      usageOf t e.slot = some { u with loud := u.loud + b2n (loud.contains e.slot) }) ∧
    (act = false → usageOf t e.slot = none) ∧ ∀ k, k ≠ e.slot → usageOf t k = usageOf s k) ∧
  (∀ (s : State) (now : Nat) (f : TapFrame) (eng : List (Nat × Nat × Int)) (es : List TapEntry) (p : Nat),
    let slot (e : TapEntry) := tabGet TapSlot.none f.slots e.slot
    let t := meterProg s now f eng es p
    ((∀ e, e ∈ es → (slot e).active = false) → t = s) ∧
    (∀ e, e ∈ es → (slot e).active = true → (progOf t p).begun = true ∧
      (progOf t p).start = (if (progOf s p).begun then (progOf s p).start else now) ∧
      ((slot e).valid = false → (progOf t p).invalid = (progOf s p).invalid + 1 ∧ (progOf t p).conc = (progOf s p).conc ∧
        (progOf t p).meter = (progOf s p).meter) ∧
      ((∀ e, e ∈ es → (slot e).active = true → (slot e).valid = true) → (progOf t p).invalid = (progOf s p).invalid ∧
        (∀ w q, es = [e] → e.role = 0 → eng = [(e.slot, w, q)] → let m := (progOf s p).meter; let m' := (progOf t p).meter
          m'.peak = some (max q (m.peak.getD q)) ∧
          (m.blocks < 799 → m'.blocks = m.blocks + 1 ∧ m'.energy = m.energy + 100 * w ∧ m'.steps = m.steps) ∧
          (799 ≤ m.blocks → m'.blocks = 0 ∧ m'.energy = 0 ∧ m'.steps = (m.energy + 100 * w) :: m.steps))))) ∧
  (∀ (m : Meter) (k : Nat) (q : Option Int), let v := m.vals k q
    let win (n : Nat) : List Nat := (nums (m.steps.length + 1 - n)).map fun i => ((m.steps.drop i).take n).sum
    let a := (win 4).filter (Config.aboveGate · 3200); let g := a.filter fun x => decide (a.sum < 10 * a.length * x)
    v.gated = g.length ∧ (g = [] → v.integ = -32768) ∧ (g ≠ [] → v.integ = Config.lufs g.sum (3200 * g.length)) ∧
    (m.steps.length < 4 → v.mom = loudness 0 3200 ∧ v.gated = 0) ∧ (m.steps.length < 30 → v.range = 0) ∧
    v.peak = q.getD (-32768)) ∧
  ∀ s : State, nivoUp s = true →
    (∀ now, Answers (exec (.usageLinkClose now) s) fun t => (∀ k, usageOf t k = none) ∧ t.nivo.linkUp = false ∧
      t.nivo.clock = now) ∧
    (∀ now order tb, s.nivo.table = some tb → s.nivo.update = false →
      (now % (tb.interval * 60000000000) = 0 → Answers (exec (.measureInterval now order) s) fun t => t.nivo.clock = now ∧
        (∀ p, p ∈ tb.progs → (progOf t p).mark = now ∧ (progOf t p).meter.since = 0 ∧ (progOf t p).meter.peak = none ∧
          (progOf t p).meter.steps = (progOf s p).meter.steps) ∧
        t.nivo.seq = s.nivo.seq + (if nivoWrites s then tb.progs.length else 0) ∧ t.nivo.audit = s.nivo.audit) ∧
      (now % (tb.interval * 60000000000) ≠ 0 → exec (.measureInterval now order) s = .next s)) ∧
    (∀ now, s.nivo.holdLow = false → Answers (exec (.nivoHoldupLow now) s) fun t => t.nivo.holdLow = true ∧
      nivoWrites t = false ∧ ∀ k, usageOf t k = none)

/-- Selections and the tap link (R558 to R563, R568). A table that passes gets the next GEN and is sent; Nivo audits it once, keeps it and
acknowledges; only then do frames carry it, and Nivo applies it from the first frame that does. A repeated GEN is acknowledged and
nothing else. Three silent tries end the command and keep the old GEN. A frame out of sequence is missed, and its block becomes the
last. -/
def Obligations.NivoSelection : Prop :=
  (∀ (b : Nat) (f : Fmt) (t : TapTable) (s : State), let u := nxAt s b; nxAccepted spNxNivoTap b f s = true →
    (hdrOf s b).dma = true → t.inRange = true → t.entries.length ≤ 256 → (t.entries.map (·.slot)).Nodup →
    (t.entries.map fun e => (e.chan, e.tx)).Nodup →
    (∀ e, e ∈ t.entries → (chanOf u e.chan).st ≠ .free ∧ (chanOf u e.chan).core.rate = 48) →
    (∀ p, p ∈ t.progs → progRoles (t.of p) = true) → 1 ≤ t.interval → t.interval ≤ 60 → t.group < 8 →
    512 * t.entries.length ≤ partSize u 6 → u.nivo.update = false → u.nivo.audit ≠ 0xFFFFFFFF → u.nivo.fault = false →
    let g := (u.nivo.genSeen + 1) % 2 ^ 32
    Gives (exec (.nxNivoTap b f t) s) (addLong { u with tap := { u.tap with
      sent := some (g, t, 0), selPath := u.tap.selPath ++ [(g, t)] } } b (hdrOf s b) (.nivoTap g))) ∧
  ∀ s : State,
    (∀ now g t l, s.tap.selPath = (g, t) :: l → nivoUp s = true → s.nivo.update = false →
      (s.nivo.genSeen = g → Gives (exec (.selectionReceive now) s)
        { s with tap := { s.tap with selPath := l, acks := s.tap.acks ++ [(g, s.nivo.audit)] } }) ∧
      (s.nivo.genSeen ≠ g → nivoWrites s = true → s.nivo.audit < 0xFFFFFFFF →
        Answers (exec (.selectionReceive now) s) fun v => v.nivo.audit = s.nivo.audit + 1 ∧ v.nivo.genSeen = g ∧
          v.nivo.pend = some (g, t) ∧ v.nivo.table = s.nivo.table ∧ v.tap.acks = s.tap.acks ++ [(g, s.nivo.audit + 1)] ∧
          ∃ r, v.nivo.recs.getLast? = some r ∧ r.type = 4 ∧ r.gen = g % 65536 ∧ r.audit = s.nivo.audit + 1 ∧
            r.body = fitTo 28 (leBytes 1 2 ++ fitTo 16 (t.hash g) ++ leBytes 0 4))) ∧
    (∀ g a l t k c, s.tap.acks = (g, a) :: l → s.tap.sent = some (g, t, k) → tapCmd s g = some c → c.hdr.dma = true →
      Answers (exec .selectionAck s) fun v => v.tap.gen = g ∧ v.tap.table = some t ∧ v.tap.sent = none ∧ c ∉ v.nx.long) ∧
    (∀ g t k c, s.tap.sent = some (g, t, k) → tapCmd s g = some c →
      (k < 3 → Gives (exec .selectionRetry s) { s with tap := { s.tap with
        sent := some (g, t, k + 1), selPath := s.tap.selPath ++ [(g, t)] } }) ∧
      (3 ≤ k → Answers (exec .selectionRetry s) fun v => v.tap.sent = none ∧ v.tap.gen = s.tap.gen ∧
        v.tap.table = s.tap.table ∧ c ∉ v.nx.long)) ∧
    (nivoFitted s = true → s.dev.inReset = false → s.dev.nxUp = true → s.tap.block ≠ some (blockNow s) →
      Answers (exec .tapGather s) fun v => v.tap.block = some (blockNow s) ∧
        (s.tap.table = none → v.lkp = s.lkp ∧ v.flumes = s.flumes) ∧
        (∀ t, s.tap.table = some t → ∀ r, r < 4 →
          let it := mkItem (Config.kind 5).toNat false (Config.prio 5).toNat t.group 0 (0x80 + r) 0 0
          let items (u : State) : List FItem :=
            let f := flumeOf u (bankFlume (2 * r)); f.head.map (·.2) ++ f.body.map (·.2) ++ f.held
          items v = items s ++ [it.canalFlit 232]) ∧
        ∃ f, v.tap.frame = some f ∧ f.block = blockNow s ∧ f.gen = s.tap.gen ∧ f.dom = s.tb.selDom ∧
          f.servo = (clkOf s s.tb.selDom).servo.no ∧ f.time = nowNs s) ∧
    (∀ f, s.tap.frame = some f → Gives (exec .tapFrameSend s)
      { s with tap := { s.tap with frame := none, link := s.tap.link ++ [f] } }) ∧
    ∀ now loud eng f l b, s.tap.link = f :: l → nivoUp s = true → s.nivo.lastBlock = some b →
      (f.block = b + 1 → Answers (exec (.tapFrameReceive true now loud eng) s) fun v => v.tap.link = l ∧
        v.nivo.lastBlock = some f.block ∧ v.nivo.linkUp = true ∧ (f.servo = 2 → v.nivo.tsrc = f.dom) ∧
        (∀ g t, s.nivo.pend = some (g, t) → f.gen = g → v.nivo.table = some t ∧ v.nivo.gen = g ∧ v.nivo.pend = none) ∧
        ((∀ g t, s.nivo.pend = some (g, t) → f.gen ≠ g) → v.nivo.table = s.nivo.table ∧ v.nivo.gen = s.nivo.gen)) ∧
      (f.block ≠ b + 1 → Answers (exec (.tapFrameReceive true now loud eng) s) fun v => v.tap.link = l ∧
        v.nivo.lastBlock = some f.block ∧ v.nivo.table = s.nivo.table ∧ v.nivo.usage = s.nivo.usage ∧
        (s.nivo.update = false → ∀ p x, (p, x) ∈ s.nivo.progs → x.begun = true →
          ∃ k, 1 ≤ k ∧ (p, { x with invalid := x.invalid + k, flagInv := true }) ∈ v.nivo.progs)) ∧
      (Answers (exec (.tapFrameReceive false now loud eng) s) fun v => v.nivo.lastBlock = some (b + 1) ∧
        v.nivo.table = s.nivo.table)

/-- Nivo's pins, update mode, power and inspection (R571 to R576). A change of the seal is audited; update mode holds exactly while an
update is asked for and the seal is broken, and closes every usage on entry; only then are images and parameters written, the latter
audited; activation swaps the slots and raises the floor. Power-on keeps the counter, records and tables. A fault of Nivo's die is
kept; the poll keeps each condition marked exactly while it lasts; NX_NIVO_INFO changes nothing. -/
def Obligations.NivoPinsAndUpdate : Prop :=
  (∀ (low : Bool) (now cause : Nat) (s : State), nivoFitted s = true →
    (s.nivo.sealLow ≠ low → Answers (exec (.nivoSealNChange low now cause) s) fun t => t.nivo.sealLow = low ∧
      (nivoUp s = true → s.nivo.audit < 0xFFFFFFFE → (t.nivo.update = true ↔ s.nivo.updLow = true ∧ low = false)) ∧
      (nivoWrites s = true → s.nivo.audit < 0xFFFFFFFF → t.nivo.audit = s.nivo.audit + 1 ∧
        ∃ r, r ∈ t.nivoFw.audits ∧ r.audit = s.nivo.audit + 1 ∧ r.body.take 2 = leBytes (if low then 3 else 2) 2)) ∧
    (s.nivo.updLow ≠ low → Answers (exec (.nivoUpdNChange low now cause) s) fun t => t.nivo.updLow = low ∧
      t.nivo.audit = s.nivo.audit ∧ (nivoUp s = true → s.nivo.audit < 0xFFFFFFFF →
        (t.nivo.update = true ↔ low = true ∧ s.nivo.sealLow = false)) ∧
      (s.nivo.update = false → t.nivo.update = true → t.nivo.progs = [] ∧ ∀ k, usageOf t k = none)) ∧
    Answers (exec (.nivoPowerOn now) s) (fun t => t.nivo.powered = true ∧ t.nivo.audit = s.nivo.audit ∧
      t.nivo.table = s.nivo.table ∧ t.nivo.genSeen = s.nivo.genSeen ∧ t.nivo.tsrc = 3 ∧ t.nivo.lastBlock = none ∧
      (s.nivo.sealLow = true → t.nivo.recs = s.nivo.recs ∧ t.nivo.update = false))) ∧
  (∀ s : State, nivoUp s = true →
    (∀ w now, s.nivo.update = false → exec (.nivoI2cUpdateWrite w now) s = .next s) ∧
    (s.nivo.update = true → s.nivo.holdLow = false →
      (∀ d now, Gives (exec (.nivoI2cUpdateWrite (.image d) now) s) { s with nivoFw := { s.nivoFw with
        image := s.nivoFw.image ++ d, verified := false } }) ∧
      (∀ good v now, Answers (exec (.nivoI2cUpdateWrite (.verify good v) now) s) fun t =>
        (t.nivoFw.verified = true ↔ good = true ∧ s.nivoFw.floor_ ≤ v) ∧ t.nivoFw.other = some (sha256 s.nivoFw.image) ∧ t.nivoFw.slot = s.nivoFw.slot) ∧
      (∀ k v now, s.nivo.fault = false → s.nivo.audit < 0xFFFFFFFF →
        Answers (exec (.nivoI2cUpdateWrite (.param k v) now) s) fun t => tabGet 0 t.nivoFw.params k = v ∧
          t.nivo.audit = s.nivo.audit + 1) ∧
      (∀ now, s.nivoFw.verified = true → s.nivo.fault = false → s.nivo.audit < 0xFFFFFFFF →
        Answers (exec (.nivoFirmwareActivate true now) s) fun t => t.nivoFw.slot = 1 - s.nivoFw.slot ∧
          t.nivoFw.floor_ = max s.nivoFw.floor_ (s.nivoFw.secVer.getD (1 - s.nivoFw.slot) 0) ∧
          t.nivoFw.verified = false ∧ t.nivo.audit = s.nivo.audit + 1)) ∧
    (∀ tap core level mac stage cell, Gives (exec (.nivoDieFault tap core level mac stage cell) s) { s with nivo := { s.nivo with
      faults := s.nivo.faults ++ [nivoSite (if tap then 236 else 235) level mac stage cell], fault := s.nivo.fault || core } }) ∧
    (∀ dom mac stage cell, dom < 512 → let x := (nivoSite dom 4 mac stage cell).toNat; let y := (nivoSite dom 1 mac stage cell).toNat
      mac < 2 ^ 16 → stage < 2 ^ 24 → cell < 72 → (∀ l, l = 0 ∨ 4 < l → nivoSite dom l mac stage cell = siteOf 6 1 1 0 0x1FF 0xFFFF 0xFFFFFF 0xFF) ∧
        x / 2 ^ 29 % 8 = 4 ∧ x / 2 ^ 16 % 2 ^ 9 = dom ∧ x % 2 ^ 16 = 0xFFFF ∧ x / 2 ^ 32 = 0xFFFFFFFF ∧ y / 2 ^ 29 % 8 = 1 ∧
        y / 2 ^ 16 % 2 ^ 9 = dom ∧ y % 2 ^ 16 = mac ∧ y / 2 ^ 40 = stage ∧ y / 2 ^ 32 % 2 ^ 8 = cell) ∧
    (∀ q, Gives (exec (.nivoI2cSeqSelect q) s) { s with nivo := { s.nivo with winSeq := some q } })) ∧
  (∀ (lock soon : Bool) (s : State), nivoFitted s = true → s.dev.iceRuns = true → s.dev.inReset = false →
    Answers (exec (.nivoStatePoll lock soon) s) fun t =>
      (s.nivo.powered = true → t.nivo = { s.nivo with selUp := lock }) ∧
      (0x64 ∈ t.tap.raised ↔ s.nivo.powered = true ∧ s.nivo.fault = true) ∧
      (0x65 ∈ t.tap.raised ↔ s.nivo.powered = true ∧ s.nivo.audit = 0xFFFFFFFF) ∧
      (0x63 ∈ t.tap.raised ↔ s.nivo.powered = true ∧ soon = true) ∧
      (0x60 ∈ t.tap.raised ↔ nivoInForce s = true ∧ ¬ (s.nivo.powered = true ∧ s.nivo.linkUp = true ∧ lock = true))) ∧
  ∀ (b : Nat) (f : Fmt) (s : State), nxDirect spNxNivoInfo b f s = true → (hdrOf s b).dma = true →
    1120 ≤ (hdrOf s b).outLen → Gives (exec (.nxNivoInfo b f) s) (nxAt s b)
end

