-- ==== Sys2Proof/Laws/Tab.lean ====
section
/-! SUPPORT. Sparse tables: a read after a write, and the canonical form every write keeps. -/

namespace Sys2Proof.Machine

variable {α : Type} [DecidableEq α]

omit [DecidableEq α] in
theorem tabGet_tabPut (d : α) (k : Nat) (v : α) (t : List (Nat × α)) (j : Nat) :
    tabGet d (tabPut k v t) j = if j = k then v else tabGet d t j := by
  induction t with
  | nil => simp only [tabPut, tabGet]; split <;> split <;> simp_all
  | cons p t ih =>
    obtain ⟨i, w⟩ := p
    by_cases h1 : k < i
    · rw [tabPut, if_pos h1, tabGet]
      by_cases h : j = k
      · rw [if_pos h, if_pos h.symm]
      · rw [if_neg h, if_neg (Ne.symm h)]
    · by_cases h2 : k = i
      · rw [tabPut, if_neg h1, if_pos h2, tabGet, tabGet, ← h2]
        by_cases h : j = k
        · rw [if_pos h, if_pos h.symm]
        · rw [if_neg h, if_neg (Ne.symm h), if_neg (Ne.symm h)]
      · rw [tabPut, if_neg h1, if_neg h2, tabGet, tabGet, ih]
        by_cases h : i = j
        · rw [if_pos h, if_pos h, if_neg (fun e => h2 (by omega))]
        · rw [if_neg h, if_neg h]

omit [DecidableEq α] in
theorem tabGet_tabDel (d : α) (k : Nat) (t : List (Nat × α)) (j : Nat) :
    tabGet d (tabDel k t) j = if j = k then d else tabGet d t j := by
  induction t with
  | nil => simp [tabDel, tabGet]
  | cons p t ih =>
    obtain ⟨i, w⟩ := p
    by_cases h1 : i = k
    · rw [tabDel, if_pos h1, ih, tabGet]
      by_cases h : j = k
      · rw [if_pos h, if_pos h]
      · rw [if_neg h, if_neg h, if_neg (fun e => h (by omega))]
    · rw [tabDel, if_neg h1, tabGet, tabGet, ih]
      by_cases h : i = j
      · rw [if_pos h, if_pos h, if_neg (fun e => h1 (by omega))]
      · rw [if_neg h, if_neg h]

/-- A read after a write gives the value written, and every other entry as before. -/
theorem tabGet_tabSet (d : α) (t : List (Nat × α)) (k : Nat) (v : α) (j : Nat) :
    tabGet d (tabSet d t k v) j = if j = k then v else tabGet d t j := by
  unfold tabSet; split
  · next h => rw [tabGet_tabDel, h]
  · exact tabGet_tabPut ..

@[simp] theorem tabGet_tabSet_self (d : α) (t : List (Nat × α)) (k : Nat) (v : α) :
    tabGet d (tabSet d t k v) k = v := by rw [tabGet_tabSet, if_pos rfl]

theorem tabGet_tabSet_ne (d : α) (t : List (Nat × α)) (v : α) {k j : Nat} (h : j ≠ k) :
    tabGet d (tabSet d t k v) j = tabGet d t j := by rw [tabGet_tabSet, if_neg h]

theorem tabGet_tabMod (d : α) (t : List (Nat × α)) (k : Nat) (f : α → α) (j : Nat) :
    tabGet d (tabMod d t k f) j = if j = k then f (tabGet d t k) else tabGet d t j := tabGet_tabSet ..

@[simp] theorem tabGet_tabMod_self (d : α) (t : List (Nat × α)) (k : Nat) (f : α → α) :
    tabGet d (tabMod d t k f) k = f (tabGet d t k) := tabGet_tabSet_self ..

theorem tabGet_tabMod_ne (d : α) (t : List (Nat × α)) (f : α → α) {k j : Nat} (h : j ≠ k) :
    tabGet d (tabMod d t k f) j = tabGet d t j := tabGet_tabSet_ne _ _ _ h

/-! ## The canonical form -/

/-- The first number of a list is above k. -/
def tabAbove (k : Nat) : List (Nat × α) → Bool
  | [] => true
  | (i, _) :: _ => decide (k < i)

theorem tabWf_cons {d v : α} {i : Nat} {t : List (Nat × α)} :
    tabWf d ((i, v) :: t) = true ↔ v ≠ d ∧ tabAbove i t = true ∧ tabWf d t = true := by
  cases t with
  | nil => simp [tabWf, tabAbove]
  | cons p t =>
    obtain ⟨j, w⟩ := p
    rw [tabWf, Bool.and_eq_true, Bool.and_eq_true, decide_eq_true_iff, decide_eq_true_iff, tabAbove,
      decide_eq_true_iff, and_assoc]

theorem tabPut_wf {d v : α} (h : v ≠ d) (k : Nat) (t : List (Nat × α)) (ht : tabWf d t = true) :
    tabWf d (tabPut k v t) = true ∧ ∀ m, m < k → tabAbove m t = true → tabAbove m (tabPut k v t) = true := by
  induction t with
  | nil => simp [tabPut, tabWf, tabAbove, h]
  | cons p t ih =>
    obtain ⟨i, w⟩ := p
    obtain ⟨h1, h2, h3⟩ := tabWf_cons.mp ht
    obtain ⟨ih1, ih2⟩ := ih h3
    unfold tabPut
    split
    · next hk =>
      refine ⟨tabWf_cons.mpr ⟨h, by simp [tabAbove, hk], ht⟩, fun m hm _ => by simp [tabAbove, hm]⟩
    · split
      · next hk => subst hk; exact ⟨tabWf_cons.mpr ⟨h, h2, h3⟩, fun m hm _ => by simp [tabAbove, hm]⟩
      · refine ⟨tabWf_cons.mpr ⟨h1, ih2 i (by omega) h2, ih1⟩, fun m _ hm => hm⟩

theorem tabDel_wf {d : α} (k : Nat) (t : List (Nat × α)) (ht : tabWf d t = true) :
    tabWf d (tabDel k t) = true ∧ ∀ m, tabAbove m t = true → tabAbove m (tabDel k t) = true := by
  induction t with
  | nil => simp [tabDel, tabWf, tabAbove]
  | cons p t ih =>
    obtain ⟨i, w⟩ := p
    obtain ⟨h1, h2, h3⟩ := tabWf_cons.mp ht
    obtain ⟨ih1, ih2⟩ := ih h3
    unfold tabDel
    split
    · refine ⟨ih1, fun m hm => ih2 m ?_⟩
      cases t with
      | nil => rfl
      | cons q t => simp only [tabAbove, decide_eq_true_iff] at hm h2 ⊢; omega
    · exact ⟨tabWf_cons.mpr ⟨h1, ih2 i h2, ih1⟩, fun m hm => hm⟩

/-- A write keeps the canonical form. -/
theorem tabSet_wf {d : α} (t : List (Nat × α)) (k : Nat) (v : α) (ht : tabWf d t = true) :
    tabWf d (tabSet d t k v) = true := by
  unfold tabSet; split
  · exact (tabDel_wf k t ht).1
  · next h => exact (tabPut_wf h k t ht).1

theorem tabMod_wf {d : α} (t : List (Nat × α)) (k : Nat) (f : α → α) (ht : tabWf d t = true) :
    tabWf d (tabMod d t k f) = true := tabSet_wf _ _ _ ht

/-- Writing bytes keeps the canonical form. -/
theorem writeBytes_wf (l : List Byte) (m : List (Nat × Byte)) (a : Nat) (h : tabWf 0 m = true) :
    tabWf 0 (writeBytes m a l) = true := by
  induction l generalizing m a with
  | nil => exact h
  | cons b l ih => exact ih _ _ (tabSet_wf _ _ _ h)

/-! ## Bytes -/

/-- A byte written is read back; every byte outside the range written is as before. -/
theorem tabGet_writeBytes (l : List Byte) (m : List (Nat × Byte)) (a x : Nat) :
    tabGet 0 (writeBytes m a l) x = if a ≤ x ∧ x < a + l.length then l.getD (x - a) 0 else tabGet 0 m x := by
  induction l generalizing m a with
  | nil => simp only [writeBytes, List.length_nil]; rw [if_neg (by omega)]
  | cons b l ih =>
    rw [writeBytes, ih, tabGet_tabSet, List.length_cons]
    by_cases h1 : x = a
    · subst h1
      rw [if_neg (by omega), if_pos rfl, if_pos (by omega), Nat.sub_self]; rfl
    · by_cases h2 : a + 1 ≤ x ∧ x < a + 1 + l.length
      · rw [if_pos h2, if_pos (by omega)]
        obtain ⟨n, hn⟩ : ∃ n, x - a = n + 1 := ⟨x - a - 1, by omega⟩
        rw [hn, List.getD_cons_succ, show x - (a + 1) = n by omega]
      · rw [if_neg h2, if_neg h1, if_neg (by omega)]

theorem readBytes_writeBytes (l : List Byte) (m : List (Nat × Byte)) (a : Nat) :
    readBytes (writeBytes m a l) a l.length = l := by
  induction l generalizing m a with
  | nil => rfl
  | cons b l ih =>
    have hb : tabGet 0 (writeBytes m a (b :: l)) a = b := by
      rw [tabGet_writeBytes, if_pos (by simp), Nat.sub_self]; rfl
    show tabGet 0 (writeBytes m a (b :: l)) a :: readBytes (writeBytes m a (b :: l)) (a + 1) l.length = b :: l
    rw [hb]; exact congrArg _ (ih _ _)

theorem readBytes_congr {m m' : List (Nat × Byte)} {n : Nat} {a : Nat}
    (h : ∀ x, a ≤ x → x < a + n → tabGet 0 m x = tabGet 0 m' x) : readBytes m a n = readBytes m' a n := by
  induction n generalizing a with
  | zero => rfl
  | succ n ih =>
    show tabGet 0 m a :: readBytes m (a + 1) n = tabGet 0 m' a :: readBytes m' (a + 1) n
    rw [h a (by omega) (by omega), ih fun x h1 h2 => h x (by omega) (by omega)]

/-- A read outside the range written gives what it gave before. -/
theorem readBytes_writeBytes_out {m : List (Nat × Byte)} {a c n : Nat} {l : List Byte}
    (h : c + n ≤ a ∨ a + l.length ≤ c) : readBytes (writeBytes m a l) c n = readBytes m c n :=
  readBytes_congr fun x h1 h2 => by rw [tabGet_writeBytes, if_neg (by omega)]

@[simp] theorem leBytes_length (n k : Nat) : (leBytes n k).length = k := by
  induction k generalizing n with
  | zero => rfl
  | succ k ih => rw [leBytes, List.length_cons, ih]

/-- Little-endian bytes spell the number they were made from, within their width. -/
theorem ofLe_leBytes (n k : Nat) : ofLe (leBytes n k) = n % 256 ^ k := by
  induction k generalizing n with
  | zero => simp [leBytes, ofLe, Nat.mod_one]
  | succ k ih =>
    rw [leBytes, ofLe, ih, BitVec.toNat_ofNat, Nat.pow_succ 256 k, Nat.mul_comm (256 ^ k) 256, Nat.mod_mul]

end Sys2Proof.Machine
end

