-- ==== Sys2Proof/Laws/State.lean ====
section
/-! SUPPORT. One lemma per field per update of a unit, and a read after a write of every numbered object. -/

namespace Sys2Proof.Machine

section modDev
variable (s : State) (g : Dev → Dev)
@[simp] theorem modDev_pending : (modDev s g).pending = s.pending := rfl
@[simp] theorem modDev_dev : (modDev s g).dev = g s.dev := rfl
@[simp] theorem modDev_pcie : (modDev s g).pcie = s.pcie := rfl
@[simp] theorem modDev_msix : (modDev s g).msix = s.msix := rfl
@[simp] theorem modDev_nx : (modDev s g).nx = s.nx := rfl
@[simp] theorem modDev_modu : (modDev s g).modu = s.modu := rfl
@[simp] theorem modDev_neg : (modDev s g).neg = s.neg := rfl
@[simp] theorem modDev_hostMem : (modDev s g).hostMem = s.hostMem := rfl
@[simp] theorem modDev_floes : (modDev s g).floes = s.floes := rfl
@[simp] theorem modDev_fmem : (modDev s g).fmem = s.fmem := rfl
@[simp] theorem modDev_mods : (modDev s g).mods = s.mods := rfl
@[simp] theorem modDev_flumes : (modDev s g).flumes = s.flumes := rfl
@[simp] theorem modDev_fab : (modDev s g).fab = s.fab := rfl
@[simp] theorem modDev_lkp : (modDev s g).lkp = s.lkp := rfl
@[simp] theorem modDev_media : (modDev s g).media = s.media := rfl
@[simp] theorem modDev_jct : (modDev s g).jct = s.jct := rfl
@[simp] theorem modDev_slu : (modDev s g).slu = s.slu := rfl
@[simp] theorem modDev_net : (modDev s g).net = s.net := rfl
@[simp] theorem modDev_tdm : (modDev s g).tdm = s.tdm := rfl
@[simp] theorem modDev_mirror : (modDev s g).mirror = s.mirror := rfl
@[simp] theorem modDev_mirrorOut : (modDev s g).mirrorOut = s.mirrorOut := rfl
@[simp] theorem modDev_tb : (modDev s g).tb = s.tb := rfl
@[simp] theorem modDev_rime : (modDev s g).rime = s.rime := rfl
@[simp] theorem modDev_firn : (modDev s g).firn = s.firn := rfl
@[simp] theorem modDev_ice : (modDev s g).ice = s.ice := rfl
@[simp] theorem modDev_tap : (modDev s g).tap = s.tap := rfl
@[simp] theorem modDev_nivo : (modDev s g).nivo = s.nivo := rfl
@[simp] theorem modDev_nivoFw : (modDev s g).nivoFw = s.nivoFw := rfl
@[simp] theorem modDev_free : (modDev s g).free = s.free := rfl
end modDev

section modPcie
variable (s : State) (g : Pcie → Pcie)
@[simp] theorem modPcie_pending : (modPcie s g).pending = s.pending := rfl
@[simp] theorem modPcie_dev : (modPcie s g).dev = s.dev := rfl
@[simp] theorem modPcie_pcie : (modPcie s g).pcie = g s.pcie := rfl
@[simp] theorem modPcie_msix : (modPcie s g).msix = s.msix := rfl
@[simp] theorem modPcie_nx : (modPcie s g).nx = s.nx := rfl
@[simp] theorem modPcie_modu : (modPcie s g).modu = s.modu := rfl
@[simp] theorem modPcie_neg : (modPcie s g).neg = s.neg := rfl
@[simp] theorem modPcie_hostMem : (modPcie s g).hostMem = s.hostMem := rfl
@[simp] theorem modPcie_floes : (modPcie s g).floes = s.floes := rfl
@[simp] theorem modPcie_fmem : (modPcie s g).fmem = s.fmem := rfl
@[simp] theorem modPcie_mods : (modPcie s g).mods = s.mods := rfl
@[simp] theorem modPcie_flumes : (modPcie s g).flumes = s.flumes := rfl
@[simp] theorem modPcie_fab : (modPcie s g).fab = s.fab := rfl
@[simp] theorem modPcie_lkp : (modPcie s g).lkp = s.lkp := rfl
@[simp] theorem modPcie_media : (modPcie s g).media = s.media := rfl
@[simp] theorem modPcie_jct : (modPcie s g).jct = s.jct := rfl
@[simp] theorem modPcie_slu : (modPcie s g).slu = s.slu := rfl
@[simp] theorem modPcie_net : (modPcie s g).net = s.net := rfl
@[simp] theorem modPcie_tdm : (modPcie s g).tdm = s.tdm := rfl
@[simp] theorem modPcie_mirror : (modPcie s g).mirror = s.mirror := rfl
@[simp] theorem modPcie_mirrorOut : (modPcie s g).mirrorOut = s.mirrorOut := rfl
@[simp] theorem modPcie_tb : (modPcie s g).tb = s.tb := rfl
@[simp] theorem modPcie_rime : (modPcie s g).rime = s.rime := rfl
@[simp] theorem modPcie_firn : (modPcie s g).firn = s.firn := rfl
@[simp] theorem modPcie_ice : (modPcie s g).ice = s.ice := rfl
@[simp] theorem modPcie_tap : (modPcie s g).tap = s.tap := rfl
@[simp] theorem modPcie_nivo : (modPcie s g).nivo = s.nivo := rfl
@[simp] theorem modPcie_nivoFw : (modPcie s g).nivoFw = s.nivoFw := rfl
@[simp] theorem modPcie_free : (modPcie s g).free = s.free := rfl
end modPcie

section modMsix
variable (s : State) (g : Msix → Msix)
@[simp] theorem modMsix_pending : (modMsix s g).pending = s.pending := rfl
@[simp] theorem modMsix_dev : (modMsix s g).dev = s.dev := rfl
@[simp] theorem modMsix_pcie : (modMsix s g).pcie = s.pcie := rfl
@[simp] theorem modMsix_msix : (modMsix s g).msix = g s.msix := rfl
@[simp] theorem modMsix_nx : (modMsix s g).nx = s.nx := rfl
@[simp] theorem modMsix_modu : (modMsix s g).modu = s.modu := rfl
@[simp] theorem modMsix_neg : (modMsix s g).neg = s.neg := rfl
@[simp] theorem modMsix_hostMem : (modMsix s g).hostMem = s.hostMem := rfl
@[simp] theorem modMsix_floes : (modMsix s g).floes = s.floes := rfl
@[simp] theorem modMsix_fmem : (modMsix s g).fmem = s.fmem := rfl
@[simp] theorem modMsix_mods : (modMsix s g).mods = s.mods := rfl
@[simp] theorem modMsix_flumes : (modMsix s g).flumes = s.flumes := rfl
@[simp] theorem modMsix_fab : (modMsix s g).fab = s.fab := rfl
@[simp] theorem modMsix_lkp : (modMsix s g).lkp = s.lkp := rfl
@[simp] theorem modMsix_media : (modMsix s g).media = s.media := rfl
@[simp] theorem modMsix_jct : (modMsix s g).jct = s.jct := rfl
@[simp] theorem modMsix_slu : (modMsix s g).slu = s.slu := rfl
@[simp] theorem modMsix_net : (modMsix s g).net = s.net := rfl
@[simp] theorem modMsix_tdm : (modMsix s g).tdm = s.tdm := rfl
@[simp] theorem modMsix_mirror : (modMsix s g).mirror = s.mirror := rfl
@[simp] theorem modMsix_mirrorOut : (modMsix s g).mirrorOut = s.mirrorOut := rfl
@[simp] theorem modMsix_tb : (modMsix s g).tb = s.tb := rfl
@[simp] theorem modMsix_rime : (modMsix s g).rime = s.rime := rfl
@[simp] theorem modMsix_firn : (modMsix s g).firn = s.firn := rfl
@[simp] theorem modMsix_ice : (modMsix s g).ice = s.ice := rfl
@[simp] theorem modMsix_tap : (modMsix s g).tap = s.tap := rfl
@[simp] theorem modMsix_nivo : (modMsix s g).nivo = s.nivo := rfl
@[simp] theorem modMsix_nivoFw : (modMsix s g).nivoFw = s.nivoFw := rfl
@[simp] theorem modMsix_free : (modMsix s g).free = s.free := rfl
end modMsix

section modNx
variable (s : State) (g : Norux → Norux)
@[simp] theorem modNx_pending : (modNx s g).pending = s.pending := rfl
@[simp] theorem modNx_dev : (modNx s g).dev = s.dev := rfl
@[simp] theorem modNx_pcie : (modNx s g).pcie = s.pcie := rfl
@[simp] theorem modNx_msix : (modNx s g).msix = s.msix := rfl
@[simp] theorem modNx_nx : (modNx s g).nx = g s.nx := rfl
@[simp] theorem modNx_modu : (modNx s g).modu = s.modu := rfl
@[simp] theorem modNx_neg : (modNx s g).neg = s.neg := rfl
@[simp] theorem modNx_hostMem : (modNx s g).hostMem = s.hostMem := rfl
@[simp] theorem modNx_floes : (modNx s g).floes = s.floes := rfl
@[simp] theorem modNx_fmem : (modNx s g).fmem = s.fmem := rfl
@[simp] theorem modNx_mods : (modNx s g).mods = s.mods := rfl
@[simp] theorem modNx_flumes : (modNx s g).flumes = s.flumes := rfl
@[simp] theorem modNx_fab : (modNx s g).fab = s.fab := rfl
@[simp] theorem modNx_lkp : (modNx s g).lkp = s.lkp := rfl
@[simp] theorem modNx_media : (modNx s g).media = s.media := rfl
@[simp] theorem modNx_jct : (modNx s g).jct = s.jct := rfl
@[simp] theorem modNx_slu : (modNx s g).slu = s.slu := rfl
@[simp] theorem modNx_net : (modNx s g).net = s.net := rfl
@[simp] theorem modNx_tdm : (modNx s g).tdm = s.tdm := rfl
@[simp] theorem modNx_mirror : (modNx s g).mirror = s.mirror := rfl
@[simp] theorem modNx_mirrorOut : (modNx s g).mirrorOut = s.mirrorOut := rfl
@[simp] theorem modNx_tb : (modNx s g).tb = s.tb := rfl
@[simp] theorem modNx_rime : (modNx s g).rime = s.rime := rfl
@[simp] theorem modNx_firn : (modNx s g).firn = s.firn := rfl
@[simp] theorem modNx_ice : (modNx s g).ice = s.ice := rfl
@[simp] theorem modNx_tap : (modNx s g).tap = s.tap := rfl
@[simp] theorem modNx_nivo : (modNx s g).nivo = s.nivo := rfl
@[simp] theorem modNx_nivoFw : (modNx s g).nivoFw = s.nivoFw := rfl
@[simp] theorem modNx_free : (modNx s g).free = s.free := rfl
end modNx

section modFab
variable (s : State) (g : Fabric → Fabric)
@[simp] theorem modFab_pending : (modFab s g).pending = s.pending := rfl
@[simp] theorem modFab_dev : (modFab s g).dev = s.dev := rfl
@[simp] theorem modFab_pcie : (modFab s g).pcie = s.pcie := rfl
@[simp] theorem modFab_msix : (modFab s g).msix = s.msix := rfl
@[simp] theorem modFab_nx : (modFab s g).nx = s.nx := rfl
@[simp] theorem modFab_modu : (modFab s g).modu = s.modu := rfl
@[simp] theorem modFab_neg : (modFab s g).neg = s.neg := rfl
@[simp] theorem modFab_hostMem : (modFab s g).hostMem = s.hostMem := rfl
@[simp] theorem modFab_floes : (modFab s g).floes = s.floes := rfl
@[simp] theorem modFab_fmem : (modFab s g).fmem = s.fmem := rfl
@[simp] theorem modFab_mods : (modFab s g).mods = s.mods := rfl
@[simp] theorem modFab_flumes : (modFab s g).flumes = s.flumes := rfl
@[simp] theorem modFab_fab : (modFab s g).fab = g s.fab := rfl
@[simp] theorem modFab_lkp : (modFab s g).lkp = s.lkp := rfl
@[simp] theorem modFab_media : (modFab s g).media = s.media := rfl
@[simp] theorem modFab_jct : (modFab s g).jct = s.jct := rfl
@[simp] theorem modFab_slu : (modFab s g).slu = s.slu := rfl
@[simp] theorem modFab_net : (modFab s g).net = s.net := rfl
@[simp] theorem modFab_tdm : (modFab s g).tdm = s.tdm := rfl
@[simp] theorem modFab_mirror : (modFab s g).mirror = s.mirror := rfl
@[simp] theorem modFab_mirrorOut : (modFab s g).mirrorOut = s.mirrorOut := rfl
@[simp] theorem modFab_tb : (modFab s g).tb = s.tb := rfl
@[simp] theorem modFab_rime : (modFab s g).rime = s.rime := rfl
@[simp] theorem modFab_firn : (modFab s g).firn = s.firn := rfl
@[simp] theorem modFab_ice : (modFab s g).ice = s.ice := rfl
@[simp] theorem modFab_tap : (modFab s g).tap = s.tap := rfl
@[simp] theorem modFab_nivo : (modFab s g).nivo = s.nivo := rfl
@[simp] theorem modFab_nivoFw : (modFab s g).nivoFw = s.nivoFw := rfl
@[simp] theorem modFab_free : (modFab s g).free = s.free := rfl
end modFab

section modLkp
variable (s : State) (g : Lkp → Lkp)
@[simp] theorem modLkp_pending : (modLkp s g).pending = s.pending := rfl
@[simp] theorem modLkp_dev : (modLkp s g).dev = s.dev := rfl
@[simp] theorem modLkp_pcie : (modLkp s g).pcie = s.pcie := rfl
@[simp] theorem modLkp_msix : (modLkp s g).msix = s.msix := rfl
@[simp] theorem modLkp_nx : (modLkp s g).nx = s.nx := rfl
@[simp] theorem modLkp_modu : (modLkp s g).modu = s.modu := rfl
@[simp] theorem modLkp_neg : (modLkp s g).neg = s.neg := rfl
@[simp] theorem modLkp_hostMem : (modLkp s g).hostMem = s.hostMem := rfl
@[simp] theorem modLkp_floes : (modLkp s g).floes = s.floes := rfl
@[simp] theorem modLkp_fmem : (modLkp s g).fmem = s.fmem := rfl
@[simp] theorem modLkp_mods : (modLkp s g).mods = s.mods := rfl
@[simp] theorem modLkp_flumes : (modLkp s g).flumes = s.flumes := rfl
@[simp] theorem modLkp_fab : (modLkp s g).fab = s.fab := rfl
@[simp] theorem modLkp_lkp : (modLkp s g).lkp = g s.lkp := rfl
@[simp] theorem modLkp_media : (modLkp s g).media = s.media := rfl
@[simp] theorem modLkp_jct : (modLkp s g).jct = s.jct := rfl
@[simp] theorem modLkp_slu : (modLkp s g).slu = s.slu := rfl
@[simp] theorem modLkp_net : (modLkp s g).net = s.net := rfl
@[simp] theorem modLkp_tdm : (modLkp s g).tdm = s.tdm := rfl
@[simp] theorem modLkp_mirror : (modLkp s g).mirror = s.mirror := rfl
@[simp] theorem modLkp_mirrorOut : (modLkp s g).mirrorOut = s.mirrorOut := rfl
@[simp] theorem modLkp_tb : (modLkp s g).tb = s.tb := rfl
@[simp] theorem modLkp_rime : (modLkp s g).rime = s.rime := rfl
@[simp] theorem modLkp_firn : (modLkp s g).firn = s.firn := rfl
@[simp] theorem modLkp_ice : (modLkp s g).ice = s.ice := rfl
@[simp] theorem modLkp_tap : (modLkp s g).tap = s.tap := rfl
@[simp] theorem modLkp_nivo : (modLkp s g).nivo = s.nivo := rfl
@[simp] theorem modLkp_nivoFw : (modLkp s g).nivoFw = s.nivoFw := rfl
@[simp] theorem modLkp_free : (modLkp s g).free = s.free := rfl
end modLkp

section modMedia
variable (s : State) (g : Media → Media)
@[simp] theorem modMedia_pending : (modMedia s g).pending = s.pending := rfl
@[simp] theorem modMedia_dev : (modMedia s g).dev = s.dev := rfl
@[simp] theorem modMedia_pcie : (modMedia s g).pcie = s.pcie := rfl
@[simp] theorem modMedia_msix : (modMedia s g).msix = s.msix := rfl
@[simp] theorem modMedia_nx : (modMedia s g).nx = s.nx := rfl
@[simp] theorem modMedia_modu : (modMedia s g).modu = s.modu := rfl
@[simp] theorem modMedia_neg : (modMedia s g).neg = s.neg := rfl
@[simp] theorem modMedia_hostMem : (modMedia s g).hostMem = s.hostMem := rfl
@[simp] theorem modMedia_floes : (modMedia s g).floes = s.floes := rfl
@[simp] theorem modMedia_fmem : (modMedia s g).fmem = s.fmem := rfl
@[simp] theorem modMedia_mods : (modMedia s g).mods = s.mods := rfl
@[simp] theorem modMedia_flumes : (modMedia s g).flumes = s.flumes := rfl
@[simp] theorem modMedia_fab : (modMedia s g).fab = s.fab := rfl
@[simp] theorem modMedia_lkp : (modMedia s g).lkp = s.lkp := rfl
@[simp] theorem modMedia_media : (modMedia s g).media = g s.media := rfl
@[simp] theorem modMedia_jct : (modMedia s g).jct = s.jct := rfl
@[simp] theorem modMedia_slu : (modMedia s g).slu = s.slu := rfl
@[simp] theorem modMedia_net : (modMedia s g).net = s.net := rfl
@[simp] theorem modMedia_tdm : (modMedia s g).tdm = s.tdm := rfl
@[simp] theorem modMedia_mirror : (modMedia s g).mirror = s.mirror := rfl
@[simp] theorem modMedia_mirrorOut : (modMedia s g).mirrorOut = s.mirrorOut := rfl
@[simp] theorem modMedia_tb : (modMedia s g).tb = s.tb := rfl
@[simp] theorem modMedia_rime : (modMedia s g).rime = s.rime := rfl
@[simp] theorem modMedia_firn : (modMedia s g).firn = s.firn := rfl
@[simp] theorem modMedia_ice : (modMedia s g).ice = s.ice := rfl
@[simp] theorem modMedia_tap : (modMedia s g).tap = s.tap := rfl
@[simp] theorem modMedia_nivo : (modMedia s g).nivo = s.nivo := rfl
@[simp] theorem modMedia_nivoFw : (modMedia s g).nivoFw = s.nivoFw := rfl
@[simp] theorem modMedia_free : (modMedia s g).free = s.free := rfl
end modMedia

section modJct
variable (s : State) (g : Junction → Junction)
@[simp] theorem modJct_pending : (modJct s g).pending = s.pending := rfl
@[simp] theorem modJct_dev : (modJct s g).dev = s.dev := rfl
@[simp] theorem modJct_pcie : (modJct s g).pcie = s.pcie := rfl
@[simp] theorem modJct_msix : (modJct s g).msix = s.msix := rfl
@[simp] theorem modJct_nx : (modJct s g).nx = s.nx := rfl
@[simp] theorem modJct_modu : (modJct s g).modu = s.modu := rfl
@[simp] theorem modJct_neg : (modJct s g).neg = s.neg := rfl
@[simp] theorem modJct_hostMem : (modJct s g).hostMem = s.hostMem := rfl
@[simp] theorem modJct_floes : (modJct s g).floes = s.floes := rfl
@[simp] theorem modJct_fmem : (modJct s g).fmem = s.fmem := rfl
@[simp] theorem modJct_mods : (modJct s g).mods = s.mods := rfl
@[simp] theorem modJct_flumes : (modJct s g).flumes = s.flumes := rfl
@[simp] theorem modJct_fab : (modJct s g).fab = s.fab := rfl
@[simp] theorem modJct_lkp : (modJct s g).lkp = s.lkp := rfl
@[simp] theorem modJct_media : (modJct s g).media = s.media := rfl
@[simp] theorem modJct_jct : (modJct s g).jct = g s.jct := rfl
@[simp] theorem modJct_slu : (modJct s g).slu = s.slu := rfl
@[simp] theorem modJct_net : (modJct s g).net = s.net := rfl
@[simp] theorem modJct_tdm : (modJct s g).tdm = s.tdm := rfl
@[simp] theorem modJct_mirror : (modJct s g).mirror = s.mirror := rfl
@[simp] theorem modJct_mirrorOut : (modJct s g).mirrorOut = s.mirrorOut := rfl
@[simp] theorem modJct_tb : (modJct s g).tb = s.tb := rfl
@[simp] theorem modJct_rime : (modJct s g).rime = s.rime := rfl
@[simp] theorem modJct_firn : (modJct s g).firn = s.firn := rfl
@[simp] theorem modJct_ice : (modJct s g).ice = s.ice := rfl
@[simp] theorem modJct_tap : (modJct s g).tap = s.tap := rfl
@[simp] theorem modJct_nivo : (modJct s g).nivo = s.nivo := rfl
@[simp] theorem modJct_nivoFw : (modJct s g).nivoFw = s.nivoFw := rfl
@[simp] theorem modJct_free : (modJct s g).free = s.free := rfl
end modJct

section modSlu
variable (s : State) (g : Sluice → Sluice)
@[simp] theorem modSlu_pending : (modSlu s g).pending = s.pending := rfl
@[simp] theorem modSlu_dev : (modSlu s g).dev = s.dev := rfl
@[simp] theorem modSlu_pcie : (modSlu s g).pcie = s.pcie := rfl
@[simp] theorem modSlu_msix : (modSlu s g).msix = s.msix := rfl
@[simp] theorem modSlu_nx : (modSlu s g).nx = s.nx := rfl
@[simp] theorem modSlu_modu : (modSlu s g).modu = s.modu := rfl
@[simp] theorem modSlu_neg : (modSlu s g).neg = s.neg := rfl
@[simp] theorem modSlu_hostMem : (modSlu s g).hostMem = s.hostMem := rfl
@[simp] theorem modSlu_floes : (modSlu s g).floes = s.floes := rfl
@[simp] theorem modSlu_fmem : (modSlu s g).fmem = s.fmem := rfl
@[simp] theorem modSlu_mods : (modSlu s g).mods = s.mods := rfl
@[simp] theorem modSlu_flumes : (modSlu s g).flumes = s.flumes := rfl
@[simp] theorem modSlu_fab : (modSlu s g).fab = s.fab := rfl
@[simp] theorem modSlu_lkp : (modSlu s g).lkp = s.lkp := rfl
@[simp] theorem modSlu_media : (modSlu s g).media = s.media := rfl
@[simp] theorem modSlu_jct : (modSlu s g).jct = s.jct := rfl
@[simp] theorem modSlu_slu : (modSlu s g).slu = g s.slu := rfl
@[simp] theorem modSlu_net : (modSlu s g).net = s.net := rfl
@[simp] theorem modSlu_tdm : (modSlu s g).tdm = s.tdm := rfl
@[simp] theorem modSlu_mirror : (modSlu s g).mirror = s.mirror := rfl
@[simp] theorem modSlu_mirrorOut : (modSlu s g).mirrorOut = s.mirrorOut := rfl
@[simp] theorem modSlu_tb : (modSlu s g).tb = s.tb := rfl
@[simp] theorem modSlu_rime : (modSlu s g).rime = s.rime := rfl
@[simp] theorem modSlu_firn : (modSlu s g).firn = s.firn := rfl
@[simp] theorem modSlu_ice : (modSlu s g).ice = s.ice := rfl
@[simp] theorem modSlu_tap : (modSlu s g).tap = s.tap := rfl
@[simp] theorem modSlu_nivo : (modSlu s g).nivo = s.nivo := rfl
@[simp] theorem modSlu_nivoFw : (modSlu s g).nivoFw = s.nivoFw := rfl
@[simp] theorem modSlu_free : (modSlu s g).free = s.free := rfl
end modSlu

section modNet
variable (s : State) (g : Net → Net)
@[simp] theorem modNet_pending : (modNet s g).pending = s.pending := rfl
@[simp] theorem modNet_dev : (modNet s g).dev = s.dev := rfl
@[simp] theorem modNet_pcie : (modNet s g).pcie = s.pcie := rfl
@[simp] theorem modNet_msix : (modNet s g).msix = s.msix := rfl
@[simp] theorem modNet_nx : (modNet s g).nx = s.nx := rfl
@[simp] theorem modNet_modu : (modNet s g).modu = s.modu := rfl
@[simp] theorem modNet_neg : (modNet s g).neg = s.neg := rfl
@[simp] theorem modNet_hostMem : (modNet s g).hostMem = s.hostMem := rfl
@[simp] theorem modNet_floes : (modNet s g).floes = s.floes := rfl
@[simp] theorem modNet_fmem : (modNet s g).fmem = s.fmem := rfl
@[simp] theorem modNet_mods : (modNet s g).mods = s.mods := rfl
@[simp] theorem modNet_flumes : (modNet s g).flumes = s.flumes := rfl
@[simp] theorem modNet_fab : (modNet s g).fab = s.fab := rfl
@[simp] theorem modNet_lkp : (modNet s g).lkp = s.lkp := rfl
@[simp] theorem modNet_media : (modNet s g).media = s.media := rfl
@[simp] theorem modNet_jct : (modNet s g).jct = s.jct := rfl
@[simp] theorem modNet_slu : (modNet s g).slu = s.slu := rfl
@[simp] theorem modNet_net : (modNet s g).net = g s.net := rfl
@[simp] theorem modNet_tdm : (modNet s g).tdm = s.tdm := rfl
@[simp] theorem modNet_mirror : (modNet s g).mirror = s.mirror := rfl
@[simp] theorem modNet_mirrorOut : (modNet s g).mirrorOut = s.mirrorOut := rfl
@[simp] theorem modNet_tb : (modNet s g).tb = s.tb := rfl
@[simp] theorem modNet_rime : (modNet s g).rime = s.rime := rfl
@[simp] theorem modNet_firn : (modNet s g).firn = s.firn := rfl
@[simp] theorem modNet_ice : (modNet s g).ice = s.ice := rfl
@[simp] theorem modNet_tap : (modNet s g).tap = s.tap := rfl
@[simp] theorem modNet_nivo : (modNet s g).nivo = s.nivo := rfl
@[simp] theorem modNet_nivoFw : (modNet s g).nivoFw = s.nivoFw := rfl
@[simp] theorem modNet_free : (modNet s g).free = s.free := rfl
end modNet

section modTdm
variable (s : State) (g : Tandem → Tandem)
@[simp] theorem modTdm_pending : (modTdm s g).pending = s.pending := rfl
@[simp] theorem modTdm_dev : (modTdm s g).dev = s.dev := rfl
@[simp] theorem modTdm_pcie : (modTdm s g).pcie = s.pcie := rfl
@[simp] theorem modTdm_msix : (modTdm s g).msix = s.msix := rfl
@[simp] theorem modTdm_nx : (modTdm s g).nx = s.nx := rfl
@[simp] theorem modTdm_modu : (modTdm s g).modu = s.modu := rfl
@[simp] theorem modTdm_neg : (modTdm s g).neg = s.neg := rfl
@[simp] theorem modTdm_hostMem : (modTdm s g).hostMem = s.hostMem := rfl
@[simp] theorem modTdm_floes : (modTdm s g).floes = s.floes := rfl
@[simp] theorem modTdm_fmem : (modTdm s g).fmem = s.fmem := rfl
@[simp] theorem modTdm_mods : (modTdm s g).mods = s.mods := rfl
@[simp] theorem modTdm_flumes : (modTdm s g).flumes = s.flumes := rfl
@[simp] theorem modTdm_fab : (modTdm s g).fab = s.fab := rfl
@[simp] theorem modTdm_lkp : (modTdm s g).lkp = s.lkp := rfl
@[simp] theorem modTdm_media : (modTdm s g).media = s.media := rfl
@[simp] theorem modTdm_jct : (modTdm s g).jct = s.jct := rfl
@[simp] theorem modTdm_slu : (modTdm s g).slu = s.slu := rfl
@[simp] theorem modTdm_net : (modTdm s g).net = s.net := rfl
@[simp] theorem modTdm_tdm : (modTdm s g).tdm = g s.tdm := rfl
@[simp] theorem modTdm_mirror : (modTdm s g).mirror = s.mirror := rfl
@[simp] theorem modTdm_mirrorOut : (modTdm s g).mirrorOut = s.mirrorOut := rfl
@[simp] theorem modTdm_tb : (modTdm s g).tb = s.tb := rfl
@[simp] theorem modTdm_rime : (modTdm s g).rime = s.rime := rfl
@[simp] theorem modTdm_firn : (modTdm s g).firn = s.firn := rfl
@[simp] theorem modTdm_ice : (modTdm s g).ice = s.ice := rfl
@[simp] theorem modTdm_tap : (modTdm s g).tap = s.tap := rfl
@[simp] theorem modTdm_nivo : (modTdm s g).nivo = s.nivo := rfl
@[simp] theorem modTdm_nivoFw : (modTdm s g).nivoFw = s.nivoFw := rfl
@[simp] theorem modTdm_free : (modTdm s g).free = s.free := rfl
end modTdm

section modTb
variable (s : State) (g : Timebase → Timebase)
@[simp] theorem modTb_pending : (modTb s g).pending = s.pending := rfl
@[simp] theorem modTb_dev : (modTb s g).dev = s.dev := rfl
@[simp] theorem modTb_pcie : (modTb s g).pcie = s.pcie := rfl
@[simp] theorem modTb_msix : (modTb s g).msix = s.msix := rfl
@[simp] theorem modTb_nx : (modTb s g).nx = s.nx := rfl
@[simp] theorem modTb_modu : (modTb s g).modu = s.modu := rfl
@[simp] theorem modTb_neg : (modTb s g).neg = s.neg := rfl
@[simp] theorem modTb_hostMem : (modTb s g).hostMem = s.hostMem := rfl
@[simp] theorem modTb_floes : (modTb s g).floes = s.floes := rfl
@[simp] theorem modTb_fmem : (modTb s g).fmem = s.fmem := rfl
@[simp] theorem modTb_mods : (modTb s g).mods = s.mods := rfl
@[simp] theorem modTb_flumes : (modTb s g).flumes = s.flumes := rfl
@[simp] theorem modTb_fab : (modTb s g).fab = s.fab := rfl
@[simp] theorem modTb_lkp : (modTb s g).lkp = s.lkp := rfl
@[simp] theorem modTb_media : (modTb s g).media = s.media := rfl
@[simp] theorem modTb_jct : (modTb s g).jct = s.jct := rfl
@[simp] theorem modTb_slu : (modTb s g).slu = s.slu := rfl
@[simp] theorem modTb_net : (modTb s g).net = s.net := rfl
@[simp] theorem modTb_tdm : (modTb s g).tdm = s.tdm := rfl
@[simp] theorem modTb_mirror : (modTb s g).mirror = s.mirror := rfl
@[simp] theorem modTb_mirrorOut : (modTb s g).mirrorOut = s.mirrorOut := rfl
@[simp] theorem modTb_tb : (modTb s g).tb = g s.tb := rfl
@[simp] theorem modTb_rime : (modTb s g).rime = s.rime := rfl
@[simp] theorem modTb_firn : (modTb s g).firn = s.firn := rfl
@[simp] theorem modTb_ice : (modTb s g).ice = s.ice := rfl
@[simp] theorem modTb_tap : (modTb s g).tap = s.tap := rfl
@[simp] theorem modTb_nivo : (modTb s g).nivo = s.nivo := rfl
@[simp] theorem modTb_nivoFw : (modTb s g).nivoFw = s.nivoFw := rfl
@[simp] theorem modTb_free : (modTb s g).free = s.free := rfl
end modTb

section modRime
variable (s : State) (g : Rime → Rime)
@[simp] theorem modRime_pending : (modRime s g).pending = s.pending := rfl
@[simp] theorem modRime_dev : (modRime s g).dev = s.dev := rfl
@[simp] theorem modRime_pcie : (modRime s g).pcie = s.pcie := rfl
@[simp] theorem modRime_msix : (modRime s g).msix = s.msix := rfl
@[simp] theorem modRime_nx : (modRime s g).nx = s.nx := rfl
@[simp] theorem modRime_modu : (modRime s g).modu = s.modu := rfl
@[simp] theorem modRime_neg : (modRime s g).neg = s.neg := rfl
@[simp] theorem modRime_hostMem : (modRime s g).hostMem = s.hostMem := rfl
@[simp] theorem modRime_floes : (modRime s g).floes = s.floes := rfl
@[simp] theorem modRime_fmem : (modRime s g).fmem = s.fmem := rfl
@[simp] theorem modRime_mods : (modRime s g).mods = s.mods := rfl
@[simp] theorem modRime_flumes : (modRime s g).flumes = s.flumes := rfl
@[simp] theorem modRime_fab : (modRime s g).fab = s.fab := rfl
@[simp] theorem modRime_lkp : (modRime s g).lkp = s.lkp := rfl
@[simp] theorem modRime_media : (modRime s g).media = s.media := rfl
@[simp] theorem modRime_jct : (modRime s g).jct = s.jct := rfl
@[simp] theorem modRime_slu : (modRime s g).slu = s.slu := rfl
@[simp] theorem modRime_net : (modRime s g).net = s.net := rfl
@[simp] theorem modRime_tdm : (modRime s g).tdm = s.tdm := rfl
@[simp] theorem modRime_mirror : (modRime s g).mirror = s.mirror := rfl
@[simp] theorem modRime_mirrorOut : (modRime s g).mirrorOut = s.mirrorOut := rfl
@[simp] theorem modRime_tb : (modRime s g).tb = s.tb := rfl
@[simp] theorem modRime_rime : (modRime s g).rime = g s.rime := rfl
@[simp] theorem modRime_firn : (modRime s g).firn = s.firn := rfl
@[simp] theorem modRime_ice : (modRime s g).ice = s.ice := rfl
@[simp] theorem modRime_tap : (modRime s g).tap = s.tap := rfl
@[simp] theorem modRime_nivo : (modRime s g).nivo = s.nivo := rfl
@[simp] theorem modRime_nivoFw : (modRime s g).nivoFw = s.nivoFw := rfl
@[simp] theorem modRime_free : (modRime s g).free = s.free := rfl
end modRime

section modIce
variable (s : State) (g : Ice → Ice)
@[simp] theorem modIce_pending : (modIce s g).pending = s.pending := rfl
@[simp] theorem modIce_dev : (modIce s g).dev = s.dev := rfl
@[simp] theorem modIce_pcie : (modIce s g).pcie = s.pcie := rfl
@[simp] theorem modIce_msix : (modIce s g).msix = s.msix := rfl
@[simp] theorem modIce_nx : (modIce s g).nx = s.nx := rfl
@[simp] theorem modIce_modu : (modIce s g).modu = s.modu := rfl
@[simp] theorem modIce_neg : (modIce s g).neg = s.neg := rfl
@[simp] theorem modIce_hostMem : (modIce s g).hostMem = s.hostMem := rfl
@[simp] theorem modIce_floes : (modIce s g).floes = s.floes := rfl
@[simp] theorem modIce_fmem : (modIce s g).fmem = s.fmem := rfl
@[simp] theorem modIce_mods : (modIce s g).mods = s.mods := rfl
@[simp] theorem modIce_flumes : (modIce s g).flumes = s.flumes := rfl
@[simp] theorem modIce_fab : (modIce s g).fab = s.fab := rfl
@[simp] theorem modIce_lkp : (modIce s g).lkp = s.lkp := rfl
@[simp] theorem modIce_media : (modIce s g).media = s.media := rfl
@[simp] theorem modIce_jct : (modIce s g).jct = s.jct := rfl
@[simp] theorem modIce_slu : (modIce s g).slu = s.slu := rfl
@[simp] theorem modIce_net : (modIce s g).net = s.net := rfl
@[simp] theorem modIce_tdm : (modIce s g).tdm = s.tdm := rfl
@[simp] theorem modIce_mirror : (modIce s g).mirror = s.mirror := rfl
@[simp] theorem modIce_mirrorOut : (modIce s g).mirrorOut = s.mirrorOut := rfl
@[simp] theorem modIce_tb : (modIce s g).tb = s.tb := rfl
@[simp] theorem modIce_rime : (modIce s g).rime = s.rime := rfl
@[simp] theorem modIce_firn : (modIce s g).firn = s.firn := rfl
@[simp] theorem modIce_ice : (modIce s g).ice = g s.ice := rfl
@[simp] theorem modIce_tap : (modIce s g).tap = s.tap := rfl
@[simp] theorem modIce_nivo : (modIce s g).nivo = s.nivo := rfl
@[simp] theorem modIce_nivoFw : (modIce s g).nivoFw = s.nivoFw := rfl
@[simp] theorem modIce_free : (modIce s g).free = s.free := rfl
end modIce

section modTap
variable (s : State) (g : TapSide → TapSide)
@[simp] theorem modTap_pending : (modTap s g).pending = s.pending := rfl
@[simp] theorem modTap_dev : (modTap s g).dev = s.dev := rfl
@[simp] theorem modTap_pcie : (modTap s g).pcie = s.pcie := rfl
@[simp] theorem modTap_msix : (modTap s g).msix = s.msix := rfl
@[simp] theorem modTap_nx : (modTap s g).nx = s.nx := rfl
@[simp] theorem modTap_modu : (modTap s g).modu = s.modu := rfl
@[simp] theorem modTap_neg : (modTap s g).neg = s.neg := rfl
@[simp] theorem modTap_hostMem : (modTap s g).hostMem = s.hostMem := rfl
@[simp] theorem modTap_floes : (modTap s g).floes = s.floes := rfl
@[simp] theorem modTap_fmem : (modTap s g).fmem = s.fmem := rfl
@[simp] theorem modTap_mods : (modTap s g).mods = s.mods := rfl
@[simp] theorem modTap_flumes : (modTap s g).flumes = s.flumes := rfl
@[simp] theorem modTap_fab : (modTap s g).fab = s.fab := rfl
@[simp] theorem modTap_lkp : (modTap s g).lkp = s.lkp := rfl
@[simp] theorem modTap_media : (modTap s g).media = s.media := rfl
@[simp] theorem modTap_jct : (modTap s g).jct = s.jct := rfl
@[simp] theorem modTap_slu : (modTap s g).slu = s.slu := rfl
@[simp] theorem modTap_net : (modTap s g).net = s.net := rfl
@[simp] theorem modTap_tdm : (modTap s g).tdm = s.tdm := rfl
@[simp] theorem modTap_mirror : (modTap s g).mirror = s.mirror := rfl
@[simp] theorem modTap_mirrorOut : (modTap s g).mirrorOut = s.mirrorOut := rfl
@[simp] theorem modTap_tb : (modTap s g).tb = s.tb := rfl
@[simp] theorem modTap_rime : (modTap s g).rime = s.rime := rfl
@[simp] theorem modTap_firn : (modTap s g).firn = s.firn := rfl
@[simp] theorem modTap_ice : (modTap s g).ice = s.ice := rfl
@[simp] theorem modTap_tap : (modTap s g).tap = g s.tap := rfl
@[simp] theorem modTap_nivo : (modTap s g).nivo = s.nivo := rfl
@[simp] theorem modTap_nivoFw : (modTap s g).nivoFw = s.nivoFw := rfl
@[simp] theorem modTap_free : (modTap s g).free = s.free := rfl
end modTap

section modNivo
variable (s : State) (g : Nivo → Nivo)
@[simp] theorem modNivo_pending : (modNivo s g).pending = s.pending := rfl
@[simp] theorem modNivo_dev : (modNivo s g).dev = s.dev := rfl
@[simp] theorem modNivo_pcie : (modNivo s g).pcie = s.pcie := rfl
@[simp] theorem modNivo_msix : (modNivo s g).msix = s.msix := rfl
@[simp] theorem modNivo_nx : (modNivo s g).nx = s.nx := rfl
@[simp] theorem modNivo_modu : (modNivo s g).modu = s.modu := rfl
@[simp] theorem modNivo_neg : (modNivo s g).neg = s.neg := rfl
@[simp] theorem modNivo_hostMem : (modNivo s g).hostMem = s.hostMem := rfl
@[simp] theorem modNivo_floes : (modNivo s g).floes = s.floes := rfl
@[simp] theorem modNivo_fmem : (modNivo s g).fmem = s.fmem := rfl
@[simp] theorem modNivo_mods : (modNivo s g).mods = s.mods := rfl
@[simp] theorem modNivo_flumes : (modNivo s g).flumes = s.flumes := rfl
@[simp] theorem modNivo_fab : (modNivo s g).fab = s.fab := rfl
@[simp] theorem modNivo_lkp : (modNivo s g).lkp = s.lkp := rfl
@[simp] theorem modNivo_media : (modNivo s g).media = s.media := rfl
@[simp] theorem modNivo_jct : (modNivo s g).jct = s.jct := rfl
@[simp] theorem modNivo_slu : (modNivo s g).slu = s.slu := rfl
@[simp] theorem modNivo_net : (modNivo s g).net = s.net := rfl
@[simp] theorem modNivo_tdm : (modNivo s g).tdm = s.tdm := rfl
@[simp] theorem modNivo_mirror : (modNivo s g).mirror = s.mirror := rfl
@[simp] theorem modNivo_mirrorOut : (modNivo s g).mirrorOut = s.mirrorOut := rfl
@[simp] theorem modNivo_tb : (modNivo s g).tb = s.tb := rfl
@[simp] theorem modNivo_rime : (modNivo s g).rime = s.rime := rfl
@[simp] theorem modNivo_firn : (modNivo s g).firn = s.firn := rfl
@[simp] theorem modNivo_ice : (modNivo s g).ice = s.ice := rfl
@[simp] theorem modNivo_tap : (modNivo s g).tap = s.tap := rfl
@[simp] theorem modNivo_nivo : (modNivo s g).nivo = g s.nivo := rfl
@[simp] theorem modNivo_nivoFw : (modNivo s g).nivoFw = s.nivoFw := rfl
@[simp] theorem modNivo_free : (modNivo s g).free = s.free := rfl
end modNivo

section modNivoFw
variable (s : State) (g : NivoFw → NivoFw)
@[simp] theorem modNivoFw_pending : (modNivoFw s g).pending = s.pending := rfl
@[simp] theorem modNivoFw_dev : (modNivoFw s g).dev = s.dev := rfl
@[simp] theorem modNivoFw_pcie : (modNivoFw s g).pcie = s.pcie := rfl
@[simp] theorem modNivoFw_msix : (modNivoFw s g).msix = s.msix := rfl
@[simp] theorem modNivoFw_nx : (modNivoFw s g).nx = s.nx := rfl
@[simp] theorem modNivoFw_modu : (modNivoFw s g).modu = s.modu := rfl
@[simp] theorem modNivoFw_neg : (modNivoFw s g).neg = s.neg := rfl
@[simp] theorem modNivoFw_hostMem : (modNivoFw s g).hostMem = s.hostMem := rfl
@[simp] theorem modNivoFw_floes : (modNivoFw s g).floes = s.floes := rfl
@[simp] theorem modNivoFw_fmem : (modNivoFw s g).fmem = s.fmem := rfl
@[simp] theorem modNivoFw_mods : (modNivoFw s g).mods = s.mods := rfl
@[simp] theorem modNivoFw_flumes : (modNivoFw s g).flumes = s.flumes := rfl
@[simp] theorem modNivoFw_fab : (modNivoFw s g).fab = s.fab := rfl
@[simp] theorem modNivoFw_lkp : (modNivoFw s g).lkp = s.lkp := rfl
@[simp] theorem modNivoFw_media : (modNivoFw s g).media = s.media := rfl
@[simp] theorem modNivoFw_jct : (modNivoFw s g).jct = s.jct := rfl
@[simp] theorem modNivoFw_slu : (modNivoFw s g).slu = s.slu := rfl
@[simp] theorem modNivoFw_net : (modNivoFw s g).net = s.net := rfl
@[simp] theorem modNivoFw_tdm : (modNivoFw s g).tdm = s.tdm := rfl
@[simp] theorem modNivoFw_mirror : (modNivoFw s g).mirror = s.mirror := rfl
@[simp] theorem modNivoFw_mirrorOut : (modNivoFw s g).mirrorOut = s.mirrorOut := rfl
@[simp] theorem modNivoFw_tb : (modNivoFw s g).tb = s.tb := rfl
@[simp] theorem modNivoFw_rime : (modNivoFw s g).rime = s.rime := rfl
@[simp] theorem modNivoFw_firn : (modNivoFw s g).firn = s.firn := rfl
@[simp] theorem modNivoFw_ice : (modNivoFw s g).ice = s.ice := rfl
@[simp] theorem modNivoFw_tap : (modNivoFw s g).tap = s.tap := rfl
@[simp] theorem modNivoFw_nivo : (modNivoFw s g).nivo = s.nivo := rfl
@[simp] theorem modNivoFw_nivoFw : (modNivoFw s g).nivoFw = g s.nivoFw := rfl
@[simp] theorem modNivoFw_free : (modNivoFw s g).free = s.free := rfl
end modNivoFw

section modChan
variable (s : State) (k j : Nat) (f : Chan → Chan)
theorem chanOf_modChan : chanOf (modChan s k f) j = if j = k then f (chanOf s k) else chanOf s j := tabGet_tabMod ..
@[simp] theorem chanOf_modChan_self : chanOf (modChan s k f) k = f (chanOf s k) := tabGet_tabMod_self ..
variable {s k j f} in
theorem chanOf_modChan_ne (h : j ≠ k) : chanOf (modChan s k f) j = chanOf s j := tabGet_tabMod_ne _ _ _ h
@[simp] theorem modChan_pending : (modChan s k f).pending = s.pending := rfl
@[simp] theorem modChan_dev : (modChan s k f).dev = s.dev := rfl
@[simp] theorem modChan_pcie : (modChan s k f).pcie = s.pcie := rfl
@[simp] theorem modChan_msix : (modChan s k f).msix = s.msix := rfl
@[simp] theorem modChan_nx : (modChan s k f).nx = s.nx := rfl
@[simp] theorem modChan_modu : (modChan s k f).modu = s.modu := rfl
@[simp] theorem modChan_neg : (modChan s k f).neg = s.neg := rfl
@[simp] theorem modChan_hostMem : (modChan s k f).hostMem = s.hostMem := rfl
@[simp] theorem modChan_floes : (modChan s k f).floes = s.floes := rfl
@[simp] theorem modChan_fmem : (modChan s k f).fmem = s.fmem := rfl
@[simp] theorem modChan_mods : (modChan s k f).mods = s.mods := rfl
@[simp] theorem modChan_flumes : (modChan s k f).flumes = s.flumes := rfl
@[simp] theorem modChan_fab : (modChan s k f).fab = s.fab := rfl
@[simp] theorem modChan_lkp : (modChan s k f).lkp = s.lkp := rfl
@[simp] theorem modChan_jct : (modChan s k f).jct = s.jct := rfl
@[simp] theorem modChan_slu : (modChan s k f).slu = s.slu := rfl
@[simp] theorem modChan_net : (modChan s k f).net = s.net := rfl
@[simp] theorem modChan_tdm : (modChan s k f).tdm = s.tdm := rfl
@[simp] theorem modChan_mirror : (modChan s k f).mirror = s.mirror := rfl
@[simp] theorem modChan_mirrorOut : (modChan s k f).mirrorOut = s.mirrorOut := rfl
@[simp] theorem modChan_tb : (modChan s k f).tb = s.tb := rfl
@[simp] theorem modChan_rime : (modChan s k f).rime = s.rime := rfl
@[simp] theorem modChan_firn : (modChan s k f).firn = s.firn := rfl
@[simp] theorem modChan_ice : (modChan s k f).ice = s.ice := rfl
@[simp] theorem modChan_tap : (modChan s k f).tap = s.tap := rfl
@[simp] theorem modChan_nivo : (modChan s k f).nivo = s.nivo := rfl
@[simp] theorem modChan_nivoFw : (modChan s k f).nivoFw = s.nivoFw := rfl
@[simp] theorem modChan_free : (modChan s k f).free = s.free := rfl
@[simp] theorem basinOf_modChan : basinOf (modChan s k f) j = basinOf s j := rfl
@[simp] theorem ringOf_modChan : ringOf (modChan s k f) j = ringOf s j := rfl
@[simp] theorem busOf_modChan : busOf (modChan s k f) j = busOf s j := rfl
@[simp] theorem xpOf_modChan : xpOf (modChan s k f) j = xpOf s j := rfl
@[simp] theorem laneOf_modChan : laneOf (modChan s k f) j = laneOf s j := rfl
@[simp] theorem floeOf_modChan : floeOf (modChan s k f) j = floeOf s j := rfl
@[simp] theorem rxsOf_modChan : rxsOf (modChan s k f) j = rxsOf s j := rfl
@[simp] theorem txsOf_modChan : txsOf (modChan s k f) j = txsOf s j := rfl
@[simp] theorem portOf_modChan : portOf (modChan s k f) j = portOf s j := rfl
@[simp] theorem dmaOf_modChan : dmaOf (modChan s k f) j = dmaOf s j := rfl
@[simp] theorem slotOf_modChan : slotOf (modChan s k f) j = slotOf s j := rfl
@[simp] theorem fmemOf_modChan : fmemOf (modChan s k f) j = fmemOf s j := rfl
end modChan

section modBasin
variable (s : State) (k j : Nat) (f : Basin → Basin)
theorem basinOf_modBasin : basinOf (modBasin s k f) j = if j = k then f (basinOf s k) else basinOf s j := tabGet_tabMod ..
@[simp] theorem basinOf_modBasin_self : basinOf (modBasin s k f) k = f (basinOf s k) := tabGet_tabMod_self ..
variable {s k j f} in
theorem basinOf_modBasin_ne (h : j ≠ k) : basinOf (modBasin s k f) j = basinOf s j := tabGet_tabMod_ne _ _ _ h
@[simp] theorem modBasin_pending : (modBasin s k f).pending = s.pending := rfl
@[simp] theorem modBasin_dev : (modBasin s k f).dev = s.dev := rfl
@[simp] theorem modBasin_pcie : (modBasin s k f).pcie = s.pcie := rfl
@[simp] theorem modBasin_msix : (modBasin s k f).msix = s.msix := rfl
@[simp] theorem modBasin_nx : (modBasin s k f).nx = s.nx := rfl
@[simp] theorem modBasin_modu : (modBasin s k f).modu = s.modu := rfl
@[simp] theorem modBasin_neg : (modBasin s k f).neg = s.neg := rfl
@[simp] theorem modBasin_hostMem : (modBasin s k f).hostMem = s.hostMem := rfl
@[simp] theorem modBasin_floes : (modBasin s k f).floes = s.floes := rfl
@[simp] theorem modBasin_fmem : (modBasin s k f).fmem = s.fmem := rfl
@[simp] theorem modBasin_mods : (modBasin s k f).mods = s.mods := rfl
@[simp] theorem modBasin_flumes : (modBasin s k f).flumes = s.flumes := rfl
@[simp] theorem modBasin_fab : (modBasin s k f).fab = s.fab := rfl
@[simp] theorem modBasin_lkp : (modBasin s k f).lkp = s.lkp := rfl
@[simp] theorem modBasin_jct : (modBasin s k f).jct = s.jct := rfl
@[simp] theorem modBasin_slu : (modBasin s k f).slu = s.slu := rfl
@[simp] theorem modBasin_net : (modBasin s k f).net = s.net := rfl
@[simp] theorem modBasin_tdm : (modBasin s k f).tdm = s.tdm := rfl
@[simp] theorem modBasin_mirror : (modBasin s k f).mirror = s.mirror := rfl
@[simp] theorem modBasin_mirrorOut : (modBasin s k f).mirrorOut = s.mirrorOut := rfl
@[simp] theorem modBasin_tb : (modBasin s k f).tb = s.tb := rfl
@[simp] theorem modBasin_rime : (modBasin s k f).rime = s.rime := rfl
@[simp] theorem modBasin_firn : (modBasin s k f).firn = s.firn := rfl
@[simp] theorem modBasin_ice : (modBasin s k f).ice = s.ice := rfl
@[simp] theorem modBasin_tap : (modBasin s k f).tap = s.tap := rfl
@[simp] theorem modBasin_nivo : (modBasin s k f).nivo = s.nivo := rfl
@[simp] theorem modBasin_nivoFw : (modBasin s k f).nivoFw = s.nivoFw := rfl
@[simp] theorem modBasin_free : (modBasin s k f).free = s.free := rfl
@[simp] theorem chanOf_modBasin : chanOf (modBasin s k f) j = chanOf s j := rfl
@[simp] theorem ringOf_modBasin : ringOf (modBasin s k f) j = ringOf s j := rfl
@[simp] theorem busOf_modBasin : busOf (modBasin s k f) j = busOf s j := rfl
@[simp] theorem xpOf_modBasin : xpOf (modBasin s k f) j = xpOf s j := rfl
@[simp] theorem laneOf_modBasin : laneOf (modBasin s k f) j = laneOf s j := rfl
@[simp] theorem floeOf_modBasin : floeOf (modBasin s k f) j = floeOf s j := rfl
@[simp] theorem rxsOf_modBasin : rxsOf (modBasin s k f) j = rxsOf s j := rfl
@[simp] theorem txsOf_modBasin : txsOf (modBasin s k f) j = txsOf s j := rfl
@[simp] theorem portOf_modBasin : portOf (modBasin s k f) j = portOf s j := rfl
@[simp] theorem dmaOf_modBasin : dmaOf (modBasin s k f) j = dmaOf s j := rfl
@[simp] theorem slotOf_modBasin : slotOf (modBasin s k f) j = slotOf s j := rfl
@[simp] theorem fmemOf_modBasin : fmemOf (modBasin s k f) j = fmemOf s j := rfl
end modBasin

section modRing
variable (s : State) (k j : Nat) (f : Ring → Ring)
theorem ringOf_modRing : ringOf (modRing s k f) j = if j = k then f (ringOf s k) else ringOf s j := tabGet_tabMod ..
@[simp] theorem ringOf_modRing_self : ringOf (modRing s k f) k = f (ringOf s k) := tabGet_tabMod_self ..
variable {s k j f} in
theorem ringOf_modRing_ne (h : j ≠ k) : ringOf (modRing s k f) j = ringOf s j := tabGet_tabMod_ne _ _ _ h
@[simp] theorem modRing_pending : (modRing s k f).pending = s.pending := rfl
@[simp] theorem modRing_dev : (modRing s k f).dev = s.dev := rfl
@[simp] theorem modRing_pcie : (modRing s k f).pcie = s.pcie := rfl
@[simp] theorem modRing_msix : (modRing s k f).msix = s.msix := rfl
@[simp] theorem modRing_nx : (modRing s k f).nx = s.nx := rfl
@[simp] theorem modRing_modu : (modRing s k f).modu = s.modu := rfl
@[simp] theorem modRing_neg : (modRing s k f).neg = s.neg := rfl
@[simp] theorem modRing_hostMem : (modRing s k f).hostMem = s.hostMem := rfl
@[simp] theorem modRing_floes : (modRing s k f).floes = s.floes := rfl
@[simp] theorem modRing_fmem : (modRing s k f).fmem = s.fmem := rfl
@[simp] theorem modRing_mods : (modRing s k f).mods = s.mods := rfl
@[simp] theorem modRing_flumes : (modRing s k f).flumes = s.flumes := rfl
@[simp] theorem modRing_fab : (modRing s k f).fab = s.fab := rfl
@[simp] theorem modRing_lkp : (modRing s k f).lkp = s.lkp := rfl
@[simp] theorem modRing_jct : (modRing s k f).jct = s.jct := rfl
@[simp] theorem modRing_slu : (modRing s k f).slu = s.slu := rfl
@[simp] theorem modRing_net : (modRing s k f).net = s.net := rfl
@[simp] theorem modRing_tdm : (modRing s k f).tdm = s.tdm := rfl
@[simp] theorem modRing_mirror : (modRing s k f).mirror = s.mirror := rfl
@[simp] theorem modRing_mirrorOut : (modRing s k f).mirrorOut = s.mirrorOut := rfl
@[simp] theorem modRing_tb : (modRing s k f).tb = s.tb := rfl
@[simp] theorem modRing_rime : (modRing s k f).rime = s.rime := rfl
@[simp] theorem modRing_firn : (modRing s k f).firn = s.firn := rfl
@[simp] theorem modRing_ice : (modRing s k f).ice = s.ice := rfl
@[simp] theorem modRing_tap : (modRing s k f).tap = s.tap := rfl
@[simp] theorem modRing_nivo : (modRing s k f).nivo = s.nivo := rfl
@[simp] theorem modRing_nivoFw : (modRing s k f).nivoFw = s.nivoFw := rfl
@[simp] theorem modRing_free : (modRing s k f).free = s.free := rfl
@[simp] theorem chanOf_modRing : chanOf (modRing s k f) j = chanOf s j := rfl
@[simp] theorem basinOf_modRing : basinOf (modRing s k f) j = basinOf s j := rfl
@[simp] theorem busOf_modRing : busOf (modRing s k f) j = busOf s j := rfl
@[simp] theorem xpOf_modRing : xpOf (modRing s k f) j = xpOf s j := rfl
@[simp] theorem laneOf_modRing : laneOf (modRing s k f) j = laneOf s j := rfl
@[simp] theorem floeOf_modRing : floeOf (modRing s k f) j = floeOf s j := rfl
@[simp] theorem rxsOf_modRing : rxsOf (modRing s k f) j = rxsOf s j := rfl
@[simp] theorem txsOf_modRing : txsOf (modRing s k f) j = txsOf s j := rfl
@[simp] theorem portOf_modRing : portOf (modRing s k f) j = portOf s j := rfl
@[simp] theorem dmaOf_modRing : dmaOf (modRing s k f) j = dmaOf s j := rfl
@[simp] theorem slotOf_modRing : slotOf (modRing s k f) j = slotOf s j := rfl
@[simp] theorem fmemOf_modRing : fmemOf (modRing s k f) j = fmemOf s j := rfl
end modRing

section modBus
variable (s : State) (k j : Nat) (f : Bus → Bus)
theorem busOf_modBus : busOf (modBus s k f) j = if j = k then f (busOf s k) else busOf s j := tabGet_tabMod ..
@[simp] theorem busOf_modBus_self : busOf (modBus s k f) k = f (busOf s k) := tabGet_tabMod_self ..
variable {s k j f} in
theorem busOf_modBus_ne (h : j ≠ k) : busOf (modBus s k f) j = busOf s j := tabGet_tabMod_ne _ _ _ h
@[simp] theorem modBus_pending : (modBus s k f).pending = s.pending := rfl
@[simp] theorem modBus_dev : (modBus s k f).dev = s.dev := rfl
@[simp] theorem modBus_pcie : (modBus s k f).pcie = s.pcie := rfl
@[simp] theorem modBus_msix : (modBus s k f).msix = s.msix := rfl
@[simp] theorem modBus_nx : (modBus s k f).nx = s.nx := rfl
@[simp] theorem modBus_modu : (modBus s k f).modu = s.modu := rfl
@[simp] theorem modBus_neg : (modBus s k f).neg = s.neg := rfl
@[simp] theorem modBus_hostMem : (modBus s k f).hostMem = s.hostMem := rfl
@[simp] theorem modBus_floes : (modBus s k f).floes = s.floes := rfl
@[simp] theorem modBus_fmem : (modBus s k f).fmem = s.fmem := rfl
@[simp] theorem modBus_mods : (modBus s k f).mods = s.mods := rfl
@[simp] theorem modBus_flumes : (modBus s k f).flumes = s.flumes := rfl
@[simp] theorem modBus_fab : (modBus s k f).fab = s.fab := rfl
@[simp] theorem modBus_lkp : (modBus s k f).lkp = s.lkp := rfl
@[simp] theorem modBus_media : (modBus s k f).media = s.media := rfl
@[simp] theorem modBus_slu : (modBus s k f).slu = s.slu := rfl
@[simp] theorem modBus_net : (modBus s k f).net = s.net := rfl
@[simp] theorem modBus_tdm : (modBus s k f).tdm = s.tdm := rfl
@[simp] theorem modBus_mirror : (modBus s k f).mirror = s.mirror := rfl
@[simp] theorem modBus_mirrorOut : (modBus s k f).mirrorOut = s.mirrorOut := rfl
@[simp] theorem modBus_tb : (modBus s k f).tb = s.tb := rfl
@[simp] theorem modBus_rime : (modBus s k f).rime = s.rime := rfl
@[simp] theorem modBus_firn : (modBus s k f).firn = s.firn := rfl
@[simp] theorem modBus_ice : (modBus s k f).ice = s.ice := rfl
@[simp] theorem modBus_tap : (modBus s k f).tap = s.tap := rfl
@[simp] theorem modBus_nivo : (modBus s k f).nivo = s.nivo := rfl
@[simp] theorem modBus_nivoFw : (modBus s k f).nivoFw = s.nivoFw := rfl
@[simp] theorem modBus_free : (modBus s k f).free = s.free := rfl
@[simp] theorem chanOf_modBus : chanOf (modBus s k f) j = chanOf s j := rfl
@[simp] theorem basinOf_modBus : basinOf (modBus s k f) j = basinOf s j := rfl
@[simp] theorem ringOf_modBus : ringOf (modBus s k f) j = ringOf s j := rfl
@[simp] theorem xpOf_modBus : xpOf (modBus s k f) j = xpOf s j := rfl
@[simp] theorem laneOf_modBus : laneOf (modBus s k f) j = laneOf s j := rfl
@[simp] theorem floeOf_modBus : floeOf (modBus s k f) j = floeOf s j := rfl
@[simp] theorem rxsOf_modBus : rxsOf (modBus s k f) j = rxsOf s j := rfl
@[simp] theorem txsOf_modBus : txsOf (modBus s k f) j = txsOf s j := rfl
@[simp] theorem portOf_modBus : portOf (modBus s k f) j = portOf s j := rfl
@[simp] theorem dmaOf_modBus : dmaOf (modBus s k f) j = dmaOf s j := rfl
@[simp] theorem slotOf_modBus : slotOf (modBus s k f) j = slotOf s j := rfl
@[simp] theorem fmemOf_modBus : fmemOf (modBus s k f) j = fmemOf s j := rfl
end modBus

section modXp
variable (s : State) (k j : Nat) (f : XPoint → XPoint)
theorem xpOf_modXp : xpOf (modXp s k f) j = if j = k then f (xpOf s k) else xpOf s j := tabGet_tabMod ..
@[simp] theorem xpOf_modXp_self : xpOf (modXp s k f) k = f (xpOf s k) := tabGet_tabMod_self ..
variable {s k j f} in
theorem xpOf_modXp_ne (h : j ≠ k) : xpOf (modXp s k f) j = xpOf s j := tabGet_tabMod_ne _ _ _ h
@[simp] theorem modXp_pending : (modXp s k f).pending = s.pending := rfl
@[simp] theorem modXp_dev : (modXp s k f).dev = s.dev := rfl
@[simp] theorem modXp_pcie : (modXp s k f).pcie = s.pcie := rfl
@[simp] theorem modXp_msix : (modXp s k f).msix = s.msix := rfl
@[simp] theorem modXp_nx : (modXp s k f).nx = s.nx := rfl
@[simp] theorem modXp_modu : (modXp s k f).modu = s.modu := rfl
@[simp] theorem modXp_neg : (modXp s k f).neg = s.neg := rfl
@[simp] theorem modXp_hostMem : (modXp s k f).hostMem = s.hostMem := rfl
@[simp] theorem modXp_floes : (modXp s k f).floes = s.floes := rfl
@[simp] theorem modXp_fmem : (modXp s k f).fmem = s.fmem := rfl
@[simp] theorem modXp_mods : (modXp s k f).mods = s.mods := rfl
@[simp] theorem modXp_flumes : (modXp s k f).flumes = s.flumes := rfl
@[simp] theorem modXp_fab : (modXp s k f).fab = s.fab := rfl
@[simp] theorem modXp_lkp : (modXp s k f).lkp = s.lkp := rfl
@[simp] theorem modXp_media : (modXp s k f).media = s.media := rfl
@[simp] theorem modXp_slu : (modXp s k f).slu = s.slu := rfl
@[simp] theorem modXp_net : (modXp s k f).net = s.net := rfl
@[simp] theorem modXp_tdm : (modXp s k f).tdm = s.tdm := rfl
@[simp] theorem modXp_mirror : (modXp s k f).mirror = s.mirror := rfl
@[simp] theorem modXp_mirrorOut : (modXp s k f).mirrorOut = s.mirrorOut := rfl
@[simp] theorem modXp_tb : (modXp s k f).tb = s.tb := rfl
@[simp] theorem modXp_rime : (modXp s k f).rime = s.rime := rfl
@[simp] theorem modXp_firn : (modXp s k f).firn = s.firn := rfl
@[simp] theorem modXp_ice : (modXp s k f).ice = s.ice := rfl
@[simp] theorem modXp_tap : (modXp s k f).tap = s.tap := rfl
@[simp] theorem modXp_nivo : (modXp s k f).nivo = s.nivo := rfl
@[simp] theorem modXp_nivoFw : (modXp s k f).nivoFw = s.nivoFw := rfl
@[simp] theorem modXp_free : (modXp s k f).free = s.free := rfl
@[simp] theorem chanOf_modXp : chanOf (modXp s k f) j = chanOf s j := rfl
@[simp] theorem basinOf_modXp : basinOf (modXp s k f) j = basinOf s j := rfl
@[simp] theorem ringOf_modXp : ringOf (modXp s k f) j = ringOf s j := rfl
@[simp] theorem busOf_modXp : busOf (modXp s k f) j = busOf s j := rfl
@[simp] theorem laneOf_modXp : laneOf (modXp s k f) j = laneOf s j := rfl
@[simp] theorem floeOf_modXp : floeOf (modXp s k f) j = floeOf s j := rfl
@[simp] theorem rxsOf_modXp : rxsOf (modXp s k f) j = rxsOf s j := rfl
@[simp] theorem txsOf_modXp : txsOf (modXp s k f) j = txsOf s j := rfl
@[simp] theorem portOf_modXp : portOf (modXp s k f) j = portOf s j := rfl
@[simp] theorem dmaOf_modXp : dmaOf (modXp s k f) j = dmaOf s j := rfl
@[simp] theorem slotOf_modXp : slotOf (modXp s k f) j = slotOf s j := rfl
@[simp] theorem fmemOf_modXp : fmemOf (modXp s k f) j = fmemOf s j := rfl
end modXp

section modLane
variable (s : State) (k j : Nat) (f : SluLane → SluLane)
theorem laneOf_modLane : laneOf (modLane s k f) j = if j = k then f (laneOf s k) else laneOf s j := tabGet_tabMod ..
@[simp] theorem laneOf_modLane_self : laneOf (modLane s k f) k = f (laneOf s k) := tabGet_tabMod_self ..
variable {s k j f} in
theorem laneOf_modLane_ne (h : j ≠ k) : laneOf (modLane s k f) j = laneOf s j := tabGet_tabMod_ne _ _ _ h
@[simp] theorem modLane_pending : (modLane s k f).pending = s.pending := rfl
@[simp] theorem modLane_dev : (modLane s k f).dev = s.dev := rfl
@[simp] theorem modLane_pcie : (modLane s k f).pcie = s.pcie := rfl
@[simp] theorem modLane_msix : (modLane s k f).msix = s.msix := rfl
@[simp] theorem modLane_nx : (modLane s k f).nx = s.nx := rfl
@[simp] theorem modLane_modu : (modLane s k f).modu = s.modu := rfl
@[simp] theorem modLane_neg : (modLane s k f).neg = s.neg := rfl
@[simp] theorem modLane_hostMem : (modLane s k f).hostMem = s.hostMem := rfl
@[simp] theorem modLane_floes : (modLane s k f).floes = s.floes := rfl
@[simp] theorem modLane_fmem : (modLane s k f).fmem = s.fmem := rfl
@[simp] theorem modLane_mods : (modLane s k f).mods = s.mods := rfl
@[simp] theorem modLane_flumes : (modLane s k f).flumes = s.flumes := rfl
@[simp] theorem modLane_fab : (modLane s k f).fab = s.fab := rfl
@[simp] theorem modLane_lkp : (modLane s k f).lkp = s.lkp := rfl
@[simp] theorem modLane_media : (modLane s k f).media = s.media := rfl
@[simp] theorem modLane_jct : (modLane s k f).jct = s.jct := rfl
@[simp] theorem modLane_net : (modLane s k f).net = s.net := rfl
@[simp] theorem modLane_tdm : (modLane s k f).tdm = s.tdm := rfl
@[simp] theorem modLane_mirror : (modLane s k f).mirror = s.mirror := rfl
@[simp] theorem modLane_mirrorOut : (modLane s k f).mirrorOut = s.mirrorOut := rfl
@[simp] theorem modLane_tb : (modLane s k f).tb = s.tb := rfl
@[simp] theorem modLane_rime : (modLane s k f).rime = s.rime := rfl
@[simp] theorem modLane_firn : (modLane s k f).firn = s.firn := rfl
@[simp] theorem modLane_ice : (modLane s k f).ice = s.ice := rfl
@[simp] theorem modLane_tap : (modLane s k f).tap = s.tap := rfl
@[simp] theorem modLane_nivo : (modLane s k f).nivo = s.nivo := rfl
@[simp] theorem modLane_nivoFw : (modLane s k f).nivoFw = s.nivoFw := rfl
@[simp] theorem modLane_free : (modLane s k f).free = s.free := rfl
@[simp] theorem chanOf_modLane : chanOf (modLane s k f) j = chanOf s j := rfl
@[simp] theorem basinOf_modLane : basinOf (modLane s k f) j = basinOf s j := rfl
@[simp] theorem ringOf_modLane : ringOf (modLane s k f) j = ringOf s j := rfl
@[simp] theorem busOf_modLane : busOf (modLane s k f) j = busOf s j := rfl
@[simp] theorem xpOf_modLane : xpOf (modLane s k f) j = xpOf s j := rfl
@[simp] theorem floeOf_modLane : floeOf (modLane s k f) j = floeOf s j := rfl
@[simp] theorem rxsOf_modLane : rxsOf (modLane s k f) j = rxsOf s j := rfl
@[simp] theorem txsOf_modLane : txsOf (modLane s k f) j = txsOf s j := rfl
@[simp] theorem portOf_modLane : portOf (modLane s k f) j = portOf s j := rfl
@[simp] theorem dmaOf_modLane : dmaOf (modLane s k f) j = dmaOf s j := rfl
@[simp] theorem slotOf_modLane : slotOf (modLane s k f) j = slotOf s j := rfl
@[simp] theorem fmemOf_modLane : fmemOf (modLane s k f) j = fmemOf s j := rfl
end modLane

section modFloe
variable (s : State) (k j : Nat) (f : Floe → Floe)
theorem floeOf_modFloe : floeOf (modFloe s k f) j = if j = k then f (floeOf s k) else floeOf s j := tabGet_tabMod ..
@[simp] theorem floeOf_modFloe_self : floeOf (modFloe s k f) k = f (floeOf s k) := tabGet_tabMod_self ..
variable {s k j f} in
theorem floeOf_modFloe_ne (h : j ≠ k) : floeOf (modFloe s k f) j = floeOf s j := tabGet_tabMod_ne _ _ _ h
@[simp] theorem modFloe_pending : (modFloe s k f).pending = s.pending := rfl
@[simp] theorem modFloe_dev : (modFloe s k f).dev = s.dev := rfl
@[simp] theorem modFloe_pcie : (modFloe s k f).pcie = s.pcie := rfl
@[simp] theorem modFloe_msix : (modFloe s k f).msix = s.msix := rfl
@[simp] theorem modFloe_nx : (modFloe s k f).nx = s.nx := rfl
@[simp] theorem modFloe_modu : (modFloe s k f).modu = s.modu := rfl
@[simp] theorem modFloe_neg : (modFloe s k f).neg = s.neg := rfl
@[simp] theorem modFloe_hostMem : (modFloe s k f).hostMem = s.hostMem := rfl
@[simp] theorem modFloe_fmem : (modFloe s k f).fmem = s.fmem := rfl
@[simp] theorem modFloe_mods : (modFloe s k f).mods = s.mods := rfl
@[simp] theorem modFloe_flumes : (modFloe s k f).flumes = s.flumes := rfl
@[simp] theorem modFloe_fab : (modFloe s k f).fab = s.fab := rfl
@[simp] theorem modFloe_lkp : (modFloe s k f).lkp = s.lkp := rfl
@[simp] theorem modFloe_media : (modFloe s k f).media = s.media := rfl
@[simp] theorem modFloe_jct : (modFloe s k f).jct = s.jct := rfl
@[simp] theorem modFloe_slu : (modFloe s k f).slu = s.slu := rfl
@[simp] theorem modFloe_net : (modFloe s k f).net = s.net := rfl
@[simp] theorem modFloe_tdm : (modFloe s k f).tdm = s.tdm := rfl
@[simp] theorem modFloe_mirror : (modFloe s k f).mirror = s.mirror := rfl
@[simp] theorem modFloe_mirrorOut : (modFloe s k f).mirrorOut = s.mirrorOut := rfl
@[simp] theorem modFloe_tb : (modFloe s k f).tb = s.tb := rfl
@[simp] theorem modFloe_rime : (modFloe s k f).rime = s.rime := rfl
@[simp] theorem modFloe_firn : (modFloe s k f).firn = s.firn := rfl
@[simp] theorem modFloe_ice : (modFloe s k f).ice = s.ice := rfl
@[simp] theorem modFloe_tap : (modFloe s k f).tap = s.tap := rfl
@[simp] theorem modFloe_nivo : (modFloe s k f).nivo = s.nivo := rfl
@[simp] theorem modFloe_nivoFw : (modFloe s k f).nivoFw = s.nivoFw := rfl
@[simp] theorem modFloe_free : (modFloe s k f).free = s.free := rfl
@[simp] theorem chanOf_modFloe : chanOf (modFloe s k f) j = chanOf s j := rfl
@[simp] theorem basinOf_modFloe : basinOf (modFloe s k f) j = basinOf s j := rfl
@[simp] theorem ringOf_modFloe : ringOf (modFloe s k f) j = ringOf s j := rfl
@[simp] theorem busOf_modFloe : busOf (modFloe s k f) j = busOf s j := rfl
@[simp] theorem xpOf_modFloe : xpOf (modFloe s k f) j = xpOf s j := rfl
@[simp] theorem laneOf_modFloe : laneOf (modFloe s k f) j = laneOf s j := rfl
@[simp] theorem rxsOf_modFloe : rxsOf (modFloe s k f) j = rxsOf s j := rfl
@[simp] theorem txsOf_modFloe : txsOf (modFloe s k f) j = txsOf s j := rfl
@[simp] theorem portOf_modFloe : portOf (modFloe s k f) j = portOf s j := rfl
@[simp] theorem dmaOf_modFloe : dmaOf (modFloe s k f) j = dmaOf s j := rfl
@[simp] theorem slotOf_modFloe : slotOf (modFloe s k f) j = slotOf s j := rfl
@[simp] theorem fmemOf_modFloe : fmemOf (modFloe s k f) j = fmemOf s j := rfl
end modFloe

section modRxs
variable (s : State) (k j : Nat) (f : RxStream → RxStream)
theorem rxsOf_modRxs : rxsOf (modRxs s k f) j = if j = k then f (rxsOf s k) else rxsOf s j := tabGet_tabMod ..
@[simp] theorem rxsOf_modRxs_self : rxsOf (modRxs s k f) k = f (rxsOf s k) := tabGet_tabMod_self ..
variable {s k j f} in
theorem rxsOf_modRxs_ne (h : j ≠ k) : rxsOf (modRxs s k f) j = rxsOf s j := tabGet_tabMod_ne _ _ _ h
@[simp] theorem modRxs_pending : (modRxs s k f).pending = s.pending := rfl
@[simp] theorem modRxs_dev : (modRxs s k f).dev = s.dev := rfl
@[simp] theorem modRxs_pcie : (modRxs s k f).pcie = s.pcie := rfl
@[simp] theorem modRxs_msix : (modRxs s k f).msix = s.msix := rfl
@[simp] theorem modRxs_nx : (modRxs s k f).nx = s.nx := rfl
@[simp] theorem modRxs_modu : (modRxs s k f).modu = s.modu := rfl
@[simp] theorem modRxs_neg : (modRxs s k f).neg = s.neg := rfl
@[simp] theorem modRxs_hostMem : (modRxs s k f).hostMem = s.hostMem := rfl
@[simp] theorem modRxs_floes : (modRxs s k f).floes = s.floes := rfl
@[simp] theorem modRxs_fmem : (modRxs s k f).fmem = s.fmem := rfl
@[simp] theorem modRxs_mods : (modRxs s k f).mods = s.mods := rfl
@[simp] theorem modRxs_flumes : (modRxs s k f).flumes = s.flumes := rfl
@[simp] theorem modRxs_fab : (modRxs s k f).fab = s.fab := rfl
@[simp] theorem modRxs_lkp : (modRxs s k f).lkp = s.lkp := rfl
@[simp] theorem modRxs_media : (modRxs s k f).media = s.media := rfl
@[simp] theorem modRxs_jct : (modRxs s k f).jct = s.jct := rfl
@[simp] theorem modRxs_slu : (modRxs s k f).slu = s.slu := rfl
@[simp] theorem modRxs_tdm : (modRxs s k f).tdm = s.tdm := rfl
@[simp] theorem modRxs_mirror : (modRxs s k f).mirror = s.mirror := rfl
@[simp] theorem modRxs_mirrorOut : (modRxs s k f).mirrorOut = s.mirrorOut := rfl
@[simp] theorem modRxs_tb : (modRxs s k f).tb = s.tb := rfl
@[simp] theorem modRxs_rime : (modRxs s k f).rime = s.rime := rfl
@[simp] theorem modRxs_firn : (modRxs s k f).firn = s.firn := rfl
@[simp] theorem modRxs_ice : (modRxs s k f).ice = s.ice := rfl
@[simp] theorem modRxs_tap : (modRxs s k f).tap = s.tap := rfl
@[simp] theorem modRxs_nivo : (modRxs s k f).nivo = s.nivo := rfl
@[simp] theorem modRxs_nivoFw : (modRxs s k f).nivoFw = s.nivoFw := rfl
@[simp] theorem modRxs_free : (modRxs s k f).free = s.free := rfl
@[simp] theorem chanOf_modRxs : chanOf (modRxs s k f) j = chanOf s j := rfl
@[simp] theorem basinOf_modRxs : basinOf (modRxs s k f) j = basinOf s j := rfl
@[simp] theorem ringOf_modRxs : ringOf (modRxs s k f) j = ringOf s j := rfl
@[simp] theorem busOf_modRxs : busOf (modRxs s k f) j = busOf s j := rfl
@[simp] theorem xpOf_modRxs : xpOf (modRxs s k f) j = xpOf s j := rfl
@[simp] theorem laneOf_modRxs : laneOf (modRxs s k f) j = laneOf s j := rfl
@[simp] theorem floeOf_modRxs : floeOf (modRxs s k f) j = floeOf s j := rfl
@[simp] theorem txsOf_modRxs : txsOf (modRxs s k f) j = txsOf s j := rfl
@[simp] theorem portOf_modRxs : portOf (modRxs s k f) j = portOf s j := rfl
@[simp] theorem dmaOf_modRxs : dmaOf (modRxs s k f) j = dmaOf s j := rfl
@[simp] theorem slotOf_modRxs : slotOf (modRxs s k f) j = slotOf s j := rfl
@[simp] theorem fmemOf_modRxs : fmemOf (modRxs s k f) j = fmemOf s j := rfl
end modRxs

section modTxs
variable (s : State) (k j : Nat) (f : TxStream → TxStream)
theorem txsOf_modTxs : txsOf (modTxs s k f) j = if j = k then f (txsOf s k) else txsOf s j := tabGet_tabMod ..
@[simp] theorem txsOf_modTxs_self : txsOf (modTxs s k f) k = f (txsOf s k) := tabGet_tabMod_self ..
variable {s k j f} in
theorem txsOf_modTxs_ne (h : j ≠ k) : txsOf (modTxs s k f) j = txsOf s j := tabGet_tabMod_ne _ _ _ h
@[simp] theorem modTxs_pending : (modTxs s k f).pending = s.pending := rfl
@[simp] theorem modTxs_dev : (modTxs s k f).dev = s.dev := rfl
@[simp] theorem modTxs_pcie : (modTxs s k f).pcie = s.pcie := rfl
@[simp] theorem modTxs_msix : (modTxs s k f).msix = s.msix := rfl
@[simp] theorem modTxs_nx : (modTxs s k f).nx = s.nx := rfl
@[simp] theorem modTxs_modu : (modTxs s k f).modu = s.modu := rfl
@[simp] theorem modTxs_neg : (modTxs s k f).neg = s.neg := rfl
@[simp] theorem modTxs_hostMem : (modTxs s k f).hostMem = s.hostMem := rfl
@[simp] theorem modTxs_floes : (modTxs s k f).floes = s.floes := rfl
@[simp] theorem modTxs_fmem : (modTxs s k f).fmem = s.fmem := rfl
@[simp] theorem modTxs_mods : (modTxs s k f).mods = s.mods := rfl
@[simp] theorem modTxs_flumes : (modTxs s k f).flumes = s.flumes := rfl
@[simp] theorem modTxs_fab : (modTxs s k f).fab = s.fab := rfl
@[simp] theorem modTxs_lkp : (modTxs s k f).lkp = s.lkp := rfl
@[simp] theorem modTxs_media : (modTxs s k f).media = s.media := rfl
@[simp] theorem modTxs_jct : (modTxs s k f).jct = s.jct := rfl
@[simp] theorem modTxs_slu : (modTxs s k f).slu = s.slu := rfl
@[simp] theorem modTxs_tdm : (modTxs s k f).tdm = s.tdm := rfl
@[simp] theorem modTxs_mirror : (modTxs s k f).mirror = s.mirror := rfl
@[simp] theorem modTxs_mirrorOut : (modTxs s k f).mirrorOut = s.mirrorOut := rfl
@[simp] theorem modTxs_tb : (modTxs s k f).tb = s.tb := rfl
@[simp] theorem modTxs_rime : (modTxs s k f).rime = s.rime := rfl
@[simp] theorem modTxs_firn : (modTxs s k f).firn = s.firn := rfl
@[simp] theorem modTxs_ice : (modTxs s k f).ice = s.ice := rfl
@[simp] theorem modTxs_tap : (modTxs s k f).tap = s.tap := rfl
@[simp] theorem modTxs_nivo : (modTxs s k f).nivo = s.nivo := rfl
@[simp] theorem modTxs_nivoFw : (modTxs s k f).nivoFw = s.nivoFw := rfl
@[simp] theorem modTxs_free : (modTxs s k f).free = s.free := rfl
@[simp] theorem chanOf_modTxs : chanOf (modTxs s k f) j = chanOf s j := rfl
@[simp] theorem basinOf_modTxs : basinOf (modTxs s k f) j = basinOf s j := rfl
@[simp] theorem ringOf_modTxs : ringOf (modTxs s k f) j = ringOf s j := rfl
@[simp] theorem busOf_modTxs : busOf (modTxs s k f) j = busOf s j := rfl
@[simp] theorem xpOf_modTxs : xpOf (modTxs s k f) j = xpOf s j := rfl
@[simp] theorem laneOf_modTxs : laneOf (modTxs s k f) j = laneOf s j := rfl
@[simp] theorem floeOf_modTxs : floeOf (modTxs s k f) j = floeOf s j := rfl
@[simp] theorem rxsOf_modTxs : rxsOf (modTxs s k f) j = rxsOf s j := rfl
@[simp] theorem portOf_modTxs : portOf (modTxs s k f) j = portOf s j := rfl
@[simp] theorem dmaOf_modTxs : dmaOf (modTxs s k f) j = dmaOf s j := rfl
@[simp] theorem slotOf_modTxs : slotOf (modTxs s k f) j = slotOf s j := rfl
@[simp] theorem fmemOf_modTxs : fmemOf (modTxs s k f) j = fmemOf s j := rfl
end modTxs

section modPort
variable (s : State) (k j : Nat) (f : Port → Port)
theorem portOf_modPort : portOf (modPort s k f) j = if j = k then f (portOf s k) else portOf s j := tabGet_tabMod ..
@[simp] theorem portOf_modPort_self : portOf (modPort s k f) k = f (portOf s k) := tabGet_tabMod_self ..
variable {s k j f} in
theorem portOf_modPort_ne (h : j ≠ k) : portOf (modPort s k f) j = portOf s j := tabGet_tabMod_ne _ _ _ h
@[simp] theorem modPort_pending : (modPort s k f).pending = s.pending := rfl
@[simp] theorem modPort_dev : (modPort s k f).dev = s.dev := rfl
@[simp] theorem modPort_pcie : (modPort s k f).pcie = s.pcie := rfl
@[simp] theorem modPort_msix : (modPort s k f).msix = s.msix := rfl
@[simp] theorem modPort_nx : (modPort s k f).nx = s.nx := rfl
@[simp] theorem modPort_modu : (modPort s k f).modu = s.modu := rfl
@[simp] theorem modPort_neg : (modPort s k f).neg = s.neg := rfl
@[simp] theorem modPort_hostMem : (modPort s k f).hostMem = s.hostMem := rfl
@[simp] theorem modPort_floes : (modPort s k f).floes = s.floes := rfl
@[simp] theorem modPort_fmem : (modPort s k f).fmem = s.fmem := rfl
@[simp] theorem modPort_mods : (modPort s k f).mods = s.mods := rfl
@[simp] theorem modPort_flumes : (modPort s k f).flumes = s.flumes := rfl
@[simp] theorem modPort_fab : (modPort s k f).fab = s.fab := rfl
@[simp] theorem modPort_lkp : (modPort s k f).lkp = s.lkp := rfl
@[simp] theorem modPort_media : (modPort s k f).media = s.media := rfl
@[simp] theorem modPort_jct : (modPort s k f).jct = s.jct := rfl
@[simp] theorem modPort_slu : (modPort s k f).slu = s.slu := rfl
@[simp] theorem modPort_tdm : (modPort s k f).tdm = s.tdm := rfl
@[simp] theorem modPort_mirror : (modPort s k f).mirror = s.mirror := rfl
@[simp] theorem modPort_mirrorOut : (modPort s k f).mirrorOut = s.mirrorOut := rfl
@[simp] theorem modPort_tb : (modPort s k f).tb = s.tb := rfl
@[simp] theorem modPort_rime : (modPort s k f).rime = s.rime := rfl
@[simp] theorem modPort_firn : (modPort s k f).firn = s.firn := rfl
@[simp] theorem modPort_ice : (modPort s k f).ice = s.ice := rfl
@[simp] theorem modPort_tap : (modPort s k f).tap = s.tap := rfl
@[simp] theorem modPort_nivo : (modPort s k f).nivo = s.nivo := rfl
@[simp] theorem modPort_nivoFw : (modPort s k f).nivoFw = s.nivoFw := rfl
@[simp] theorem modPort_free : (modPort s k f).free = s.free := rfl
@[simp] theorem chanOf_modPort : chanOf (modPort s k f) j = chanOf s j := rfl
@[simp] theorem basinOf_modPort : basinOf (modPort s k f) j = basinOf s j := rfl
@[simp] theorem ringOf_modPort : ringOf (modPort s k f) j = ringOf s j := rfl
@[simp] theorem busOf_modPort : busOf (modPort s k f) j = busOf s j := rfl
@[simp] theorem xpOf_modPort : xpOf (modPort s k f) j = xpOf s j := rfl
@[simp] theorem laneOf_modPort : laneOf (modPort s k f) j = laneOf s j := rfl
@[simp] theorem floeOf_modPort : floeOf (modPort s k f) j = floeOf s j := rfl
@[simp] theorem rxsOf_modPort : rxsOf (modPort s k f) j = rxsOf s j := rfl
@[simp] theorem txsOf_modPort : txsOf (modPort s k f) j = txsOf s j := rfl
@[simp] theorem dmaOf_modPort : dmaOf (modPort s k f) j = dmaOf s j := rfl
@[simp] theorem slotOf_modPort : slotOf (modPort s k f) j = slotOf s j := rfl
@[simp] theorem fmemOf_modPort : fmemOf (modPort s k f) j = fmemOf s j := rfl
end modPort

section modDma
variable (s : State) (k j : Nat) (f : DmaRing → DmaRing)
theorem dmaOf_modDma : dmaOf (modDma s k f) j = if j = k then f (dmaOf s k) else dmaOf s j := tabGet_tabMod ..
@[simp] theorem dmaOf_modDma_self : dmaOf (modDma s k f) k = f (dmaOf s k) := tabGet_tabMod_self ..
variable {s k j f} in
theorem dmaOf_modDma_ne (h : j ≠ k) : dmaOf (modDma s k f) j = dmaOf s j := tabGet_tabMod_ne _ _ _ h
@[simp] theorem modDma_pending : (modDma s k f).pending = s.pending := rfl
@[simp] theorem modDma_dev : (modDma s k f).dev = s.dev := rfl
@[simp] theorem modDma_pcie : (modDma s k f).pcie = s.pcie := rfl
@[simp] theorem modDma_msix : (modDma s k f).msix = s.msix := rfl
@[simp] theorem modDma_nx : (modDma s k f).nx = s.nx := rfl
@[simp] theorem modDma_modu : (modDma s k f).modu = s.modu := rfl
@[simp] theorem modDma_neg : (modDma s k f).neg = s.neg := rfl
@[simp] theorem modDma_hostMem : (modDma s k f).hostMem = s.hostMem := rfl
@[simp] theorem modDma_floes : (modDma s k f).floes = s.floes := rfl
@[simp] theorem modDma_fmem : (modDma s k f).fmem = s.fmem := rfl
@[simp] theorem modDma_mods : (modDma s k f).mods = s.mods := rfl
@[simp] theorem modDma_flumes : (modDma s k f).flumes = s.flumes := rfl
@[simp] theorem modDma_fab : (modDma s k f).fab = s.fab := rfl
@[simp] theorem modDma_lkp : (modDma s k f).lkp = s.lkp := rfl
@[simp] theorem modDma_media : (modDma s k f).media = s.media := rfl
@[simp] theorem modDma_jct : (modDma s k f).jct = s.jct := rfl
@[simp] theorem modDma_slu : (modDma s k f).slu = s.slu := rfl
@[simp] theorem modDma_tdm : (modDma s k f).tdm = s.tdm := rfl
@[simp] theorem modDma_mirror : (modDma s k f).mirror = s.mirror := rfl
@[simp] theorem modDma_mirrorOut : (modDma s k f).mirrorOut = s.mirrorOut := rfl
@[simp] theorem modDma_tb : (modDma s k f).tb = s.tb := rfl
@[simp] theorem modDma_rime : (modDma s k f).rime = s.rime := rfl
@[simp] theorem modDma_firn : (modDma s k f).firn = s.firn := rfl
@[simp] theorem modDma_ice : (modDma s k f).ice = s.ice := rfl
@[simp] theorem modDma_tap : (modDma s k f).tap = s.tap := rfl
@[simp] theorem modDma_nivo : (modDma s k f).nivo = s.nivo := rfl
@[simp] theorem modDma_nivoFw : (modDma s k f).nivoFw = s.nivoFw := rfl
@[simp] theorem modDma_free : (modDma s k f).free = s.free := rfl
@[simp] theorem chanOf_modDma : chanOf (modDma s k f) j = chanOf s j := rfl
@[simp] theorem basinOf_modDma : basinOf (modDma s k f) j = basinOf s j := rfl
@[simp] theorem ringOf_modDma : ringOf (modDma s k f) j = ringOf s j := rfl
@[simp] theorem busOf_modDma : busOf (modDma s k f) j = busOf s j := rfl
@[simp] theorem xpOf_modDma : xpOf (modDma s k f) j = xpOf s j := rfl
@[simp] theorem laneOf_modDma : laneOf (modDma s k f) j = laneOf s j := rfl
@[simp] theorem floeOf_modDma : floeOf (modDma s k f) j = floeOf s j := rfl
@[simp] theorem rxsOf_modDma : rxsOf (modDma s k f) j = rxsOf s j := rfl
@[simp] theorem txsOf_modDma : txsOf (modDma s k f) j = txsOf s j := rfl
@[simp] theorem portOf_modDma : portOf (modDma s k f) j = portOf s j := rfl
@[simp] theorem slotOf_modDma : slotOf (modDma s k f) j = slotOf s j := rfl
@[simp] theorem fmemOf_modDma : fmemOf (modDma s k f) j = fmemOf s j := rfl
end modDma

section modSlot
variable (s : State) (k j : Nat) (f : KeySlot → KeySlot)
theorem slotOf_modSlot : slotOf (modSlot s k f) j = if j = k then f (slotOf s k) else slotOf s j := tabGet_tabMod ..
@[simp] theorem slotOf_modSlot_self : slotOf (modSlot s k f) k = f (slotOf s k) := tabGet_tabMod_self ..
variable {s k j f} in
theorem slotOf_modSlot_ne (h : j ≠ k) : slotOf (modSlot s k f) j = slotOf s j := tabGet_tabMod_ne _ _ _ h
@[simp] theorem modSlot_pending : (modSlot s k f).pending = s.pending := rfl
@[simp] theorem modSlot_dev : (modSlot s k f).dev = s.dev := rfl
@[simp] theorem modSlot_pcie : (modSlot s k f).pcie = s.pcie := rfl
@[simp] theorem modSlot_msix : (modSlot s k f).msix = s.msix := rfl
@[simp] theorem modSlot_nx : (modSlot s k f).nx = s.nx := rfl
@[simp] theorem modSlot_modu : (modSlot s k f).modu = s.modu := rfl
@[simp] theorem modSlot_neg : (modSlot s k f).neg = s.neg := rfl
@[simp] theorem modSlot_hostMem : (modSlot s k f).hostMem = s.hostMem := rfl
@[simp] theorem modSlot_floes : (modSlot s k f).floes = s.floes := rfl
@[simp] theorem modSlot_fmem : (modSlot s k f).fmem = s.fmem := rfl
@[simp] theorem modSlot_mods : (modSlot s k f).mods = s.mods := rfl
@[simp] theorem modSlot_flumes : (modSlot s k f).flumes = s.flumes := rfl
@[simp] theorem modSlot_fab : (modSlot s k f).fab = s.fab := rfl
@[simp] theorem modSlot_lkp : (modSlot s k f).lkp = s.lkp := rfl
@[simp] theorem modSlot_media : (modSlot s k f).media = s.media := rfl
@[simp] theorem modSlot_jct : (modSlot s k f).jct = s.jct := rfl
@[simp] theorem modSlot_slu : (modSlot s k f).slu = s.slu := rfl
@[simp] theorem modSlot_net : (modSlot s k f).net = s.net := rfl
@[simp] theorem modSlot_tdm : (modSlot s k f).tdm = s.tdm := rfl
@[simp] theorem modSlot_mirror : (modSlot s k f).mirror = s.mirror := rfl
@[simp] theorem modSlot_mirrorOut : (modSlot s k f).mirrorOut = s.mirrorOut := rfl
@[simp] theorem modSlot_tb : (modSlot s k f).tb = s.tb := rfl
@[simp] theorem modSlot_firn : (modSlot s k f).firn = s.firn := rfl
@[simp] theorem modSlot_ice : (modSlot s k f).ice = s.ice := rfl
@[simp] theorem modSlot_tap : (modSlot s k f).tap = s.tap := rfl
@[simp] theorem modSlot_nivo : (modSlot s k f).nivo = s.nivo := rfl
@[simp] theorem modSlot_nivoFw : (modSlot s k f).nivoFw = s.nivoFw := rfl
@[simp] theorem modSlot_free : (modSlot s k f).free = s.free := rfl
@[simp] theorem chanOf_modSlot : chanOf (modSlot s k f) j = chanOf s j := rfl
@[simp] theorem basinOf_modSlot : basinOf (modSlot s k f) j = basinOf s j := rfl
@[simp] theorem ringOf_modSlot : ringOf (modSlot s k f) j = ringOf s j := rfl
@[simp] theorem busOf_modSlot : busOf (modSlot s k f) j = busOf s j := rfl
@[simp] theorem xpOf_modSlot : xpOf (modSlot s k f) j = xpOf s j := rfl
@[simp] theorem laneOf_modSlot : laneOf (modSlot s k f) j = laneOf s j := rfl
@[simp] theorem floeOf_modSlot : floeOf (modSlot s k f) j = floeOf s j := rfl
@[simp] theorem rxsOf_modSlot : rxsOf (modSlot s k f) j = rxsOf s j := rfl
@[simp] theorem txsOf_modSlot : txsOf (modSlot s k f) j = txsOf s j := rfl
@[simp] theorem portOf_modSlot : portOf (modSlot s k f) j = portOf s j := rfl
@[simp] theorem dmaOf_modSlot : dmaOf (modSlot s k f) j = dmaOf s j := rfl
@[simp] theorem fmemOf_modSlot : fmemOf (modSlot s k f) j = fmemOf s j := rfl
end modSlot

section modFmem
variable (s : State) (k j : Nat) (f : FloeMem → FloeMem)
theorem fmemOf_modFmem : fmemOf (modFmem s k f) j = if j = k then f (fmemOf s k) else fmemOf s j := tabGet_tabMod ..
@[simp] theorem fmemOf_modFmem_self : fmemOf (modFmem s k f) k = f (fmemOf s k) := tabGet_tabMod_self ..
variable {s k j f} in
theorem fmemOf_modFmem_ne (h : j ≠ k) : fmemOf (modFmem s k f) j = fmemOf s j := tabGet_tabMod_ne _ _ _ h
@[simp] theorem modFmem_pending : (modFmem s k f).pending = s.pending := rfl
@[simp] theorem modFmem_dev : (modFmem s k f).dev = s.dev := rfl
@[simp] theorem modFmem_pcie : (modFmem s k f).pcie = s.pcie := rfl
@[simp] theorem modFmem_msix : (modFmem s k f).msix = s.msix := rfl
@[simp] theorem modFmem_nx : (modFmem s k f).nx = s.nx := rfl
@[simp] theorem modFmem_modu : (modFmem s k f).modu = s.modu := rfl
@[simp] theorem modFmem_neg : (modFmem s k f).neg = s.neg := rfl
@[simp] theorem modFmem_hostMem : (modFmem s k f).hostMem = s.hostMem := rfl
@[simp] theorem modFmem_floes : (modFmem s k f).floes = s.floes := rfl
@[simp] theorem modFmem_mods : (modFmem s k f).mods = s.mods := rfl
@[simp] theorem modFmem_flumes : (modFmem s k f).flumes = s.flumes := rfl
@[simp] theorem modFmem_fab : (modFmem s k f).fab = s.fab := rfl
@[simp] theorem modFmem_lkp : (modFmem s k f).lkp = s.lkp := rfl
@[simp] theorem modFmem_media : (modFmem s k f).media = s.media := rfl
@[simp] theorem modFmem_jct : (modFmem s k f).jct = s.jct := rfl
@[simp] theorem modFmem_slu : (modFmem s k f).slu = s.slu := rfl
@[simp] theorem modFmem_net : (modFmem s k f).net = s.net := rfl
@[simp] theorem modFmem_tdm : (modFmem s k f).tdm = s.tdm := rfl
@[simp] theorem modFmem_mirror : (modFmem s k f).mirror = s.mirror := rfl
@[simp] theorem modFmem_mirrorOut : (modFmem s k f).mirrorOut = s.mirrorOut := rfl
@[simp] theorem modFmem_tb : (modFmem s k f).tb = s.tb := rfl
@[simp] theorem modFmem_rime : (modFmem s k f).rime = s.rime := rfl
@[simp] theorem modFmem_firn : (modFmem s k f).firn = s.firn := rfl
@[simp] theorem modFmem_ice : (modFmem s k f).ice = s.ice := rfl
@[simp] theorem modFmem_tap : (modFmem s k f).tap = s.tap := rfl
@[simp] theorem modFmem_nivo : (modFmem s k f).nivo = s.nivo := rfl
@[simp] theorem modFmem_nivoFw : (modFmem s k f).nivoFw = s.nivoFw := rfl
@[simp] theorem modFmem_free : (modFmem s k f).free = s.free := rfl
@[simp] theorem chanOf_modFmem : chanOf (modFmem s k f) j = chanOf s j := rfl
@[simp] theorem basinOf_modFmem : basinOf (modFmem s k f) j = basinOf s j := rfl
@[simp] theorem ringOf_modFmem : ringOf (modFmem s k f) j = ringOf s j := rfl
@[simp] theorem busOf_modFmem : busOf (modFmem s k f) j = busOf s j := rfl
@[simp] theorem xpOf_modFmem : xpOf (modFmem s k f) j = xpOf s j := rfl
@[simp] theorem laneOf_modFmem : laneOf (modFmem s k f) j = laneOf s j := rfl
@[simp] theorem floeOf_modFmem : floeOf (modFmem s k f) j = floeOf s j := rfl
@[simp] theorem rxsOf_modFmem : rxsOf (modFmem s k f) j = rxsOf s j := rfl
@[simp] theorem txsOf_modFmem : txsOf (modFmem s k f) j = txsOf s j := rfl
@[simp] theorem portOf_modFmem : portOf (modFmem s k f) j = portOf s j := rfl
@[simp] theorem dmaOf_modFmem : dmaOf (modFmem s k f) j = dmaOf s j := rfl
@[simp] theorem slotOf_modFmem : slotOf (modFmem s k f) j = slotOf s j := rfl
end modFmem

end Sys2Proof.Machine
end

