-- ==== Sys2Proof/Laws/Reports.lean ====
section
/-! SUPPORT. Reports change nothing inside the device: what every reporting operation leaves alone. -/

namespace Sys2Proof.Machine

/-! ## States that differ in reports alone agree elsewhere -/

theorem pending_of_inside {s t : State} (h : s.inside = t.inside) : s.pending = t.pending := congrArg (fun u => u.pending) h
theorem dev_of_inside {s t : State} (h : s.inside = t.inside) : s.dev = t.dev := congrArg (fun u => u.dev) h
theorem pcie_of_inside {s t : State} (h : s.inside = t.inside) : s.pcie = t.pcie := congrArg (fun u => u.pcie) h
theorem neg_of_inside {s t : State} (h : s.inside = t.inside) : s.neg = t.neg := congrArg (fun u => u.neg) h
theorem floes_of_inside {s t : State} (h : s.inside = t.inside) : s.floes = t.floes := congrArg (fun u => u.floes) h
theorem fmem_of_inside {s t : State} (h : s.inside = t.inside) : s.fmem = t.fmem := congrArg (fun u => u.fmem) h
theorem mods_of_inside {s t : State} (h : s.inside = t.inside) : s.mods = t.mods := congrArg (fun u => u.mods) h
theorem flumes_of_inside {s t : State} (h : s.inside = t.inside) : s.flumes = t.flumes := congrArg (fun u => u.flumes) h
theorem fab_of_inside {s t : State} (h : s.inside = t.inside) : s.fab = t.fab := congrArg (fun u => u.fab) h
theorem lkp_of_inside {s t : State} (h : s.inside = t.inside) : s.lkp = t.lkp := congrArg (fun u => u.lkp) h
theorem media_of_inside {s t : State} (h : s.inside = t.inside) : s.media = t.media := congrArg (fun u => u.media) h
theorem jct_of_inside {s t : State} (h : s.inside = t.inside) : s.jct = t.jct := congrArg (fun u => u.jct) h
theorem slu_of_inside {s t : State} (h : s.inside = t.inside) : s.slu = t.slu := congrArg (fun u => u.slu) h
theorem net_of_inside {s t : State} (h : s.inside = t.inside) : s.net = t.net := congrArg (fun u => u.net) h
theorem tdm_of_inside {s t : State} (h : s.inside = t.inside) : s.tdm = t.tdm := congrArg (fun u => u.tdm) h
theorem mirror_of_inside {s t : State} (h : s.inside = t.inside) : s.mirror = t.mirror := congrArg (fun u => u.mirror) h
theorem mirrorOut_of_inside {s t : State} (h : s.inside = t.inside) : s.mirrorOut = t.mirrorOut := congrArg (fun u => u.mirrorOut) h
theorem tb_of_inside {s t : State} (h : s.inside = t.inside) : s.tb = t.tb := congrArg (fun u => u.tb) h
theorem rime_of_inside {s t : State} (h : s.inside = t.inside) : s.rime = t.rime := congrArg (fun u => u.rime) h
theorem firn_of_inside {s t : State} (h : s.inside = t.inside) : s.firn = t.firn := congrArg (fun u => u.firn) h
theorem tap_of_inside {s t : State} (h : s.inside = t.inside) : s.tap = t.tap := congrArg (fun u => u.tap) h
theorem nivo_of_inside {s t : State} (h : s.inside = t.inside) : s.nivo = t.nivo := congrArg (fun u => u.nivo) h
theorem nivoFw_of_inside {s t : State} (h : s.inside = t.inside) : s.nivoFw = t.nivoFw := congrArg (fun u => u.nivoFw) h
theorem free_of_inside {s t : State} (h : s.inside = t.inside) : s.free = t.free := congrArg (fun u => u.free) h
theorem rung_of_inside {s t : State} (h : s.inside = t.inside) : s.nx.rung = t.nx.rung := congrArg (fun u => u.nx.rung) h
theorem long_of_inside {s t : State} (h : s.inside = t.inside) : s.nx.long = t.nx.long := congrArg (fun u => u.nx.long) h

/-! ## The reporting operations -/

theorem modLanes_inside (s : State) (f : Lanes → Lanes) : (modLanes s f).inside = s.inside := rfl

theorem alarm_inside (s : State) (c : Nat) (o : Word) (a t : DWord) : (alarm s c o a t).inside = s.inside := by
  unfold alarm; split <;> rfl

theorem queueLog_inside (s : State) (r : LogRec) : (queueLog s r).inside = s.inside := rfl

theorem logRec_inside (s : State) (c v : Nat) (o : Word) (d : List Byte) : (logRec s c v o d).inside = s.inside := by
  unfold logRec; repeat' split
  all_goals rfl

theorem trace_inside (s : State) (k a : Nat) : (trace s k a).inside = s.inside := by
  unfold trace; repeat' split
  all_goals rfl

theorem unitEv_inside (s : State) (c : Nat) (o : Word) (a : Nat) (m : List (Nat × Nat)) :
    (unitEv s c o a m).inside = s.inside := rfl

theorem raiseVec_inside (s : State) (v : Nat) : (raiseVec s v).inside = s.inside := by
  unfold raiseVec; repeat' split
  all_goals rfl

theorem raiseMod_inside (s : State) (x : ModSrc) (v u : Nat) : (raiseMod s x v u).inside = s.inside := by
  unfold raiseMod; repeat' split
  all_goals first | rfl | exact raiseVec_inside ..

theorem putEntry_inside (s : State) (e : List Byte) : (putEntry s e).inside = s.inside := rfl

theorem deliver_inside (s : State) (c : Cpl) : (deliver s c).inside = s.inside := by
  unfold deliver
  extract_lets s1 s2 n3 s3
  have h1 : s1.inside = s.inside := by unfold s1; split <;> rfl
  have h2 : s2.inside = s1.inside := by unfold s2; split <;> rfl
  have h3 : s3.inside = s2.inside := rfl
  split
  · rw [raiseMod_inside, h3, h2, h1]
  · rw [h3, h2, h1]

theorem putRecord_inside (s : State) (ty q t : Nat) (l : List (List Byte)) :
    (putRecord s ty q t l).inside = s.inside := by
  induction l generalizing s q with
  | nil => exact raiseMod_inside ..
  | cons b l ih => exact (ih ..).trans (putEntry_inside ..)

theorem flushMsgs_inside (s : State) : (flushMsgs s).inside = s.inside := by
  unfold flushMsgs; split <;> rfl

theorem drainCpls_inside (s : State) (l : List Cpl) : (drainCpls s l).inside = s.inside := by
  induction l generalizing s with
  | nil => rfl
  | cons c l ih =>
    unfold drainCpls; split
    · exact (ih _).trans (deliver_inside ..)
    · rfl

theorem drainAlarms_inside (s : State) (l : List AlarmRec) : (drainAlarms s l).inside = s.inside := by
  induction l generalizing s with
  | nil => rfl
  | cons c l ih =>
    unfold drainAlarms; split
    · exact (ih _).trans (putRecord_inside ..)
    · exact ih _

theorem drainUnits_inside (s : State) (l : List UnitEv) : (drainUnits s l).inside = s.inside := by
  induction l generalizing s with
  | nil => rfl
  | cons c l ih =>
    unfold drainUnits; dsimp only; split
    · exact (ih _).trans (putRecord_inside ..)
    · rfl

theorem drainChans_inside (s : State) (l : List ChanEv) : (drainChans s l).inside = s.inside := by
  induction l generalizing s with
  | nil => rfl
  | cons c l ih =>
    unfold drainChans; split
    · exact (ih _).trans (putRecord_inside ..)
    · rfl

theorem drainLogs_inside (s : State) (l : List LogRec) : (drainLogs s l).inside = s.inside := by
  induction l generalizing s with
  | nil => rfl
  | cons c l ih =>
    unfold drainLogs; dsimp only; split
    · exact (ih _).trans (putRecord_inside ..)
    · rfl

theorem drainOthers_inside (s : State) : (drainOthers s).inside = s.inside := by
  unfold drainOthers takeFlash batchAdd
  dsimp only
  repeat' split
  all_goals rfl

/-- Settling moves reports and changes nothing else. -/
theorem settle_inside (s : State) : (settle s).inside = s.inside := by
  simp only [settle, drainOthers_inside, drainLogs_inside, drainChans_inside, drainUnits_inside, drainAlarms_inside,
    drainCpls_inside, flushMsgs_inside]

theorem raiseMod_berthMem (s : State) (x : ModSrc) (v u : Nat) : (raiseMod s x v u).nx = s.nx := by
  unfold raiseMod raiseVec; dsimp only; repeat' split
  all_goals rfl

theorem putRecord_berthMem (s : State) (ty q t : Nat) (l : List (List Byte)) :
    (putRecord s ty q t l).nx.berthMem = s.nx.berthMem := by
  induction l generalizing s q with
  | nil => unfold putRecord; rw [raiseMod_berthMem]
  | cons b l ih => exact ih ..

theorem deliver_berthMem (s : State) (c : Cpl) : (deliver s c).nx.berthMem = s.nx.berthMem := by
  unfold deliver
  extract_lets s1 s2 n3 s3
  have h1 : s1.nx.berthMem = s.nx.berthMem := by unfold s1; split <;> rfl
  have h2 : s2.nx.berthMem = s1.nx.berthMem := by unfold s2; split <;> rfl
  have h3 : s3.nx.berthMem = s2.nx.berthMem := rfl
  split
  · rw [raiseMod_berthMem, h3, h2, h1]
  · rw [h3, h2, h1]

theorem drainCpls_berthMem (s : State) (l : List Cpl) : (drainCpls s l).nx.berthMem = s.nx.berthMem := by
  induction l generalizing s with
  | nil => rfl
  | cons c l ih =>
    unfold drainCpls; split
    · exact (ih _).trans (deliver_berthMem ..)
    · rfl

theorem drainAlarms_berthMem (s : State) (l : List AlarmRec) : (drainAlarms s l).nx.berthMem = s.nx.berthMem := by
  induction l generalizing s with
  | nil => rfl
  | cons c l ih =>
    unfold drainAlarms; split
    · exact (ih _).trans (putRecord_berthMem ..)
    · exact ih _

theorem drainUnits_berthMem (s : State) (l : List UnitEv) : (drainUnits s l).nx.berthMem = s.nx.berthMem := by
  induction l generalizing s with
  | nil => rfl
  | cons c l ih =>
    unfold drainUnits; dsimp only; split
    · exact (ih _).trans (putRecord_berthMem ..)
    · rfl

theorem drainChans_berthMem (s : State) (l : List ChanEv) : (drainChans s l).nx.berthMem = s.nx.berthMem := by
  induction l generalizing s with
  | nil => rfl
  | cons c l ih =>
    unfold drainChans; split
    · exact (ih _).trans (putRecord_berthMem ..)
    · rfl

theorem drainLogs_berthMem (s : State) (l : List LogRec) : (drainLogs s l).nx.berthMem = s.nx.berthMem := by
  induction l generalizing s with
  | nil => rfl
  | cons c l ih =>
    unfold drainLogs; dsimp only; split
    · exact (ih _).trans (putRecord_berthMem ..)
    · rfl

theorem drainOthers_nx (s : State) : (drainOthers s).nx = s.nx := by
  unfold drainOthers takeFlash batchAdd
  dsimp only
  repeat' split
  all_goals rfl

theorem flushMsgs_nx (s : State) : (flushMsgs s).nx = s.nx := by
  unfold flushMsgs; split <;> rfl

/-- Settling writes no byte of a berth. -/
theorem settle_berthMem (s : State) : (settle s).nx.berthMem = s.nx.berthMem := by
  simp only [settle, drainOthers_nx, drainLogs_berthMem, drainChans_berthMem, drainUnits_berthMem,
    drainAlarms_berthMem, drainCpls_berthMem, flushMsgs_nx]

/-- Settling changes no part of the device register block. -/
theorem settle_dev (s : State) : (settle s).dev = s.dev := dev_of_inside (settle_inside s)

theorem audit_inside (s : State) (h : NxHdr) (n : Nat) : (audit s h n).inside = s.inside := logRec_inside ..

theorem complete_inside (s : State) (b : Nat) (h : NxHdr) (st o : Nat) (d : Word) (n : Nat) (r : List Byte) :
    (complete s b h st o d n r).inside = s.inside := by
  unfold complete berthPut; dsimp only; split <;> rfl

/-- After its completion a command without DMA shows its status, the reply's length and the reply (R461, R462). -/
theorem complete_shows (s : State) (b : Nat) (h : NxHdr) (st o : Nat) (d : Word) (n : Nat) (r : List Byte)
    (hd : h.dma = false) (hst : st < 65536) (hr : r.length < 65536) :
    berthShows (complete s b h st o d n r) b st r := by
  have hm : (complete s b h st o d n r).nx.berthMem =
      writeBytes (writeBytes (writeBytes s.nx.berthMem (b * berthSize s + 6) (leBytes st 2)) (b * berthSize s + 14)
        (leBytes r.length 2)) (b * berthSize s + 16) r := by
    unfold complete berthPut; dsimp only; rw [hd]; rfl
  have hz : berthSize (complete s b h st o d n r) = berthSize s := by
    unfold berthSize; rw [dev_of_inside (complete_inside s b h st o d n r)]
  refine ⟨?_, ?_, ?_⟩
  · unfold berthNum
    rw [hz, hm, readBytes_writeBytes_out (by omega), readBytes_writeBytes_out (by omega)]
    have := readBytes_writeBytes (leBytes st 2) s.nx.berthMem (b * berthSize s + 6)
    rw [leBytes_length] at this
    rw [this, ofLe_leBytes]; exact Nat.mod_eq_of_lt hst
  · unfold berthNum
    rw [hz, hm, readBytes_writeBytes_out (by omega)]
    have := readBytes_writeBytes (leBytes r.length 2) (writeBytes s.nx.berthMem (b * berthSize s + 6) (leBytes st 2))
      (b * berthSize s + 14)
    rw [leBytes_length] at this
    rw [this, ofLe_leBytes]; exact Nat.mod_eq_of_lt hr
  · rw [hz, hm]; exact readBytes_writeBytes ..

theorem settle_shows {s : State} {b st : Nat} {r : List Byte} (h : berthShows s b st r) :
    berthShows (settle s) b st r := by
  unfold berthShows berthNum berthSize at *
  rw [settle_berthMem, settle_dev]; exact h

theorem refused_inside (s : State) (sp : NxSpec) (b : Nat) (h : NxHdr) (c : Nat) (d : Word) (n : Nat) :
    (refused s sp b h c d n).inside = s.inside := by
  unfold refused; dsimp only
  rw [complete_inside]
  split
  · exact audit_inside ..
  · rfl

end Sys2Proof.Machine
end

