-- ==== Sys2Proof/Laws/Memory.lean ====
section
/-! SUPPORT. Every memory operation keeps the memories in canonical form (Memory.wf). -/

namespace Sys2Proof.Machine

variable {s : State}

/-! ## Tables of records -/

theorem tabPut_all {α : Type} {p : Nat × α → Bool} {k : Nat} {v : α} {t : List (Nat × α)} (hv : p (k, v) = true)
    (ht : t.all p = true) : (tabPut k v t).all p = true := by
  induction t with
  | nil => simpa [tabPut] using hv
  | cons q t ih =>
    simp only [List.all_cons, Bool.and_eq_true] at ht
    unfold tabPut
    split
    · simp [hv, ht]
    · split <;> simp [hv, ht, ih]

theorem tabDel_all {α : Type} {p : Nat × α → Bool} {k : Nat} {t : List (Nat × α)} (ht : t.all p = true) :
    (tabDel k t).all p = true := by
  induction t with
  | nil => rfl
  | cons q t ih =>
    simp only [List.all_cons, Bool.and_eq_true] at ht
    unfold tabDel
    split <;> simp [ht, ih]

theorem tabGet_of_all {α : Type} {p : α → Bool} {d : α} {k : Nat} {t : List (Nat × α)} (hd : p d = true)
    (ht : (t.all fun x => p x.2) = true) : p (tabGet d t k) = true := by
  induction t with
  | nil => exact hd
  | cons q t ih =>
    simp only [List.all_cons, Bool.and_eq_true] at ht
    unfold tabGet
    split
    · exact ht.1
    · exact ih ht.2

/-- A property of every entry survives a change of one entry that keeps it. -/
theorem tabMod_all {α : Type} [DecidableEq α] {p : α → Bool} {d : α} {k : Nat} {f : α → α} {t : List (Nat × α)}
    (hd : p d = true) (hf : ∀ x, p x = true → p (f x) = true) (ht : (t.all fun x => p x.2) = true) :
    ((tabMod d t k f).all fun x => p x.2) = true := by
  unfold tabMod tabSet
  split
  · exact tabDel_all ht
  · exact tabPut_all (p := fun x => p x.2) (hf _ (tabGet_of_all hd ht)) ht

/-! ## The parts of the canonical form -/

theorem memWf_iff : Memory.wf s = true ↔
    tabWf 0 s.hostMem = true ∧ tabWf 0 s.nx.berthMem = true ∧ tabWf 0 s.fab.ddr = true ∧ tabWf 0 s.fab.neve = true ∧
      (s.fmem.all fun m => tabWf 0 m.2.dmem && tabWf 0 m.2.imem) = true := by
  simp only [Memory.wf, Bool.and_eq_true, and_assoc]

/-- Two states that agree but for reports, with host memory and berths in canonical form. -/
theorem memWf_of_inside {t : State} (h : t.inside = s.inside) (hh : tabWf 0 t.hostMem = true)
    (hb : tabWf 0 t.nx.berthMem = true) (hs : Memory.wf s = true) : Memory.wf t = true := by
  obtain ⟨-, -, h3, h4, h5⟩ := memWf_iff.mp hs
  rw [← fab_of_inside h] at h3 h4
  rw [← fmem_of_inside h] at h5
  exact memWf_iff.mpr ⟨hh, hb, h3, h4, h5⟩

/-! ## Writes -/

theorem hostWrite_wf (h : Memory.wf s = true) (a : Nat) (l : List Byte) : Memory.wf (hostWrite s a l) = true := by
  obtain ⟨h1, h2, h3, h4, h5⟩ := memWf_iff.mp h
  exact memWf_iff.mpr ⟨writeBytes_wf _ _ _ h1, h2, h3, h4, h5⟩

theorem berthPut_wf (h : Memory.wf s = true) (b o : Nat) (l : List Byte) : Memory.wf (berthPut s b o l) = true := by
  obtain ⟨h1, h2, h3, h4, h5⟩ := memWf_iff.mp h
  exact memWf_iff.mpr ⟨h1, writeBytes_wf _ _ _ h2, h3, h4, h5⟩

theorem dmemWrite_wf {m : FloeMem} (h : (tabWf 0 m.dmem && tabWf 0 m.imem) = true) (o : Nat) (l : List Byte) :
    (tabWf 0 (dmemWrite m o l).dmem && tabWf 0 (dmemWrite m o l).imem) = true := by
  rw [Bool.and_eq_true] at h ⊢
  exact ⟨writeBytes_wf _ _ _ h.1, h.2⟩

theorem imemWrite_wf {m : FloeMem} (h : (tabWf 0 m.dmem && tabWf 0 m.imem) = true) (o : Nat) (l : List Byte) :
    (tabWf 0 (imemWrite m o l).dmem && tabWf 0 (imemWrite m o l).imem) = true := by
  induction l generalizing m o with
  | nil => exact h
  | cons b l ih =>
    refine ih ?_ _
    rw [Bool.and_eq_true] at h ⊢
    refine ⟨h.1, ?_⟩
    unfold imemPut
    dsimp only
    exact tabMod_wf _ _ _ h.2

/-- A change of a Floe's memories that keeps their form. -/
theorem modFmem_wf (h : Memory.wf s = true) (f : Nat) {g : FloeMem → FloeMem}
    (hg : ∀ m : FloeMem, (tabWf 0 m.dmem && tabWf 0 m.imem) = true →
      (tabWf 0 (g m).dmem && tabWf 0 (g m).imem) = true) : Memory.wf (modFmem s f g) = true := by
  obtain ⟨h1, h2, h3, h4, h5⟩ := memWf_iff.mp h
  exact memWf_iff.mpr ⟨h1, h2, h3, h4,
    tabMod_all (p := fun m : FloeMem => tabWf 0 m.dmem && tabWf 0 m.imem) (by rfl) hg h5⟩

/-- A write to memory on the Canal keeps the form wherever it goes. -/
theorem memWrite_wf (h : Memory.wf s = true) (a : Nat) (l : List Byte) : Memory.wf (memWrite s a l) = true := by
  obtain ⟨h1, h2, h3, h4, h5⟩ := memWf_iff.mp h
  unfold memWrite
  split
  · exact memWf_iff.mpr ⟨h1, h2, writeBytes_wf _ _ _ h3, h4, h5⟩
  · exact memWf_iff.mpr ⟨h1, h2, h3, writeBytes_wf _ _ _ h4, h5⟩
  · split
    · exact h
    · split
      · exact modFmem_wf h _ fun m hm => dmemWrite_wf hm _ _
      · split
        · exact modFmem_wf h _ fun m hm => imemWrite_wf (m := poisonClear m _ _) hm _ _
        · exact h
  · exact h

/-! ## Reports -/

theorem raiseVec_hostMem (s : State) (v : Nat) : (raiseVec s v).hostMem = s.hostMem := by
  unfold raiseVec; repeat' split
  all_goals rfl

theorem raiseMod_hostMem (s : State) (x : ModSrc) (v u : Nat) : (raiseMod s x v u).hostMem = s.hostMem := by
  unfold raiseMod; dsimp only; repeat' split
  all_goals first | rfl | exact raiseVec_hostMem ..

theorem putEntry_host (h : tabWf 0 s.hostMem = true) (e : List Byte) : tabWf 0 (putEntry s e).hostMem = true :=
  writeBytes_wf _ _ _ h

theorem deliver_host (h : tabWf 0 s.hostMem = true) (c : Cpl) : tabWf 0 (deliver s c).hostMem = true := by
  unfold deliver
  extract_lets s1 s2 n3 s3
  have h1 : tabWf 0 s1.hostMem = true := by
    unfold s1; split
    · exact writeBytes_wf _ _ _ h
    · exact h
  have h2 : tabWf 0 s2.hostMem = true := by
    unfold s2; split
    · exact putEntry_host h1 _
    · exact h1
  split
  · rw [raiseMod_hostMem]; exact h2
  · exact h2

theorem putRecord_host (h : tabWf 0 s.hostMem = true) (ty q t : Nat) (l : List (List Byte)) :
    tabWf 0 (putRecord s ty q t l).hostMem = true := by
  induction l generalizing s q with
  | nil => unfold putRecord; rw [raiseMod_hostMem]; exact h
  | cons b l ih => exact ih (putEntry_host h _) _

theorem drainCpls_host (h : tabWf 0 s.hostMem = true) (l : List Cpl) : tabWf 0 (drainCpls s l).hostMem = true := by
  induction l generalizing s with
  | nil => exact h
  | cons c l ih =>
    unfold drainCpls; split
    · exact ih (deliver_host h c)
    · exact h

theorem drainAlarms_host (h : tabWf 0 s.hostMem = true) (l : List AlarmRec) :
    tabWf 0 (drainAlarms s l).hostMem = true := by
  induction l generalizing s with
  | nil => exact h
  | cons c l ih =>
    unfold drainAlarms; split
    · exact ih (putRecord_host h ..)
    · exact ih h

theorem drainUnits_host (h : tabWf 0 s.hostMem = true) (l : List UnitEv) :
    tabWf 0 (drainUnits s l).hostMem = true := by
  induction l generalizing s with
  | nil => exact h
  | cons c l ih =>
    unfold drainUnits; dsimp only; split
    · exact ih (putRecord_host h ..)
    · exact h

theorem drainChans_host (h : tabWf 0 s.hostMem = true) (l : List ChanEv) :
    tabWf 0 (drainChans s l).hostMem = true := by
  induction l generalizing s with
  | nil => exact h
  | cons c l ih =>
    unfold drainChans; split
    · exact ih (putRecord_host h ..)
    · exact h

theorem drainLogs_host (h : tabWf 0 s.hostMem = true) (l : List LogRec) :
    tabWf 0 (drainLogs s l).hostMem = true := by
  induction l generalizing s with
  | nil => exact h
  | cons c l ih =>
    unfold drainLogs; dsimp only; split
    · exact ih (putRecord_host h ..)
    · exact h

theorem drainOthers_hostMem (s : State) : (drainOthers s).hostMem = s.hostMem := by
  unfold drainOthers takeFlash batchAdd
  dsimp only
  repeat' split
  all_goals rfl

theorem flushMsgs_hostMem (s : State) : (flushMsgs s).hostMem = s.hostMem := by
  unfold flushMsgs; split <;> rfl

/-- Settling keeps the memories in canonical form. -/
theorem settle_wf (h : Memory.wf s = true) : Memory.wf (settle s) = true := by
  obtain ⟨h1, h2, -⟩ := memWf_iff.mp h
  refine memWf_of_inside (settle_inside s) ?_ ?_ h
  · unfold settle
    rw [drainOthers_hostMem]
    exact drainLogs_host (drainChans_host (drainUnits_host (drainAlarms_host (drainCpls_host
      (by rw [flushMsgs_hostMem]; exact h1) _) _) _) _) _
  · rw [settle_berthMem]; exact h2

/-- A command's completion keeps them. -/
theorem complete_wf (h : Memory.wf s = true) (b : Nat) (x : NxHdr) (st o : Nat) (d : Word) (n : Nat) (r : List Byte) :
    Memory.wf (complete s b x st o d n r) = true := by
  have h1 := berthPut_wf (berthPut_wf h b 6 (leBytes st 2)) b 14
  unfold complete
  dsimp only
  split
  · exact berthPut_wf (h1 _) _ _ _
  · exact h1 _

end Sys2Proof.Machine
end

