-- ==== Sys2Proof/Laws/Nx.lean ====
section
/-! SUPPORT. What executing a berth can do, said once for every Norux command. -/

namespace Sys2Proof.Machine

/-- Taking a berth changes the queue of berths rung alone. -/
theorem nxAt_inside (s : State) (b : Nat) :
    (nxAt s b).inside = (takeBell s).inside := trace_inside ..

theorem nxAt_tdm (s : State) (b : Nat) : (nxAt s b).tdm = s.tdm := by
  rw [tdm_of_inside (nxAt_inside s b)]; rfl

theorem runNx_carry {sp : NxSpec} {b : Nat} {f : Fmt} {i : Instr} {body : NxHdr → State → NxRes} {s : State}
    (h : nxAccepted sp b f s = true) :
    runNx sp b f i body s = fin (carry (nxAt s b) sp f b (hdrOf s b) i body) ∧
    (if (hdrOf s b).dma && decide (0 < (hdrOf s b).inLen) then f.inFail else none) = none := by
  simp only [nxAccepted, nxTaken, Bool.and_eq_true, Bool.not_eq_true', beq_iff_eq] at h
  obtain ⟨⟨⟨⟨⟨h1, h2⟩, h3⟩, h4⟩, h5⟩, h6⟩ := h
  constructor
  · rw [Option.isNone_iff_eq_none] at h5
    unfold runNx
    simp [h1, h2, h3, h5, List.contains_iff_mem.mp h4]
  · split
    · next hc =>
      rw [hc, Bool.true_and, Option.isSome_eq_false_iff] at h6
      exact Option.isNone_iff_eq_none.mp h6
    · rfl

/-- A command whose effect is done at once: its effect, an audit record where the catalogue asks for one, its completion. -/
theorem runNx_direct {sp : NxSpec} {b : Nat} {f : Fmt} {i : Instr} {body : NxHdr → State → NxRes} {s u : State}
    {r : List Byte} {d : Nat} (h : nxDirect sp b f s = true) (hb : body (hdrOf s b) (nxAt s b) = .done u r d)
    (hr : replyFits (nxAt s b) (hdrOf s b) r.length = true) :
    ∃ u' o, u'.inside = u.inside ∧
      runNx sp b f i body s = .next (settle (complete u' b (hdrOf s b) 0 o noObj d r)) := by
  simp only [nxDirect, Bool.and_eq_true, Bool.not_eq_true'] at h
  obtain ⟨⟨h1, h7⟩, h8⟩ := h
  obtain ⟨e, hi⟩ := runNx_carry (i := i) (body := body) h1
  have ho : (if (hdrOf s b).dma && !r.isEmpty then f.outFail else none) = none := by
    rw [Option.isNone_iff_eq_none.mp h7]; simp
  have hp : (sp.prot (nxAt s b) (hdrOf s b).idx && decide ((nxAt s b).tdm.st = TdmSt.primary)) = false := by
    rw [nxAt_tdm]; exact h8
  let x := if sp.audit then audit u (hdrOf s b) 0 else u
  refine ⟨x, objState x (hdrOf s b).cls (hdrOf s b).idx, ?_, ?_⟩
  · unfold x; split
    · exact audit_inside ..
    · rfl
  · rw [e]
    unfold carry fin
    rw [hi, hb]
    simp only [hr, ho, hp, Bool.not_true, Bool.false_eq_true, if_false]
    rfl

theorem runNx_done {sp : NxSpec} {b : Nat} {f : Fmt} {i : Instr} {body : NxHdr → State → NxRes} {s u : State}
    {r : List Byte} {d : Nat} (h : nxDirect sp b f s = true) (hb : body (hdrOf s b) (nxAt s b) = .done u r d)
    (hr : replyFits (nxAt s b) (hdrOf s b) r.length = true) : Gives (runNx sp b f i body s) u := by
  obtain ⟨u', o, h1, h2⟩ := runNx_direct (i := i) h hb hr
  rw [h2]
  show (settle _).inside = _
  rw [settle_inside, complete_inside, h1]

theorem replyFits_nil (s : State) (h : NxHdr) : replyFits s h 0 = true := by
  unfold replyFits; split <;> simp

/-- A command done at once and without a reply. -/
theorem runNx_ok {sp : NxSpec} {b : Nat} {f : Fmt} {i : Instr} {body : NxHdr → State → NxRes} {s u : State}
    (h : nxDirect sp b f s = true) (hb : body (hdrOf s b) (nxAt s b) = ok u) : Gives (runNx sp b f i body s) u :=
  runNx_done h hb (replyFits_nil ..)

/-- A command done at once whose reply stands in its berth. -/
theorem runNx_reply {sp : NxSpec} {b : Nat} {f : Fmt} {i : Instr} {body : NxHdr → State → NxRes} {s u : State}
    {r : List Byte} {d : Nat} (h : nxInBerth sp b f s r.length = true)
    (hb : body (hdrOf s b) (nxAt s b) = .done u r d) : Replies (runNx sp b f i body s) u b r := by
  simp only [nxInBerth, Bool.and_eq_true, Bool.not_eq_true', decide_eq_true_iff] at h
  obtain ⟨⟨h1, h2⟩, h3⟩ := h
  have hp : payloadMax (nxAt s b) = payloadMax s := by
    unfold payloadMax berthSize; rw [dev_of_inside (nxAt_inside s b)]; rfl
  have hl : payloadMax s ≤ 240 := by unfold payloadMax berthSize; split <;> omega
  have hr : replyFits (nxAt s b) (hdrOf s b) r.length = true := by
    unfold replyFits; rw [h2, hp]; simpa using h3
  obtain ⟨u', o, h4, h5⟩ := runNx_direct (i := i) h1 hb hr
  rw [h5]
  refine ⟨?_, settle_shows (complete_shows _ _ _ _ _ _ _ _ h2 (by omega) (by omega))⟩
  rw [settle_inside, complete_inside, h4]

/-- A command that its own rules turn away leaves nothing behind but its reports, and its berth shows the code. -/
theorem runNx_refuse {sp : NxSpec} {b : Nat} {f : Fmt} {i : Instr} {body : NxHdr → State → NxRes} {s : State}
    {c d : Nat} {o : Word} (h : nxAccepted sp b f s = true) (hb : body (hdrOf s b) (nxAt s b) = .refuse c o d)
    (hc : c < 65536) : Answers (runNx sp b f i body s) fun t =>
      t.inside = (takeBell s).inside ∧ ((hdrOf s b).dma = false → berthShows t b c []) := by
  obtain ⟨e, hi⟩ := runNx_carry (i := i) (body := body) h
  rw [e]
  unfold carry
  rw [hi, hb]
  show (settle _).inside = _ ∧ _
  rw [settle_inside, refused_inside, nxAt_inside]
  refine ⟨rfl, fun hd => settle_shows ?_⟩
  unfold refused
  exact complete_shows _ _ _ _ _ _ _ _ hd hc (by decide)

/-- A long command's effect so far, with the command in progress (R460). -/
theorem runNx_long {sp : NxSpec} {b : Nat} {f : Fmt} {i : Instr} {body : NxHdr → State → NxRes} {s u : State}
    {w : LongWork} (h : nxAccepted sp b f s = true) (hb : body (hdrOf s b) (nxAt s b) = .long u w) :
    Gives (runNx sp b f i body s) (addLong u b (hdrOf s b) w) := by
  obtain ⟨e, hi⟩ := runNx_carry (i := i) (body := body) h
  rw [e]
  show (settle _).inside = _
  rw [settle_inside]
  unfold carry
  rw [hi, hb]

end Sys2Proof.Machine
end

