-- ==== Sys2Proof/WellFormed.lean ====
section
/-! DEFINITION. Well-formed commands: every number that names a part of the device names one that exists. -/

namespace Sys2Proof

open Machine

/-- The numbers of a register lie in their ranges. -/
def Machine.RegName.wf : RegName → Bool
  | .ringBase q _ => decide (q < 128)
  | .msix v k => decide (v < 256) && decide (k < 4)
  | .lkpWeight g => decide (g < 8)
  | .sluCoef l n => decide (l < 16) && decide (n < 2048)
  | .quayCtrl p | .quayMaxFrame p | .quayCorr p _ | .quayFilter p | .quayTxcfg p | .quayDefring p | .tsqCfg p => decide (p < 4)
  | .quayUc p u _ => decide (p < 4) && decide (u < 16)
  | .quayHash p w => decide (p < 4) && decide (w < 128)
  | .scratch | .cplBase _ | .lkpCeil | .sluSync | .tbCtrl | .tbPps | .rimeCtrl | .readOnly => true

/-- A code check names a bit of the 72 of a stored word (R20, R65). -/
def Machine.Ecc.wf : Ecc → Bool
  | .corrected b => decide (b < 72)
  | .ok | .bad => true

/-- A well-formed command. -/
def Instr.wf : Instr → Bool
  -- MSI-X vectors
  | .msixUnmask v => decide (v < 256)
  -- berths
  | .longCommandComplete b _ _ _ => decide (b < 64)
  -- berths (R456)
  | .nxDevInfo b _ | .nxDevStatus b _ | .nxDevService b _ | .nxDevReady b _ | .nxDevSelftest b _
  | .nxDevReset b _ _ | .nxDevHalt b _ | .nxNegStatus b _ | .nxDdrFence b _ _ _ | .nxNevePartition b _ _
  | .nxChanDefine b _ _ | .nxChanSet b _ _ | .nxChanEnable b _ | .nxChanStart b _ | .nxChanStop b _
  | .nxChanDisable b _ | .nxChanFree b _ | .nxChanClear b _ | .nxChanGet b _ | .nxChanStats b _ | .nxEcReset b _
  | .nxTonePlan b _ _ | .nxGpiMap b _ _ | .nxModLoad b _ _ _ | .nxModUnload b _ | .nxModList b _ | .nxFloeStats b _
  | .nxLkpMode b _ _ | .nxLkpGroup b _ _ _ | .nxLkpTick b _ _ | .nxLkpPurge b _ | .nxLkpStats b _
  | .nxBsnPool b _ _ _ | .nxBsnStats b _ | .nxRingDefine b _ _ _ | .nxRingEnable b _ | .nxRingMark b _ _
  | .nxRingRewind b _ _ | .nxRingRead b _ _ _ | .nxRingDisable b _ | .nxRingFree b _ | .nxRingStats b _
  | .nxJctBusDefine b _ _ _ _ | .nxJctBusSet b _ _ _ _ | .nxJctBusEnable b _ | .nxJctBusDisable b _
  | .nxJctBusFree b _ | .nxJctXpAdd b _ _ _ _ | .nxJctXpSet b _ _ | .nxJctXpDelete b _ | .nxJctStats b _
  | .nxSluStop b _ | .nxSluStart b _ | .nxSluLoad b _ _ _ | .nxSluCtxBind b _ _ _ _ _ _ _ | .nxSluCtxSet b _ _ _ _
  | .nxSluCtxFree b _ | .nxSluSync b _ | .nxSluStats b _ | .nxQuaySet b _ _ | .nxQuayFilter b _ _
  | .nxQuayGate b _ _ _ _ | .nxFlowAdd b _ _ _ _ _ _ _ _ _ _ _ | .nxFlowDel b _ | .nxQuayStats b _
  | .nxRxsDefine b _ _ | .nxRxsSet b _ _ | .nxRxsEnable b _ | .nxRxsDisable b _ | .nxRxsFree b _ | .nxRxsStats b _
  | .nxTxsDefine b _ _ | .nxTxsSet b _ _ | .nxTxsEnable b _ | .nxTxsDisable b _ | .nxTxsFree b _ | .nxTxsStats b _
  | .nxTdmSet b _ _ | .nxTdmDrill b _ _ _ | .nxTdmStats b _ | .nxTbDomainSet b _ _ | .nxTbDomainEnable b _
  | .nxTbDomainDisable b _ | .nxTbSelect b _ _ _ _ | .nxTbPps b _ _ _ _ _ | .nxTbSetTod b _ _ _ _ | .nxTbStats b _
  | .nxRimeRootProg b _ _ _ | .nxRimeKeySet b _ _ _ _ _ _ _ _ _ | .nxRimeKeyClear b _ | .nxRimeKeyGet b _
  | .nxRimeSet b _ _ | .nxRimeXts b _ _ _ | .nxRimeStats b _ | .nxFirnStats b _ | .nxStrProbe b _ _
  | .nxStrRead b _ | .nxIceSensors b _ _ | .nxIceLogRead b _ _ _ _ | .nxIceLogSet b _ _ | .nxIceHoldup b _ _
  | .nxFwUpdate b _ _ _ _ | .nxFwActivate b _ | .nxKeyEnroll b _ _ _ | .nxLportSet b _ _ | .nxLportStats b _
  | .nxNivoTap b _ _ | .nxNivoInfo b _ => decide (b < 64)
  -- channel numbers (R70)
  | .processingFrameBoundary c | .drainEnd c | .playoutDecision c | .stretchInsert c | .bsnDriftLimit c | .slip c
  | .liftChannel c _ => decide (c < 8192)
  -- Floe numbers (R118)
  | .bundleIssue f _ _ _ _ _ | .imemRewriteDone f | .floeCtrlWrite f _ _ | .floeStatusWrite f _ _
  | .floeGovWrite f _ _ _ | .floeFaultCntRead f | .floeEccRead f | .floeRetiredRead f | .floeStallsRead f => decide (f < 96)
  -- flume numbers (R68)
  | .flumePush i _ | .flumeFullClear i | .flmUeWrite _ i _ | .flmCeRead _ i | .flmUeRead _ i => decide (i < 686)
  -- Lockkeeper banks
  | .govQueueTake k => decide (k < 8)
  -- reach numbers
  | .lkpInjDataWrite r _ _ | .lkpInjPush r _ | .rimeRequest r _ _ | .rimeDispatch r _ | .derivationDone r _ _
  | .lkpInjDropRead r | .lkpPeakRead r _ _ | .lkpCountRead r _ | .lkpDispRead r _ | .rimeCountRead r _ _ => decide (r < 4)
  -- Junction slices
  | .jctSliceStatusWrite n _ | .jctSliceCountRead n _ => decide (n < 8)
  -- Sluice lanes
  | .sluiceRequest l _ _ | .coefRewriteDone l | .sluLaneCtrlWrite l _ _ | .sluCountRead l _ => decide (l < 16)
  -- Quay ports
  | .frameReceive n _ _ _ _ _ _ | .pauseExpire n _ | .frameRelease n _ _ | .txAssemblyDeadline n _
  | .frameStart n _ _ _ _ | .frameSent n | .gateIntervalEnd n _ | .gateListSwitch n _ | .linkUp n _ _ _
  | .linkDown n | .ethLinkTimeout n _ | .ethNegRetry n | .tbTsqPop _ n _ | .quayCounterRead _ n _ _ _
  | .tbTsqCountRead _ n _ => decide (n < 4)
  -- flow entries
  | .flowEntryRewrite e => decide (e < 65536)
  -- DMA rings
  | .txDescriptorFetch g _ => decide (g < 128)
  -- DMA rings
  | .ringTailWrite q _ | .ringCfgEnWrite q _ | .ringStatusWrite q _ | .ringCountRead q _ _ => decide (q < 128)
  -- streams
  | .weirLegSilent n _ _ | .weirContextRebuild n | .streamEpochRecord n _ _ => decide (n < 16384)
  -- Weir units
  | .weirAuthFailReport u | .weirTxDuplicate u => decide (u < 4)
  -- time domains
  | .delayReqSend x | .servoStateTimeout x | .ptpNoGm x | .ppsOutEdge x | .ppsInEdge x _ _ | .tbPpsInNsRead _ x
  | .tbPpsInCntRead _ x => decide (x < 2)
  -- Firn engines
  | .firnJob e _ _ | .firnCtrlWrite e _ | .firnCountRead e _ _ => decide (e < 4)
  -- temperature sensors
  | .tempTrip i _ => decide (i < 24)
  -- voltage monitors
  | .voltRange i _ _ => decide (i < 16)
  -- timing domains (R21)
  | .islandSlow d => decide (d < 248)
  -- LPDDR5X channels
  | .soundingRetrain c _ => decide (c < 8)
  -- Strata probes
  | .strataSample p _ _ | .strCntRead _ p _ => decide (p < 64)
  -- flash regions
  | .logFlush r _ => decide (r < 3)
  -- local ports
  | .tdmFrame n _ _ _ _ | .lportNoClock n | .lportUnlocked n => decide (n < 8)
  -- record sequences
  | .nivoI2cSeqSelect q => decide (q < 4294967296)
  -- times
  | .tbTodNsRead _ x => decide (x < 3)
  | .registerWrite _ r _ => r.wf
  | .berthWrite o l => decide (o + l.length ≤ 16384)
  | .workItemStart f ecc => decide (f < 96) && ecc.all Machine.Ecc.wf
  | .canalTransferComplete f _ a => decide (f < 96) && a.errs.all (fun p => p.2.wf) && a.merge.wf
  | .flumePop i ecc => decide (i < 686) && ecc.all Machine.Ecc.wf
  | .flumeEmptyClear i ecc => decide (i < 686) && ecc.all Machine.Ecc.wf
  | .workItemAdmit _ ecc => ecc.all Machine.Ecc.wf
  | .retireRecord f ecc => decide (f < 96) && ecc.all Machine.Ecc.wf
  | .govEventRecord f ecc => decide (f < 96) && ecc.all Machine.Ecc.wf
  | .packetArrival r => decide (r.no < 4) && r.errs.all (fun p => p.2.wf)
  | .sluiceRequestDone l _ _ => decide (l.no < 16) && l.errs.all (fun p => p.2.wf)
  | .frameClassify n ecc _ => decide (n < 4) && ecc.all (fun l => l.all Machine.Ecc.wf)
  | .rxDmaPlace n _ => decide (n.no < 4) && n.errs.all (fun p => p.2.wf)
  | .txLaneMove n _ ecc => decide (n < 4) && ecc.all (fun l => l.all Machine.Ecc.wf)
  | .weirArrival u _ => decide (u.no < 4) && u.errs.all (fun p => p.2.wf)
  | .ptpMessage n ecc _ => decide (n < 4) && ecc.all (fun l => l.all Machine.Ecc.wf)
  | .rimeRequestDone r _ => decide (r.no < 4) && r.errs.all (fun p => p.2.wf)
  | .firnJobDone e _ _ => decide (e.no < 4) && e.errs.all (fun p => p.2.wf)
  | .ploughRead _ _ e _ => e.wf
  | .resetNRise .. | .resetNFall .. | .selftestDone .. | .pcieLinkChange .. | .busMasterEnableChange ..
  | .functionLevelReset0 .. | .bar0UnmappedAccess .. | .nxDoorbell .. | .nxCplCfgEnWrite .. | .nxCplHeadWrite ..
  | .canalStall .. | .blockBoundary .. | .sluSyncEdge .. | .aliveToggle .. | .tandemHelloReceive ..
  | .mirroredCommand .. | .indexReport .. | .liftComplete .. | .drillSwap .. | .mediaTick .. | .sensorRead ..
  | .recoveryDone .. | .ablationCheck .. | .driftSnapshot .. | .holdupRecheck .. | .flashOpDone ..
  | .tapFrameReceive .. | .usageLinkClose .. | .selectionReceive .. | .measureInterval .. | .nivoSealNChange ..
  | .nivoUpdNChange .. | .nivoFirmwareActivate .. | .nivoHoldupLow .. | .nivoPowerOn .. | .nivoDieFault ..
  | .nivoStatePoll .. | .iceSramUe .. | .modUsIntervalEnd .. | .nivoI2cUpdateWrite .. | .function1Write ..
  | .nxCountRead .. | .sluSyncTickRead .. | .weirTdmCountRead .. | .tbOffsetAbRead .. | .pciePerstN
  | .functionLevelReset1 | .devUnmappedRead | .towpathTick | .sluSyncIgnRead | .peerLost | .tandemLinkLoss
  | .tandemHelloSend | .mirrorApply | .liftAbort | .muteEnd | .switchInstant | .slewEnd | .autoSwitch
  | .tbRefclkLost | .iceLockstep | .devHeartbeat | .soundingCalibrate | .alarmSecond | .logSecond | .pwrfailNFall
  | .pwrfailNRise | .tapGather | .tapFrameSend | .selectionAck | .selectionRetry => true

end Sys2Proof
end

