-- ==== Sys2Proof/Tests/Slice0.lean ====
section
/-! SUPPORT. The model's own tests: ill-formed commands refused by WellFormed, worked cases of the spec, and for every statement with
hypotheses a state and operands that meet them (wit_<statement>). -/

namespace Sys2Proof.Tests

open Sys2Proof.Machine

/-! ## States the tests start from -/

/-- Both format checks pass, no host access fails. -/
def plain : Fmt := ⟨true, true, none, none⟩

/-- A device in a state of R471 with the interpreter up and the PCI Express link and Bus Master Enable on. -/
def upIn (d : DevState) : State :=
  { State.reset with
    dev := { Dev.reset with devState := d, nxUp := true, inReset := false }
    pcie := { linkUp := true, gen := 5, width := 8, busMaster := true } }

/-- SERVICE. -/
def svc : State := upIn .service
/-- READY. -/
def rdy : State := upIn .ready

/-- s with a command in berth 0, rung: opcode, LEN, OBJECT, FLAGS and the payload. -/
def cmd (s : State) (op obj : Nat) (flags : Nat := 0) (pay : List Byte := []) : State :=
  { s with nx := { s.nx with
    rung := [0], busy := [0]
    berthMem := writeBytes [] 0 (leBytes op 2 ++ leBytes 7 2 ++ leBytes pay.length 2 ++ leBytes 0 2 ++ leBytes obj 4
      ++ leBytes flags 1 ++ leBytes 0 3 ++ pay) } }

/-- As cmd, with a DMA descriptor: bytes in and out. -/
def cmdDma (s : State) (op obj : Nat) (inLen outLen : Nat) (flags : Nat := 1) : State :=
  cmd s op obj flags (leBytes 0x1000 8 ++ leBytes inLen 4 ++ leBytes 0x2000 8 ++ leBytes outLen 4)

set_option maxRecDepth 20000 in
theorem wit_BerthDoorbells :
    (nxSpecOf (.nxDevInfo 0 plain) = some (0, plain, spNxDevInfo)) ∧
    (nxReady State.reset 0 = false) ∧
    (svc.dev.inReset = false ∧ svc.dev.compatQ48 = false ∧ ∀ i : Nat, i < 32 → svc.nx.busy.contains (32 + i) = false) ∧
    (accessOk true (0x10000 + 256) 4 = true ∧ (cmd svc 1 0).nx.busy.contains 0 = true) :=
  ⟨by rfl, by decide, by decide, by decide⟩

set_option maxRecDepth 20000 in
theorem wit_CommandChecks :
    (nxTaken spNxDevInfo 0 (cmd svc 0x0001 0 4) = true ∧
  (judge (nxAt (cmd svc 0x0001 0 4) 0) spNxDevInfo plain (hdrOf (cmd svc 0x0001 0 4) 0)) = some 0x0104) ∧
    (blockDue (cmd svc 0x0001 0 4) = false ∧ blockDue (cmd svc 0x0999 0) = false) ∧
    (nxReady (cmd svc 0x0999 0) 0 = true ∧ inputOk (cmd svc 0x0999 0) (hdrOf (cmd svc 0x0999 0) 0) = true ∧
  opcodes.contains (hdrOf (cmd svc 0x0999 0) 0).opcode = false) ∧
    ((hdrOf (cmd svc 0x0001 0x01000000) 0).cls ≠ spNxDevInfo.cls ∧ (hdrOf (cmd svc 0x0001 0x01000000) 0).len ≤ payloadMax svc) ∧
    (idxOk 0x0101 1 8192 = false ∧ idxOk 0x0101 1 8191 = true) ∧
    (fmtCheck svc spNxDevSelftest plain (hdrOf (cmd svc 0x0005 0) 0) = none ∧ spNxDevSelftest.states.contains svc.dev.devState = false ∧
  ¬ ((hdrOf (cmd svc 0x0005 0) 0).opcode / 256 = 0x0B ∨ spNxDevSelftest.rime = true) ∧ svc.tdm.st = .off) :=
  ⟨by decide, by decide, by decide, by decide, by decide, by decide⟩

/-- The completion ring runs, its base at 0x8000. -/
  def ringUp : State := { svc with nx := { svc.nx with cplBase := 0x8000, cplEn := true, cplPhase := true, cplTail := 127, cplHead := 5 } }

/-- A completion without DMA reply. -/
  def someCpl : Cpl := ⟨0, 7, 0, 1, 0, .service, 0, 0xFFFFFFFF, 0, 0, none⟩

set_option maxRecDepth 20000 in
theorem wit_CompletionRing :
    (ringUp.nx.cplEn = true ∧ someCpl.dma = none) ∧
    (barLive svc .host = true ∧ svc.nx.cplEn = false ∧ (0x80000007 : Word).getLsbD 31 = true ∧ svc.nx.cplBase.toNat % 4096 = 0 ∧
  7 ≤ bitsOf (0x80000007 : Word).toNat 4 0) ∧
    ((0x80000006 : Word).getLsbD 31 = true ∧ ¬ 7 ≤ bitsOf (0x80000006 : Word).toNat 4 0) ∧
    (barLive ringUp .host = true) :=
  ⟨by decide, by decide, by decide, by decide⟩

/-- Vector 3 is pending and masked; the ring's moderation interval runs with a raise held back. -/
  def vecUp : State := { svc with
    msix := { svc.msix with pendBits := [3, 0] }, modu := { running := [.cpl], held := [.cpl] } }

set_option maxRecDepth 20000 in
theorem wit_BarAccesses :
    (svc.dev.inReset = false ∧ (bar0Mapped 0xFFFFF0 && accessOk true 0xFFFFF0 4) = false) ∧
    (barLive svc .host = true ∧ svc.dev.nxUp = true ∧ svc.nx.cplEn = false ∧ svc.dev.iceRuns = true) ∧
    (barLive vecUp .host = true ∧ vecUp.msix.pendBits.contains 3 = true ∧ hostOk vecUp = true) ∧
    (vecUp.modu.running.contains .cpl = true ∧ vecUp.modu.held.contains .cpl = true ∧
  vecUp.msix.unmasked.contains vecUp.nx.cplVector = false) :=
  ⟨by decide, by decide, by decide, by decide⟩

set_option maxRecDepth 20000 in
theorem wit_MemoryInvariant :
    (Memory.wf State.reset = true) ∧
    (step State.reset = .next State.reset) :=
  ⟨by decide, by rfl⟩

set_option maxRecDepth 20000 in
theorem wit_DeviceAndLink :
    (nxInBerth spNxDevInfo 0 plain (cmd svc 0x0001 0) 36 = true ∧ nxInBerth spNxDevStatus 0 plain (cmd svc 0x0002 0) 20 = true) ∧
    (nxInBerth spNxNegStatus 0 plain (cmd svc 0x0008 0) 216 = true) ∧
    (nxDirect spNxDdrFence 0 plain (cmd rdy 0x0009 0) = true ∧ (addOnce (fenceList rdy) 7).length ≤ 4) ∧
    (nxDirect spNxNevePartition 0 plain (cmd rdy 0x0010 0x16000000) = true ∧ Fabric.reset.parts.sum = 32768 ∧ Fabric.reset.parts.length = 7 ∧
  headChans rdy ≤ 8192 ∧ Fabric.reset.parts.all (fun n => n % 256 == 0) = true) ∧
    (svc.dev.inReset = false) :=
  ⟨by decide, by decide, by decide, by decide, by decide⟩

/-- READY with the self-test ended and Lockkeeper in chamber mode. -/
  def rdyChamber : State := { rdy with dev := { rdy.dev with tested := true }, lkp := { rdy.lkp with thread := false } }

/-- What a boot finds: both images good, eight trained LPDDR5X channels, no module. -/
  def bootIn : BootIn := ⟨120000, true, true, .vid, 5, 7500, 7500, List.replicate 8 (3, 0), []⟩

set_option maxRecDepth 20000 in
theorem wit_DeviceStateCommands :
    (nxDirect spNxDevService 0 plain (cmd rdyChamber 0x0003 0) = true ∧ (nxAt (cmd rdyChamber 0x0003 0) 0).lkp.thread = false ∧
  1 ≤ floesLive rdyChamber ∧ portEnabled rdyChamber = true) ∧
    (tdmOutcome (nxAt (cmd rdyChamber 0x0003 0) 0) = .inr (.off, .disabled, 0)) ∧
    (nxDirect spNxDevReady 0 plain (cmd svc 0x0004 0) = true ∧ svc.dev.devState ≠ .recovery) ∧
    (nxDirect spNxDevReady 0 plain (cmd { upIn .recovery with dev := { (upIn .recovery).dev with rcvDone := true } } 0x0004 0) = true) ∧
    (nxAccepted spNxDevSelftest 0 plain (cmd rdy 0x0005 0) = true ∧ modeRefusal (nxAt (cmd rdy 0x0005 0) 0) true = none) ∧
    (nxDirect spNxDevHalt 0 plain (cmd svc 0x0007 0) = true ∧ nxDirect devResetSpec 0 plain (cmd svc 0x0006 0) = true) :=
  ⟨by decide, by rfl, by decide, by decide, by decide, by decide⟩

set_option maxRecDepth 20000 in
theorem wit_ResetAndBoot :
    (State.reset.dev.inReset = true ∧ bootIn.okA = true ∧ bootIn.okB = true ∧ bootIn.mods = [] ∧
  bootIn.ddr = List.replicate 8 (3, 0) ∧ State.reset.ice.stored.ddrFence = []) ∧
    ((upIn .selftest).dev.inReset = false ∧ (upIn .selftest).dev.iceRuns = true ∧ (upIn .selftest).dev.devState = .selftest) :=
  ⟨by decide, by decide⟩

/-- SERVICE with one channel. -/
  def withChan (d : DevState) (k : Nat) (x : Chan) : State := modChan (upIn d) k fun _ => x

/-- A channel over G.711 without line canceller, everything else at its default, in a state. -/
  def chIn (st : ChanSt) : Chan := { defineChan [.ecOn false] with st := st }

set_option maxRecDepth 20000 in
theorem wit_ChannelLegalStates :
    (nxAccepted (spNxChanDefine [.programme true]) 0 plain (cmd rdy 0x0101 0x01001FFF) = true) ∧
    (nxAccepted (spNxChanSet [.rxGain 240]) 0 plain (cmd (withChan .service 8191 (chIn .running)) 0x0102 0x01001FFF) = true) ∧
    (nxAccepted spNxChanEnable 0 plain (cmd (withChan .service 5 (chIn .defined)) 0x0103 0x01000005) = true ∧
  nxAccepted spNxChanStart 0 plain (cmd (withChan .service 5 (chIn .armed)) 0x0104 0x01000005) = true ∧
  nxAccepted spNxChanStop 0 plain (cmd (withChan .service 5 (chIn .running)) 0x0105 0x01000005) = true) ∧
    (nxAccepted spNxChanDisable 0 plain (cmd (withChan .service 5 (chIn .armed)) 0x0106 0x01000005) = true ∧
  nxAccepted spNxChanFree 0 plain (cmd (withChan .ready 5 (chIn .defined)) 0x0107 0x01000005) = true ∧
  nxAccepted spNxChanClear 0 plain (cmd (withChan .ready 5 (chIn .faulted)) 0x0108 0x01000005) = true ∧
  nxAccepted spNxEcReset 0 plain (cmd (withChan .service 5 (chIn .running)) 0x010B 0x01000005) = true) ∧
    (nxAccepted spNxChanGet 0 plain (cmd (upIn .recovery) 0x0109 0x01000005) = true ∧
  nxAccepted spNxTonePlan 0 plain (cmd rdy 0x010C 0x1500000F) = true ∧
  nxAccepted spNxGpiMap 0 plain (cmd rdy 0x010D 0) = true) ∧
    (nxAccepted (spNxChanSet [.rxGain 10, .prio 3]) 0 plain (cmd (withChan .service 5 (chIn .armed)) 0x0102 0x01000005) = true ∧
  (chanOf (nxAt (cmd (withChan .service 5 (chIn .armed)) 0x0102 0x01000005) 0) 5).st ≠ .defined ∧
  [ParSet.rxGain 10, .prio 3].any ParSet.structural = true ∧ (hdrOf (cmd (withChan .service 5 (chIn .armed)) 0x0102 0x01000005) 0).dma = false) :=
  ⟨by decide, by decide, by decide, by decide, by decide, by decide⟩

/-- SERVICE in service mode with Floes 1 and 95 running, the G.711 µ-law module loaded, and a channel defined. -/
  def enableIn : State :=
    { withChan .service 5 (chIn .defined) with
      floes := [(1, { Floe.reset with run := true }), (95, { Floe.reset with run := true })]
      lkp := { State.reset.lkp with thread := false }
      mods := [⟨(Config.fnModule 6).toNat, 1, false, false, true, 0, 1, 0, 0, 0, 0, [], [], []⟩] }

/-- The rules on a channel, one after the other. -/
  def ruleList (u : State) : List (Bool × Nat × Word) :=
    rules112 u 5 ++ rules243 u 5 ++ rules271 u 5 ++ rules342 u 5 ++ rules432 u 5 ++ rules367 u 5

set_option maxRecDepth 20000 in
  theorem wit_ChannelEnable_rules : firstBad (ruleList (nxAt (cmd enableIn 0x0103 0x01000005) 0)) = none := by
    have h : ((chanOf (nxAt (cmd enableIn 0x0103 0x01000005) 0) 5).functions.all fun f =>
        (nxAt (cmd enableIn 0x0103 0x01000005) 0).mods.any fun m => m.modId == (Config.fnModule f).toNat) = true := by
      show ([6].all fun f => [(Config.fnModule 6).toNat].any fun m => m == (Config.fnModule f).toNat) = true
      simp
    unfold ruleList rules112
    simp only [h]
    rfl

set_option maxRecDepth 20000 in
  theorem wit_ChannelEnable_bind : (bindChan (nxAt (cmd enableIn 0x0103 0x01000005) 0) 5).isOk = true := by
    have h : chanCost (nxAt (cmd enableIn 0x0103 0x01000005) 0) 5 = 13 := by
      show 13 + (((([⟨(Config.fnModule 6).toNat, 1, false, false, true, 0, 1, 0, 0, 0, 0, [], [], []⟩] : List Module).filter fun m =>
        Config.chanUses 5 m.modId)).map fun m => m.fuCost.getD 0 0).sum = 13
      cases hc : Config.chanUses 5 (Config.fnModule 6).toNat <;> simp [List.filter, hc]
    unfold bindChan
    rw [h]
    rfl

set_option maxRecDepth 20000 in
theorem wit_ChannelCommands :
    (nxDirect (spNxChanDefine [.rxGain (-240), .prio 15]) 0 plain (cmd svc 0x0101 0x01001FFF) = true ∧
  [ParSet.rxGain (-240), .prio 15].all ParSet.inRange = true ∧ (defineChan [.rxGain (-240), .prio 15]).core.codec ≠ .aes3) ∧
    (nxDirect (spNxChanSet [.prio 3]) 0 plain (cmd (withChan .service 5 (chIn .defined)) 0x0102 0x01000005) = true ∧
  tapped (nxAt (cmd (withChan .service 5 (chIn .defined)) 0x0102 0x01000005) 0) 5 = false ∧
  (chanOf (nxAt (cmd (withChan .service 5 (chIn .defined)) 0x0102 0x01000005) 0) 5).st = .defined) ∧
    (nxDirect (spNxChanSet [.txGain 240]) 0 plain (cmd (withChan .service 5 (chIn .armed)) 0x0102 0x01000005) = true ∧
  tapped (nxAt (cmd (withChan .service 5 (chIn .armed)) 0x0102 0x01000005) 0) 5 = false ∧
  [ParSet.txGain 240].any ParSet.structural = false ∧ ((chIn .armed).sets [.txGain 240]).core.codec ≠ .aes3) ∧
    (nxDirect spNxChanStart 0 plain (cmd (withChan .service 5 (chIn .armed)) 0x0104 0x01000005) = true ∧
  nxDirect spNxChanStop 0 plain (cmd (withChan .service 5 (chIn .running)) 0x0105 0x01000005) = true ∧
  nxDirect spNxChanDisable 0 plain (cmd (withChan .service 5 (chIn .armed)) 0x0106 0x01000005) = true ∧
  nxDirect spNxChanFree 0 plain (cmd (withChan .ready 5 (chIn .defined)) 0x0107 0x01000005) = true ∧
  tapped (nxAt (cmd (withChan .ready 5 (chIn .defined)) 0x0107 0x01000005) 0) 5 = false) ∧
    (nxDirect spNxChanClear 0 plain (cmd (withChan .ready 5 (chIn .faulted)) 0x0108 0x01000005) = true ∧
  nxDirect spNxEcReset 0 plain (cmd (withChan .service 5 (chIn .running)) 0x010B 0x01000005) = true) ∧
    ((defineChan [.rxGain (-240), .prio 15]).core.keysDiffer = true ∧ ((chIn .defined).sets [.prio 3]).core.keysDiffer = true ∧
  ((chIn .armed).sets [.txGain 240]).core.keysDiffer = true) ∧
    (nxAccepted (spNxChanDefine [.keyTx (some 5), .keyTxB (some 5)]) 0 plain (cmd svc 0x0101 0x01001FFF) = true ∧
  (defineChan [.keyTx (some 5), .keyTxB (some 5)]).core.keysDiffer = false) :=
  ⟨by decide, by decide, by decide, by decide, by decide, by decide, by decide⟩

/-- Channel 5 with n events waiting. -/
  def evIn (n : Nat) : State :=
    { svc with nx := { svc.nx with chanQ := List.replicate n ⟨5, 0x20, false, false, false, 0, 0, 0, 0⟩ } }

set_option maxRecDepth 20000 in
theorem wit_ChannelEnable :
    (nxDirect spNxChanEnable 0 plain (cmd enableIn 0x0103 0x01000005) = true ∧ (hdrOf (cmd enableIn 0x0103 0x01000005) 0).dma = false ∧
  placeOn (nxAt (cmd enableIn 0x0103 0x01000005) 0) 13 = some 1) ∧
    ((let s := cmd (withChan .service 5 { chIn .defined with core := { (chIn .defined).core with rxSrc := .stream 16383 } }) 0x0103 0x01000005
  nxAccepted spNxChanEnable 0 plain s = true ∧ (firstBad (rules112 (nxAt s 0) 5)) = some (0x0130, 0x0A003FFF))) ∧
    (placeOn enableIn 9800 = some 1 ∧ placeOn enableIn 9801 = none ∧ servesChannels enableIn 95 = true) :=
  ⟨by decide, by decide, by decide⟩

set_option maxRecDepth 20000 in
theorem wit_ChannelEvents :
    (16 ≤ ((evIn 16).nx.chanQ.filter fun e => e.chan == 5).length ∧ ((evIn 15).nx.chanQ.filter fun e => e.chan == 5).length < 16) ∧
    (nxInBerth spNxChanStats 0 plain (cmd svc 0x010A 0x01000005 2) 144 = true) ∧
    (nxFits spNxChanGet 0 plain (cmdDma svc 0x0109 0x01000005 0 4096) (replyOf [chanVals (chanOf svc 5)]).length = true) :=
  ⟨by decide, by decide, by decide⟩

set_option maxRecDepth 20000 in
theorem wit_ChannelBoundaries :
    ((chanOf (withChan .service 5 (chIn .armed)) 5).st = .armed ∧ tick48 (withChan .service 5 (chIn .armed)) % 480 = 0 ∧
  (chanOf (withChan .service 5 { chIn .running with starting := true }) 5).starting = true ∧
  frameOf (withChan .service 5 { chIn .running with starting := true }) 5 = 480) ∧
    ((let s := withChan .service 5 { chIn .draining with drainAt := 0 }
  (chanOf s 5).st = .draining ∧ (chanOf s 5).drainAt ≤ tick48 s ∧ (s.nx.chanQ.filter fun e => e.chan == 5).length < 16)) ∧
    (nxDirect spNxTonePlan 0 plain (cmd rdy 0x010C 0x1500000F) = true ∧ nxDirect spNxGpiMap 0 plain (cmd rdy 0x010D 0) = true) :=
  ⟨by decide, by decide, by decide⟩

/-- A flume item of n words of zero. -/
  def item (n : Nat) : FItem := ⟨List.replicate n ⟨0, false⟩, 0⟩

/-- Flume i in a state of SERVICE. -/
  def flIn (i : Nat) (f : Flume) : State := setFlume svc i f

/-- Flume i with an item in its output stage, both pointers one past it. -/
  def flHead (i : Nat) (it : FItem) : State :=
    flIn i { Flume.reset with head := [(0, it)], wptr := gray 1, wSeen := gray 1, rptr := gray 1 }

/-- Flume i with an item in its body, which the reader does not see yet. -/
  def flBody (i : Nat) (it : FItem) : State := flIn i { Flume.reset with body := [(0, it)], wptr := gray 1 }

set_option maxRecDepth 20000 in
theorem wit_FlumeWords :
    (gray 2047 = 1024 ∧ gray 4095 ^^^ gray 0 = 2048 ∧ ungray 2048 = 4095 ∧
  ({ Flume.reset with wptr := gray 2048, rSeen := gray 0 } : Flume).fullW 2048 = true) ∧
    (({ Flume.reset with wptr := gray 1, rSeen := gray 3 } : Flume).fullW 2 = true ∧
  ({ Flume.reset with wptr := gray 1, rSeen := gray 3 } : Flume).wrOcc 2 = 2) ∧
    (svc.dev.iceRuns = true ∧ (flumeShape 685).isSome = true ∧ (flumeShape 686).isSome = false ∧ (⟨0, true⟩ : FWord).poison = true) ∧
    ((Flume.reset.pushUnit 4 [item 4, item 4, item 4, item 4]).isSome = true ∧ Flume.reset.pushUnit 4 [item 4, item 4, item 4, item 4, item 4] = none) ∧
    (barLive svc .canal = true ∧ (0x80000000 : Word).getLsbD 31 = true) ∧
    (svc.dev.inReset = false ∧ svc.dev.devState ≠ .halted) ∧
    ((let s := { svc with ice := { svc.ice with lanes := { svc.ice.lanes with ring := { svc.ice.lanes.ring with en := true, minSev := 3 } } } }
  s.ice.lanes.ring.en = true ∧ 3 ≤ s.ice.lanes.ring.minSev)) :=
  ⟨by decide, by decide, by decide, by decide, by decide, by decide, by decide⟩

set_option maxRecDepth 20000 in
theorem wit_FlumeEvents :
    (flumeShape 425 = some ⟨4, 9, 384, 4, false⟩ ∧ ownWriter 425 = false ∧ svc.dev.inReset = false ∧ (item 4).words.length = 4) ∧
    (flumeShape 424 = some ⟨4, 9, 384, 4, true⟩ ∧ ownWriter 424 = false ∧ (flumeOf svc 424).wrOcc (flumeB 424) + 512 ≤ flumeB 424 ∧
  flumeB 424 < (flumeOf svc 424).wrOcc (flumeB 424) + 513) ∧
    (ownReader 425 = false ∧ ¬ (426 ≤ 425 ∧ 425 < 434) ∧
  readerStopped svc 425 = false ∧ readerFull svc 425 = false ∧
  (let s := flHead 425 (item 4)
   (flumeOf s 425).head = (0, item 4) :: [] ∧ (flumeOf s 425).rSeen ≠ (flumeOf s 425).rptr)) ∧
    ((let s := flBody 425 (item 4)
  (flumeOf s 425).wSeen ≠ (flumeOf s 425).wptr ∧ (flumeOf s 425).popWaits = false ∧ (flumeOf s 425).head = [])) ∧
    (flumeShape 451 = some ⟨1, 11, 1536, 8, true⟩ ∧ neverShort 451 = false ∧ neverShort 424 = true ∧ ownWriter 451 = false ∧
  flumeB 451 < (flumeOf (flIn 451 { Flume.reset with wptr := gray 2048 }) 451).wrOcc (flumeB 451) + [item 1].length) ∧
    (readerStopped (modFloe svc 7 fun x => { x with run := false }) (288 + 7) = true ∧ flumeShape 295 = some ⟨9, 5, 24, 2, false⟩) :=
  ⟨by decide, by decide, by decide, by decide, by decide, by decide⟩

/-- A work item of KIND 5 for chamber 0. -/
  def work5 : Item := { w0 := 5, w1 := 0, w2 := 0, w3 := 0, px := 0 }

/-- Floe 95 with its item started at bundle 7, the bundle given there. -/
  def floeIn (b : BitVec 128) : State :=
    modFmem (modFloe svc 95 fun _ => { Floe.reset with run := true, cur := some work5, started := true, pc := 7 }) 95
      fun m => { m with imem := [(7, b)] }

/-- ADDI s1, s0, 5 in the control slot, NOPs elsewhere. -/
  def addiBundle : BitVec 128 := BitVec.ofNat 128 ((1 * 2 ^ 26 + 1 * 2 ^ 21 + 5) * 2 ^ 96)

/-- Opcode 0x3F in the control slot, which R126 reserves. -/
  def badBundle : BitVec 128 := BitVec.ofNat 128 (0x3F * 2 ^ 26 * 2 ^ 96)

set_option maxRecDepth 20000 in
theorem wit_FloeArithmetic :
    ((⟨5, true⟩ : Lane).pinned = true ∧ (⟨2 ^ 71 - 1, false⟩ : Lane).pinned = false ∧ (2 : Int) ^ 71 - 1 < (⟨2 ^ 71 - 1, false⟩ : Lane).val.toInt + 1 ∧
  (⟨BitVec.ofInt 72 (-(2 ^ 71)), false⟩ : Lane).val.toInt + (-1) < -(2 ^ 71)) ∧
    ((∀ p : Int, p ∈ [(2 : Int) ^ 62, -(2 ^ 62)] → -(2 ^ 62) ≤ p ∧ p ≤ 2 ^ 62) ∧ [(2 : Int) ^ 62, -(2 ^ 62)].length ≤ 2 ^ (71 - 62) - 2) ∧
    ((let r := (FloeRegs.reset.modAd 7 fun _ => ⟨2 ^ 18 - 1, 2 ^ 18 - 16, 16, -3⟩)
  let t := r.ad (r.linkOf 7); let p := (r.ad 7).p
  t.l ≠ 0 ∧ t.b.toNat ≤ p.toNat ∧ p.toNat < t.b.toNat + t.l.toNat ∧ t.b.toNat + t.l.toNat ≤ 2 ^ 18)) ∧
    ((let r := (FloeRegs.reset.modAd 7 fun _ => ⟨10, 0, 8, -3⟩)
  r.linkOf 7 = 7 ∧ (r.ad 7).b.toNat ≤ (r.ad 7).p.toNat ∧ (r.ad 7).p.toNat < (r.ad 7).b.toNat + 16 ∧ (r.ad 7).b.toNat + 8 ≤ (r.ad 7).p.toNat)) :=
  ⟨by decide, by decide, by decide, by decide⟩

/-- Floe 95 with an item in its current slot, not yet started, and one module with KIND 5 at bundle 9. -/
  def startIn : State :=
    { modFloe svc 95 fun _ => { Floe.reset with run := true, cur := some work5 } with
      mods := [⟨1, 1, false, true, true, 0, 16, 0, 0, 0, 0, [(5, 9)], [], []⟩] }

/-- Floe 95 with a CGET of 64 bytes from LPDDR5X outstanding, the memory holding 0xAB there. -/
  def getIn : State :=
    let s := modFloe startIn 95 fun x => { x with started := true, xfers := [⟨true, 0x100, 64, 0x40, 3, [], []⟩] }
    { s with fab := { s.fab with live := (nums 8).map fun k => (k, 0), density := 8, ddr := [(0x40, 0xAB)] } }

set_option maxRecDepth 20000 in
theorem wit_FloeExecution :
    (issues (floeIn addiBundle) 95 = true ∧ legalBundle addiBundle = true ∧ tabGet 0 (fmemOf (floeIn addiBundle) 95).imem 7 = addiBundle) ∧
    ((let x := floeOf (floeIn addiBundle) 95
  let l := lRun 95 x.regs (fmemOf (floeIn addiBundle) 95) [] [] (slotL addiBundle)
  let c := cRun 95 { x with imCe := min 255 x.imCe } l.k [] [] (slotC addiBundle)
  l.fault = none ∧ c.fault = none ∧ c.act = .none ∧ c.s = [(1, 5)])) ∧
    (issues (floeIn badBundle) 95 = true ∧ legalBundle badBundle = false ∧ (floeOf (floeIn badBundle) 95).xfers = [] ∧ (floeIn badBundle).lkp.thread = true) ∧
    (95 < 96 ∧ (floeOf startIn 95).run = true ∧ (floeOf startIn 95).fenced = false ∧ (floeOf startIn 95).cur = some work5 ∧
  (floeOf startIn 95).started = false ∧ (startIn.mods.findSome? fun m => (m.kinds.find? fun k => k.1 == work5.kind).map (·.2)) = some 9) ∧
    ((let s := { startIn with mods := [] }
  (floeOf s 95).xfers = [] ∧ s.lkp.thread = true ∧ (s.mods.findSome? fun m => (m.kinds.find? fun k => k.1 == work5.kind).map (·.2)) = none)) ∧
    ((let s := setFlume (modFloe startIn 95 fun x => { x with started := true }) 191 { Flume.reset with head := [(0, work5.flit 0)], wptr := gray 1, wSeen := gray 1, rptr := gray 1 }
  (floeOf s 95).cur.isSome = true ∧ (floeOf s 95).nxt = none ∧ (popFlume s (96 + 95) []).isSome = true)) ∧
    ((floeOf (modFloe startIn 95 fun x => { x with stall := .imem [14] }) 95).stall = .imem [14]) ∧
    ((floeOf getIn 95).xfers[0]? = some ⟨true, 0x100, 64, 0x40, 3, [], []⟩ ∧ 64 % 64 = 0 ∧
  canalWhere getIn 0x40 = .ddr 0x40 ∧ (floeOf getIn 95).stall = .none) ∧
    ((fmemOf (floeIn addiBundle) 95).poison = [] ∧ fetchable addiBundle = true ∧ fetchable badBundle = false ∧
  [0x37, 0x38].contains (opOf (slotC addiBundle)) = false) :=
  ⟨by decide, by decide, by decide, by decide, by decide, by decide, by decide, by decide, by decide⟩

/-- A module image of MOD_ID 5: one NOP bundle, KIND 5 at it, no static data. -/
  def imageIn : List Byte :=
    leBytes 0x454F4C46 4 ++ leBytes 3 2 ++ leBytes 2 2 ++ leBytes 5 2 ++ leBytes 1 2 ++ leBytes 6 4 ++ leBytes 1 2 ++ leBytes 0 4
      ++ leBytes 1 1 ++ leBytes 0 1 ++ leBytes 0 8 ++ leBytes 5 4 ++ leBytes 0 60 ++ List.replicate 8 0xFF ++ leBytes 0 24 ++ leBytes 0 16

set_option maxRecDepth 20000 in
theorem wit_FloeRegisters :
    95 < 96 ∧ svc.dev.inReset = false ∧ svc.dev.iceRuns = true ∧ (floeOf svc 95).fenced = false :=
  by decide

/-- The load of that image in progress from berth 0. -/
  def loadIn : State :=
    let s := cmd rdy 0x0201 0x02000005
    { s with nx := { s.nx with rung := [], long := [⟨0, hdrOf s 0, .modLoad imageIn none, 0⟩] } }

/-- That load while Floe 2 still serves an item. -/
  def loadBusy : State := modFloe loadIn 2 fun x => { x with cur := some work5 }

/-- READY with a module of MOD_ID 5. -/
  def modIn : State := { rdy with mods := [⟨5, 1, false, true, true, 0, 1, 0, 0, 0, 0, [(5, 0)], [], []⟩] }

set_option maxRecDepth 20000 in
theorem wit_ModuleCommands :
    (nxAccepted spNxModLoad 0 plain (cmd rdy 0x0201 0x02000005) = true ∧ signed (nxAt (cmd rdy 0x0201 0x02000005) 0) .gufaber (imgNum imageIn 8 2) = none ∧
  firstBad (modRules (nxAt (cmd rdy 0x0201 0x02000005) 0) imageIn) = none) ∧
    (loadIn.dev.inReset = false ∧ loadIn.dev.nxUp = true ∧ loadIn.dev.iceRuns = true ∧ (nums 96).all (slotsEmpty loadIn) = true ∧ heldItems loadIn = 0 ∧
  loadIn.nx.long.all (fun l => modFirst loadIn l && l.work == .modLoad imageIn none && l.berth == 0) = true ∧
  firstBad (modRules loadIn imageIn) = none ∧ (hdrOf loadIn 0).dma = false) ∧
    ((nums 2).all (slotsEmpty loadBusy) = true ∧ slotsEmpty loadBusy 2 = false ∧ heldItems loadBusy = 0 ∧
  loadBusy.nx.long.all (fun l => modFirst loadBusy l && l.work == .modLoad imageIn none && l.berth == 0) = true ∧
  firstBad (modRules loadBusy imageIn) = none ∧ loadBusy.nx.long.length = 1) ∧
    (nxAccepted spNxModUnload 0 plain (cmd rdy 0x0202 0x02000005) = true ∧ (rdy.mods.any fun m => m.modId == 5) = false ∧
  (hdrOf (cmd rdy 0x0202 0x02000005) 0).dma = false) ∧
    (nxDirect spNxModUnload 0 plain (cmd modIn 0x0202 0x02000005) = true ∧
  ((nxAt (cmd modIn 0x0202 0x02000005) 0).mods.any fun m => m.modId == 5) = true ∧ modIn.mods.all (fun m => !m.requires.contains 5) = true) ∧
    (nxInBerth spNxModList 0 plain (cmd modIn 0x0203 0) 40 = true ∧ nxInBerth spNxFloeStats 0 plain (cmd modIn 0x0204 0x0201005F 2) 92 = true ∧
  (hdrOf (cmd modIn 0x0204 0x0201005F 2) 0).clear = true) :=
  ⟨by decide, by decide, by decide, by decide, by decide, by decide⟩

/-- A descriptor of KIND 5 for Floe 95, in chamber 7 where ATOMIC is set, of priority 15 and no group. -/
  def desc (atomic : Bool) : Item := mkItem 5 atomic 15 0xFF 7 95 0 0

/-- Floe 0's flume with one item in its output stage. -/
  def admitIn (it : Item) (side : BitVec 2) : State :=
    flHead 0 (it.flit side)

/-- Bank 7 holds chamber 7, an item of Floe 95 being in its slot. -/
  def heldIn : State := modBank svc 7 fun b => { b with heldCh := [7], slots := [(95, [⟨7, true, 7⟩])] }

/-- An item in the injection buffer of reach 3, and one on the way from the TDM receive unit to bank 7. -/
  def unitIn : State := setFlume (modReach svc 3 fun x => { x with inject := [desc true] }) 639
    { Flume.reset with head := [(0, (desc true).canalFlit 230)], wptr := gray 1, wSeen := gray 1, rptr := gray 1 }

/-- The delay list that such an item would enter is full. -/
  def fullTow : State := modReach svc 3 fun x => { x with tow := [(3, List.replicate 1024 ⟨1, 0, ⟨desc false, .floe 0⟩, none⟩)] }

/-- Pound 15 of reach 3 holds one item for Floe 95. -/
  def waitIn : State := modReach svc 3 fun x => { x with pounds := [(15, [⟨desc false, .floe 0⟩])] }

set_option maxRecDepth 20000 in
theorem wit_LockkeeperAdmission :
    ((foremost (towNow (admitIn (desc true) 0)) [] (.floe 0)).isSome = true ∧ (desc true).unroutable = false ∧ (desc true).bad none = false ∧
  (admitHeld svc ⟨desc true, .floe 0⟩).isSome = true) ∧
    ((foremost (towNow (admitIn { desc true with w2 := 0x10000000000 } 0)) [] (.floe 0)).isSome = true ∧ ({ desc true with w2 := 0x10000000000 } : Item).bad none = true) ∧
    (((desc true).flit 0).words.length = 4 ∧ ((foremost (towNow (admitIn (desc true) 0)) [.bad] (.floe 0)).map fun p => p.2.it.unroutable) = some true) ∧
    ((foremost (towNow unitIn) [] (.unit 7)).isSome = true ∧ (foremost (towNow unitIn) [] (.inject 3)).isSome = true) ∧
    ((desc true).delay = false ∧ (desc true).atomic = true ∧ admitBank (desc true).target = 7 ∧ (lkpBank heldIn 7).heldCh.contains 7 = true ∧
  chqRoom heldIn ⟨desc true, .floe 0⟩ = true ∧ queueRoom svc 3 ⟨desc true, .floe 0⟩ = true ∧ (lkpBank svc 7).heldCh.length < 8192) ∧
    ((let i : Item := { desc false with w0 := (desc false).w0 ||| 0x200, w1 := 16777216 }
  i.delay = true ∧ i.bad none = false ∧ ((lkpReach svc 3).list (towList i)).length < 1024)) ∧
    ((let i : Item := { desc false with w0 := (desc false).w0 ||| 0x200, w1 := 16777216 }
  1024 ≤ ((lkpReach fullTow 3).list (towList i)).length ∧ admitHeld fullTow ⟨i, .floe 0⟩ = none)) ∧
    (hasRoom (List.replicate 15 ⟨desc false, .floe 0⟩) 0 (fun f => f / 24 == 0) (.floe 0) = true ∧
  hasRoom (List.replicate 16 ⟨desc false, .floe 0⟩) 0 (fun f => f / 24 == 0) (.floe 0) = false ∧
  hasRoom (List.replicate 16 ⟨desc false, .floe 0⟩) 1 (fun f => f / 24 == 0) .inject = true) ∧
    ((let i : Item := { desc false with w0 := (desc false).w0 ||| 0x200, w1 := 16777216 }
  let s := { fullTow with flumes := (admitIn i 0).flumes }
  (foremost (towNow s) [] (.floe 0)).map (fun p => p.2.it) = some i ∧ i.unroutable = false ∧ i.bad none = false ∧ (towNow s).lkp.holding = [])) :=
  ⟨by decide, by decide, by decide, by decide, by decide, by decide, by decide, by decide, by decide⟩

/-- A retire record of chamber 7 in Floe 95's flume, bank 7 holding the chamber. -/
  def retireIn : State :=
    setFlume heldIn 95 { Flume.reset with head := [(0, (recItem 0x40 0 7 95 0 0).flit 1)], wptr := gray 1, wSeen := gray 1, rptr := gray 1 }

/-- A GOV record in Floe 95's flume. -/
  def govIn : State :=
    flHead 95 ((recItem 0x80 0 7 95 9 1).flit 2)

set_option maxRecDepth 20000 in
theorem wit_LockkeeperDispatch :
    ([(⟨desc false, .floe 0⟩ : Held)].any (eligible 95) = true) ∧
    (((lkpReach waitIn 3).groups.any fun g => g.2.any (eligible 95)) = false ∧ 15 < 16 ∧
  takeFor 95 ((lkpReach waitIn 3).pound 15) = some (⟨desc false, .floe 0⟩, []) ∧ 7 / 2 = 3) ∧
    (floeToServe waitIn 7 = some 95 ∧ floeToServe waitIn 6 = none) ∧
    ((let s := modBank (modReach waitIn 3 fun x => { x with groups := [(7, [⟨mkItem 5 false 0 7 7 95 0 0, .inject⟩])] }) 7 fun b => { b with window := List.replicate 50 true }
  s.lkp.ceil ≤ ((lkpBank s 7).window.filter id).length ∧ ((lkpReach s 3).pounds.any fun n => n.2.any (eligible 95)) = true)) :=
  ⟨by decide, by decide, by decide, by decide⟩

set_option maxRecDepth 20000 in
theorem wit_LockkeeperRecords :
    ((popFlume retireIn 95 []).isSome = true ∧ (recItem 0x40 0 7 95 0 0).chamber = 7 ∧ tabGet [] (lkpBank retireIn (bankOf 95)).slots 95 = [⟨7, true, 7⟩]) ∧
    ((popFlume govIn 95 []).isSome = true ∧ (lkpBank govIn (bankOf 95)).govQ.length < 16 ∧
  16 ≤ (lkpBank (modBank govIn 7 fun b => { b with govQ := List.replicate 16 ⟨0x80, 0, 0, 0, 0, 0⟩ }) 7).govQ.length) ∧
    (svc.dev.iceRuns = true ∧ (lkpBank (modBank svc 7 fun b => { b with govQ := [⟨0x80, 0, 0, 0, 0, 0⟩] }) 7).govQ = ⟨0x80, 0, 0, 0, 0, 0⟩ :: []) ∧
    ((let s := { svc with tb := { svc.tb with sel := 65536000 } }
  s.dev.inReset = false ∧ s.lkp.boundary < s.tb.sel / towPeriod s)) ∧
    ((let s := modReach { svc with lkp := { svc.lkp with boundary := 5 } } 3 fun x => { x with tow := [(3, [⟨5, 2, ⟨desc false, .floe 0⟩, none⟩]), (0, [⟨5, 1, ⟨desc false, .floe 0⟩, none⟩])] }
  (dueHead s 3).isSome = true)) ∧
    ([(⟨5, 2, ⟨desc false, .floe 0⟩, none⟩ : Delayed), ⟨5, 3, ⟨desc false, .floe 0⟩, none⟩].Pairwise (fun a b => a.due ≤ b.due)) :=
  ⟨by decide, by decide, by decide, by decide, by decide, by decide⟩

/-- READY in service mode with one item held. -/
  def heldRdy : State :=
    { modReach rdy 3 (fun x => { x with pounds := [(15, [⟨desc false, .floe 0⟩])] }) with
      lkp := { (modReach rdy 3 fun x => { x with pounds := [(15, [⟨desc false, .floe 0⟩])] }).lkp with thread := false } }

set_option maxRecDepth 20000 in
theorem wit_LockkeeperCommands :
    (barLive svc .host = true ∧ 3 < 4 ∧ 7 < 8 ∧ (1 : Word).getLsbD 0 = true ∧ (lkpReach svc 3).inject.length < 64 ∧
  64 ≤ (lkpReach (modReach svc 3 fun x => { x with inject := List.replicate 64 (desc false) }) 3).inject.length) ∧
    (nxDirect spNxLkpMode 0 plain (cmd rdy 0x0301 0) = true ∧ (nxAt (cmd rdy 0x0301 0) 0).lkp.thread = true ∧
  threadItems (nxAt (cmd rdy 0x0301 0) 0) + slotItems (nxAt (cmd rdy 0x0301 0) 0) = 0) ∧
    (nxAccepted spNxLkpMode 0 plain (cmd heldRdy 0x0301 0) = true ∧ (nxAt (cmd heldRdy 0x0301 0) 0).lkp.thread = false ∧
  heldItems (nxAt (cmd heldRdy 0x0301 0) 0) ≠ 0) ∧
    (nxDirect spNxLkpGroup 0 plain (cmd svc 0x0302 0) = true ∧ ([(7, 255), (0, 1)] : List (Nat × Nat)).all (fun w => w.1 < 8 && 1 ≤ w.2 && w.2 ≤ 255) = true) ∧
    (nxDirect spNxLkpTick 0 plain (cmd rdy 0x0303 0) = true ∧ ∀ r : Nat, r < 4 → towDepth (nxAt (cmd rdy 0x0303 0) 0) r = 0) ∧
    (nxFits spNxLkpPurge 0 plain (cmdDma heldRdy 0x0304 0 0 460) 460 = true ∧ nxFits spNxLkpStats 0 plain (cmdDma svc 0x0305 0x03000003 0 308 3) 308 = true ∧
  (hdrOf (cmdDma svc 0x0305 0x03000003 0 308 3) 0).clear = true) :=
  ⟨by decide, by decide, by decide, by decide, by decide, by decide⟩

/-- Channel 5 runs on Floe 95 with a Basin of 64 slots of 256 bytes, anchored at sequence 100. -/
  def bsnIn (slots : Tab Slot) : State :=
    let ch : Chan := { chIn .running with floe := some 95, cost := 13, core := { (chIn .running).core with rxSrc := .stream 0 } }
    let s := modChan svc 5 fun _ => ch
    let s := modRxs s 0 fun x => { x with p := { x.p with clock := 8000, pt := 0 } }
    let s := { s with fab := { s.fab with live := (nums 8).map fun k => (k, 0), density := 8 }, tb := { s.tb with sel := 65536000000 } }
    modBasin s 5 fun _ => { Basin.reset with slotsN := 64, slotZ := 256, body := 0x10000, on_ := true, next := 100,
                                             anchored := true, depth := 320, target := 320, slots := slots, x := 8000 }

/-- A packet of 160 bytes for it. -/
  def pk (seq : Nat) : Pkt := ⟨seq, 8000, 1, false, 0, 1000000, false, none, false, [], List.replicate 160 0xAA, 0⟩

/-- Its entry, ready. -/
  def ent (seq ts : Nat) (marker : Bool) : Slot := ⟨.ready, seq, ts, 1, marker, false, 0, 1000000, 160⟩

/-- As bsnIn, a word of the Basin's head poisoned. -/
  def hurtIn : State :=
    let s := modBasin (bsnIn []) 5 fun b => { b with head := 64 }
    { s with fab := { s.fab with nevePoison := [partBase s 2 / 8 + 7] } }

set_option maxRecDepth 20000 in
theorem wit_BasinArrival :
    ((let s := { bsnIn [] with media := { (bsnIn []).media with arr := [(3, [(5, pk 100)])] } }
  arrOf s 3 = [(3, [(5, pk 100)])] ∧ unitStalled s 171 = false ∧ (pk 100).poison = false ∧ rxKey (chanOf s 5) false = none ∧
  headHurt s 5 = false ∧ (pktRead s (pk 100) []).1 = false)) ∧
    ((let p := { pk 100 with poison := true, frame := some (2, 7) }
  p.poison = true ∧ p.frame = some (2, 7))) ∧
    (headHurt hurtIn 5 = true ∧ (chanOf hurtIn 5).st.live = true) ∧
    ((chanOf svc 5).st ≠ .running ∧ (chanOf (bsnIn []) 5).st = .running ∧ (basinOf (bsnIn []) 5).on_ = true ∧
  (pk 100).payload.length ≤ (basinOf (bsnIn []) 5).slotZ - 64 ∧ (basinOf (bsnIn []) 5).slotZ - 64 < 193) ∧
    (seqSub 162 100 + 2 ≤ 64 ∧ ¬ seqSub 163 100 + 2 ≤ 64 ∧ seqSub 163 100 < 32768 ∧ 32768 ≤ seqSub 99 100 ∧ 32768 ≤ seqSub 32868 100 ∧ seqSub 32867 100 < 32768) ∧
    (seqSub 100 36 = 64 ∧ (1 : BitVec 64).getLsbD (seqSub 100 99 - 1) = true ∧ (1 : BitVec 64).getLsbD (seqSub 100 36 - 1) = false) ∧
    ((basinOf (bsnIn [(36, ent 100 8000 false)]) 5).slot 100 = some (ent 100 8000 false) ∧ (ent 100 8000 false).st ≠ .failed) :=
  ⟨by decide, by decide, by decide, by decide, by decide, by decide, by decide⟩

set_option maxRecDepth 20000 in
theorem wit_PlayoutDecision :
    (playoutDue (bsnIn [(36, ent 100 8000 false)]) 5 = true ∧ headHurt (bsnIn []) 5 = false ∧ (basinOf (bsnIn []) 5).stretch = 0 ∧ (chanOf (bsnIn []) 5).floe = some 95 ∧
  (chanOf (bsnIn []) 5).core.prio < 16 ∧ itemGroup (chanOf (bsnIn []) 5) < 256) ∧
    ((let b := basinOf (bsnIn [(36, ent 100 8000 false)]) 5
  b.ready b.next = true ∧ b.slot b.next = some (ent 100 8000 false) ∧ (tsDiff 8000 b.x).natAbs ≤ stepLimit (bsnIn []) (chanOf (bsnIn []) 5) ∧
  tsDiff 8000 b.x ≤ (tsStep (bsnIn []) (chanOf (bsnIn []) 5) : Int) ∧ memPoisoned (bsnIn []) (b.addr b.next) b.slotZ = false)) ∧
    ((let b := basinOf (bsnIn [(36, ent 100 8161 true)]) 5
  (tsStep (bsnIn []) (chanOf (bsnIn []) 5) : Int) < tsDiff 8161 b.x ∧ (ent 100 8161 true).marker = true)) ∧
    ((let s := modBasin (bsnIn []) 5 fun b => { b with stretch := 2 }
  playoutDue s 5 = true ∧ headHurt s 5 = false ∧ 0 < (basinOf s 5).stretch)) ∧
    ((basinOf (bsnIn []) 5).ready 100 = false ∧ ¬ ((basinOf (bsnIn []) 5).silence = true ∨ (basinOf (bsnIn []) 5).lastSid = true)) ∧
    ((let s := modBasin (bsnIn []) 5 fun b => { b with silence := true }
  playoutDue s 5 = true ∧ (basinOf s 5).ready 100 = false ∧ (basinOf s 5).silence = true ∧ (basinOf s 5).slots = [])) ∧
    (stepLimit (bsnIn []) (chanOf (bsnIn []) 5) < (tsDiff (8000 + 4160 + 1) 8000).natAbs ∧ ¬ stepLimit (bsnIn []) (chanOf (bsnIn []) 5) < (tsDiff (8000 + 4160) 8000).natAbs) :=
  ⟨by decide, by decide, by decide, by decide, by decide, by decide, by decide⟩

/-- An increase of the depth has waited 2 s. -/
  def upIn5 : State := modBasin { bsnIn [] with tb := { (bsnIn []).tb with sel := 3 * 65536000000000 } } 5 fun b => { b with target := 400, upSince := some 1000000000 }

/-- As bsnIn, with DRIFT and a Basin as given. -/
  def driftIn (d : Drift) (f : Basin → Basin) : State :=
    modBasin (modChan upIn5 5 fun x => { x with blk := { x.blk with drift := d } }) 5 f

/-- Ring 127 records channel 5: 4 blocks of 256 bytes at 0x20000, 4 written, pinned or not. -/
  def ringIn5 (mark : Option Nat) : State :=
    modRing (bsnIn []) 127 fun _ => { Ring.reset with st := .enabled, chan := 5, span := 1, mgr := 3, nb := 4, z := 256,
                                                      body := 0x20000, written := 4, mark := mark }

set_option maxRecDepth 20000 in
theorem wit_DepthAndDrift :
    ((let ch := chanOf (bsnIn []) 5; let b := { basinOf (bsnIn []) 5 with margins := [(5, 10), (4, -3)] }
  ch.blk.depthMin ≤ ch.blk.depthMax ∧ b.margins ≠ [] ∧ b.margins.all (fun q => decide (1000 ≤ q.1 + ch.live.adaptWin * 1000000000)) = true ∧
  ch.live.adaptQ ≤ 1000 ∧ 0 < ch.live.adaptQ)) ∧
    ((let ch := chanOf upIn5 5; let b := basinOf upIn5 5
  ch.st = .running ∧ b.anchored = true ∧ ch.blk.adaptive = true ∧ ch.core.tdmSrc = false ∧ ch.core.codec.linear = false ∧ b.depth < b.target ∧
  b.upSince = some 1000000000 ∧ 1000000000 + ch.live.adaptWait * 500000000 ≤ nowNs upIn5 ∧ b.stretch = 0)) ∧
    ((let s := driftIn .sluice fun b => { b with eps := -20000, epsSecs := 10 }
  (chanOf s 5).blk.drift = .sluice ∧ 10 ≤ (basinOf s 5).epsSecs ∧ (basinOf s 5).epsPosted = false ∧ (basinOf s 5).eps.natAbs = 20000 ∧
  (s.nx.chanQ.filter fun e => e.chan == 5).length < 16)) ∧
    ((let s := driftIn .slip fun b => { b with depthN := 1, depthSum := 0 }
  (basinOf s 5).depthN ≠ 0 ∧ (basinOf s 5).lastSec < nowNs s / 1000000000 ∧
  (basinOf s 5).depthSum / ((basinOf s 5).depthN : Int) + ((chanOf s 5).rxTicks : Int) * 1000000 / 48 < (basinOf s 5).depth * 125000)) ∧
    ((let s := driftIn .slip fun b => { b with depthN := 1, depthSum := 60000001, slots := [(36, ent 100 8000 false)] }
  (basinOf s 5).depth * 125000 + ((chanOf s 5).rxTicks : Int) * 1000000 / 48 < (basinOf s 5).depthSum / ((basinOf s 5).depthN : Int) ∧
  oldestReady (basinOf s 5) = some (ent 100 8000 false))) :=
  ⟨by decide, by decide, by decide, by decide, by decide⟩

/-- A media pool with one place taken. -/
  def poolIn : State := modMedia (bsnIn []) fun m => { m with pool := some (0x100000, 0x100000), allocs := [⟨0, 9, 0x100000, 0x1000⟩] }

set_option maxRecDepth 20000 in
theorem wit_RingRecording :
    ((ringOf (ringIn5 (some 1)) 127).written < 1 + (ringOf (ringIn5 (some 1)) 127).nb ∧ 0 + (ringOf (ringIn5 (some 0)) 127).nb ≤ (ringOf (ringIn5 (some 0)) 127).written ∧
  canalWhere (ringIn5 none) (0x20000 + 4 % 4 * 256) = .ddr 0x20000 ∧ (ringIn5 none).dev.compatQ48 = false) ∧
    ((ringOf (modRing (ringIn5 none) 127 fun r => { r with st := .rewinding, rew := some (3, 4, false) }) 127).rew = some (3, 4, false)) ∧
    (poolFit poolIn 0xFF000 = some 0x101000 ∧ poolFit poolIn 0xFF001 = none ∧ poolIn.media.pool = some (0x100000, 0x100000)) :=
  ⟨by decide, by decide, by decide⟩

/-- Ring 127 is defined over channel 5, which runs. -/
  def ringDef : State := modRing poolIn 127 fun _ => { Ring.reset with st := .defined, chan := 5, span := 120 }

/-- Ring 127 with its channel stopped. -/
  def ringOff : State := modChan (ringIn5 (some 1)) 5 fun x => { x with st := .armed }

/-- The copy of two blocks to 0x40000 in progress from berth 0. -/
  def readIn : State :=
    let s := cmd ringOff 0x0414 0x0400007F
    { s with nx := { s.nx with rung := [], long := [⟨0, hdrOf s 0, .ringRead 127 2 0x40000, 0⟩] }
             fab := { s.fab with ddr := [(0x20100, 0xCD)] } }

set_option maxRecDepth 20000 in
theorem wit_RingCommands :
    (nxDirect spNxBsnPool 0 plain (cmd { poolIn with dev := rdy.dev } 0x0401 0) = true ∧
  0x100000000 + 0x100000 + 71 * 2 ^ 20 ≤ ddrUsable poolIn ∧ poolIn.media.allocs.all (fun a => a.kind != 1 && a.kind != 2) = true) ∧
    (nxDirect spNxRingDefine 0 plain (cmd svc 0x0410 0x0400007F) = true) ∧
    (nxDirect spNxRingEnable 0 plain (cmd ringDef 0x0411 0x0400007F) = true ∧ (chanOf ringDef 5).core.usesBasin = true ∧ (chanOf ringDef 5).st.live = true ∧
  ringCtxs ringDef (mgrOf ringDef 5) < 256 ∧ poolFit ringDef ((120 * 48000 + (chanOf ringDef 5).rxTicks - 1) / (chanOf ringDef 5).rxTicks * 256) = none) ∧
    ((let s := modMedia ringDef fun m => { m with pool := some (0x100000, 0x10000000) }
  poolFit s ((120 * 48000 + (chanOf s 5).rxTicks - 1) / (chanOf s 5).rxTicks * 256) = some 0x101000)) ∧
    (nxDirect spNxRingMark 0 plain (cmd (ringIn5 none) 0x0412 0x0400007F) = true ∧ 4 ≤ (ringOf (ringIn5 none) 127).written ∧ (ringOf (ringIn5 none) 127).written ≤ 0 + (ringOf (ringIn5 none) 127).nb) ∧
    (nxInBerth spNxRingRewind 0 plain (cmd ringOff 0x0413 0x0400007F) 16 = true ∧ recording (nxAt (cmd ringOff 0x0413 0x0400007F) 0) 127 = false) ∧
    (nxAccepted spNxRingRead 0 plain (cmd ringOff 0x0414 0x0400007F) = true ∧ replyFits ringOff (hdrOf (cmd ringOff 0x0414 0x0400007F) 0) 24 = true ∧
  nxDirect spNxRingDisable 0 plain (cmd ringOff 0x0415 0x0400007F) = true ∧ nxDirect spNxRingFree 0 plain (cmd ringDef 0x0416 0x0400007F) = true) ∧
    (nxInBerth spNxRingStats 0 plain (cmd ringOff 0x0417 0x0400007F 2) 48 = true ∧ nxInBerth spNxBsnStats 0 plain (cmd ringOff 0x0402 0x01000005 2) 152 = true) ∧
    (readIn.dev.inReset = false ∧ readIn.dev.nxUp = true ∧ readIn.dev.iceRuns = true ∧ hostOk readIn = true ∧ (hdrOf readIn 0).dma = false ∧
  readIn.nx.cplEn = false ∧ readIn.nx.waiting = []) :=
  ⟨by decide, by decide, by decide, by decide, by decide, by decide, by decide, by decide, by decide⟩

/-- Bus 511 is enabled with its output ring at 0x200000 and one crosspoint from channel 8191 at gain 2.0. -/
  def busIn : State :=
    let s := { bsnIn [] with jct := { (bsnIn []).jct with block := some 8 } }
    let s := modXp s 0 fun _ => { XPoint.reset with bus := 511, src := 8191, gain := 16384, target := 16384 }
    let s := modBus s 511 fun _ => { Bus.reset with st := .enabled, xps := [0] }
    modMedia s fun m => { m with pool := some (0x200000, 0x100000), allocs := [⟨2, 511, 0x200000, 32768⟩] }

/-- Bus 511 defined, with nothing on its list. -/
  def busDef : State := modXp (modBus busIn 511 fun x => { x with st := .defined, xps := [] }) 0 fun _ => XPoint.reset

set_option maxRecDepth 20000 in
theorem wit_JunctionArithmetic :
    ((listOf busIn 511).length ≤ 4096 ∧ -32768 ≤ (xpOf busIn 0).gainAt 1 ∧ (xpOf busIn 0).gainAt 1 ≤ 32767 ∧
  sampleAt [(8191, [-2147483648, 0, 0, 0, 0, 0])] 8191 0 = -2147483648) ∧
    (({ XPoint.reset with pend := some (-32768, 1000) } : XPoint).pend = some (-32768, 1000)) ∧
    (sourceRing busIn (8192 + 511) = some (0x200000, 1024) ∧ canalWhere busIn (0x200000 + (1023 + 1) % 1024 * 32) = .ddr 0x200000 ∧ (busOf busIn 511).faulted = false) :=
  ⟨by decide, by decide, by decide⟩

/-- As busIn, its block 7 due. -/
  def busOver : State := { busIn with jct := { busIn.jct with block := some 7 } }

set_option maxRecDepth 20000 in
theorem wit_JunctionCommands :
    (busOver.jct.block = some 7 ∧ busOver.dev.devState = .service ∧ 6 * (7 + 1) ≤ tick48 busOver ∧ blockDue busOver = true ∧ blockDue busIn = false ∧
  busIn.dev.iceRuns = true ∧ (0x40000000 : Word).getLsbD 30 = true) ∧
    (nxDirect spNxJctBusDefine 0 plain (cmd svc 0x0501 0x05000FFF) = true ∧ nxDirect spNxJctBusSet 0 plain (cmd busIn 0x0502 0x050001FF) = true ∧
  (let v := modBus (nxAt (cmd busIn 0x0502 0x050001FF) 0) 511 fun x => { x with minusNext := some (some 12287) }
   sliceTerms v 0 ≤ 16384 ∧ sliceTerms (minusDue v) 0 ≤ 16384)) ∧
    (nxDirect spNxJctBusSet 0 plain (cmd busDef 0x0502 0x050001FF) = true ∧ (busOf busDef 511).st = .defined ∧ (busOf busDef 511).xps = [] ∧ listBuses busDef 511 = [511]) ∧
    ((let u := modMedia busDef fun m => { m with allocs := [] }
  let v := modBus u 511 fun x => { x with st := .enabled, faulted := false }
  nxDirect spNxJctBusEnable 0 plain (cmd u 0x0503 0x050001FF) = true ∧ (busOf u 511).share = false ∧ onCycle u 511 = false ∧ sliceTerms v 0 ≤ 16384 ∧ sliceTerms (minusDue v) 0 ≤ 16384 ∧ poolFit u 32768 = some 0x200000)) ∧
    (nxDirect spNxJctBusDisable 0 plain (cmd busIn 0x0504 0x050001FF) = true ∧ shareOf busIn 511 = none ∧
  nxDirect spNxJctBusFree 0 plain (cmd busDef 0x0505 0x050001FF) = true ∧ shareOf busDef 511 = none ∧ busUser busDef 511 = none) ∧
    (nxInBerth spNxJctXpAdd 0 plain (cmd busDef 0x0506 0x050001FF) 12 = true ∧ onList busDef 511 12287 = false ∧ closesCycle busDef 511 12287 = false ∧
  freeXp busDef 0 = some 0 ∧ termsFit (xpPut busDef 511 0 12287 0 0 none) 0 = true) ∧
    (nxDirect spNxJctXpSet 0 plain (cmd busIn 0x0507 0) = true ∧ xpUsed busIn 0 = true ∧ (xpOf busIn 0).deleting = false) ∧
    (nxDirect spNxJctXpDelete 0 plain (cmd busIn 0x0508 0x06000000) = true ∧ (xpOf busIn 0).entry = none ∧ busIn.dev.devState = .service) ∧
    (nxInBerth spNxJctStats 0 plain (cmd busIn 0x0509 0x050001FF 2) (88 + 16 * 1) = true) :=
  ⟨by decide, by decide, by decide, by decide, by decide, by decide, by decide, by decide, by decide⟩

/-- A profile of one DC-blocking stage at 48 kHz. -/
  def dcProf : Profile := mkProfile 48000 [⟨.dcb, 8, 0, 0, 0, 0, 0, 0⟩]

/-- Lane 15 runs, holds that profile as number 6, and has context 511 bound for a handler on Floe 95. -/
  def laneIn : State :=
    modLane (bsnIn []) 15 fun x => { x with run := true, profs := [(6, some dcProf)], ctxs := [(511, some (newCtx dcProf 6 63 65535 true 95 none))] }

/-- A request of two samples on context 511. -/
  def reqIn : SluReq := ⟨511, false, false, false, 2, 0, 0x1000, 0x2000, false⟩

/-- It is at the head of lane 15's queue. -/
  def servIn (q : SluReq) : State := modLane laneIn 15 fun x => { x with queue := [q] }

set_option maxRecDepth 20000 in
theorem wit_SluiceArithmetic :
    ((⟨.dec, 0, 6, 72, 0, 0, 1608, 1⟩ : Stage).kind = .dec ∧ (⟨.int, 0, 6, 72, 0, 0, 1536, 1⟩ : Stage).n % 6 = 0 ∧
  4294967295 * 128 / 2 ^ 32 + 1 = 128 ∧ 4261412863 * 128 / 2 ^ 32 + 1 < 128) ∧
    ((laneOf laneIn 15).run = true ∧ ((laneOf laneIn 15).prof 6).isSome = true ∧ (laneOf laneIn 15).faulted.contains 6 = false ∧
  0 < 512 - (laneOf laneIn 15).bound.length ∧ (laneOf laneIn 15).load + (laneOf laneIn 15).macOf 6 ≤ 1200000000) ∧
    (sluPlace laneIn 3 6 = .ok (512 * 15)) ∧
    (sluPlace laneIn 2 6 = .error 0x0322) :=
  ⟨by decide, by decide, by rfl, by rfl⟩

/-- A load of profile 6 into lane 15 in progress from berth 0. -/
  def sluLoadIn : State :=
    let s := cmd svc 0x0603 0x0700000F
    { s with nx := { s.nx with rung := [], long := [⟨0, hdrOf s 0, .sluLoad [(6, some dcProf)] [(2047, 1)], 0⟩] } }

set_option maxRecDepth 20000 in
theorem wit_SluiceCommands :
    (canalIssuer 95 = true ∧ sluServes 15 95 = true ∧ sluServes 15 71 = false ∧ (laneOf laneIn 15).held = [] ∧ (laneOf laneIn 15).queue.length < 256 ∧ (List.replicate 32 (0 : Byte)).length = 32 ∧ (laneOf svc 15).run = false) ∧
    ((laneOf (servIn reqIn) 15).queue = reqIn :: [] ∧ unitStalled (servIn reqIn) 143 = false ∧ (laneOf (servIn reqIn) 15).run = true ∧ (laneOf (servIn reqIn) 15).held = [] ∧ (laneOf (servIn reqIn) 15).rewrite = false ∧
  (ctxOf (servIn reqIn) (512 * 15 + 511)).isSome = true ∧ (laneOf (servIn reqIn) 15).prof 6 = some dcProf ∧ reqIn.inPtr % 32 = 0 ∧
  reqIn.outPtr % 32 = 0 ∧ canalWhere (servIn reqIn) reqIn.outPtr = .ddr 0x2000) ∧
    (({ reqIn with count := 0 } : SluReq).count = 0) ∧
    ((let s := { laneIn with slu := { laneIn.slu with pinEn := true, pending := true, tick := tick48 laneIn + 1 } }
  s.slu.pinEn = true ∧ s.dev.inReset = false ∧ s.slu.pending = true ∧ tick48 s < s.slu.tick)) ∧
    (nxDirect spNxSluStop 0 plain (cmd laneIn 0x0601 0x0700000F) = true ∧ chanCtx laneIn 15 = none ∧ nxDirect spNxSluStart 0 plain (cmd svc 0x0602 0x0700000F) = true) ∧
    (nxAccepted spNxSluLoad 0 plain (cmd svc 0x0603 0x0700000F) = true ∧ chainShape [⟨.dcb, 8, 0, 0, 0, 0, 0, 0⟩] = true ∧
  stageOk ⟨.dcb, 24, 0, 0, 0, 0, 0, 0⟩ = true ∧ historyOk [⟨.dcb, 8, 0, 0, 0, 0, 0, 0⟩] = true ∧ 96000 ∈ sluRates ∧
  ratesWhole [⟨.dcb, 8, 0, 0, 0, 0, 0, 0⟩] 96000 = true ∧ profUsed svc 15 15 = none) ∧
    (sluLoadIn.dev.inReset = false ∧ sluLoadIn.dev.nxUp = true ∧ sluLoadIn.dev.iceRuns = true ∧ (sluLoadIn.nx.long.find? fun x => x.berth == 0).isSome = true) ∧
    (nxInBerth spNxSluCtxBind 0 plain (cmd laneIn 0x0604 0) 16 = true ∧ targetReach 95 = some 3 ∧ (laneOf laneIn (7680 / 512)).prof 6 = some dcProf) ∧
    (nxDirect spNxSluCtxSet 0 plain (cmd laneIn 0x0605 0x08001FFF) = true ∧ ((ctxOf laneIn 8191).map (·.owner)) = some none ∧
  (laneOf laneIn 15).load ≤ 1200000000 ∧ nxDirect spNxSluCtxFree 0 plain (cmd laneIn 0x0606 0x08001FFF) = true) ∧
    (nxDirect spNxSluSync 0 plain (cmd svc 0x0607 0) = true ∧ svc.slu.pending = false ∧ nxDirect spNxSluStats 0 plain (cmdDma laneIn 0x0608 0x0700000F 0 8388) = true ∧
  (hdrOf (cmdDma laneIn 0x0608 0x0700000F 0 8388) 0).dma = true ∧ 8368 + 20 * (laneOf laneIn 15).bound.length ≤ (hdrOf (cmdDma laneIn 0x0608 0x0700000F 0 8388) 0).outLen) :=
  ⟨by decide, by decide, by decide, by decide, by decide, by decide, by decide, by decide, by decide, by decide⟩

/-- Port 3 up at 100 Gb/s with RS-FEC, receiving and sending, all stations accepted. -/
  def portIn : State :=
    modPort (bsnIn []) 3 fun p => { p with cfg := { p.cfg with rxEn := true, txEn := true, link := true, speed := 4, fec := 2, promisc := true, corrRx := 0x5480 } }

/-- A frame around 60 bytes, with its FCS. -/
  def wireFrame (l : List Byte) : List Byte := let x := l ++ List.replicate (60 - l.length) 0; x ++ leBytes (crc32 x).toNat 4

/-- An IPv4 UDP datagram to port 5004 in an Ethernet frame: 20 bytes of header, 8 of UDP, then RTP. -/
  def udpFrame (dport : Nat) : List Byte :=
    wireFrame (beBytes 0x020000000001 6 ++ beBytes 0 6 ++ beBytes 0x0800 2 ++ [0x45, 0] ++ beBytes 46 2 ++ beBytes 0 4 ++ [64, 17] ++ beBytes 0 2
      ++ beBytes 0x0A000001 4 ++ beBytes 0x0A000002 4 ++ beBytes 6000 2 ++ beBytes dport 2 ++ beBytes 26 2 ++ beBytes 0 2
      ++ [0x80, 96] ++ beBytes 100 2 ++ beBytes 8000 4 ++ beBytes 7 4 ++ beBytes 0 6)

/-- PAUSE with quanta q. -/
  def pauseL (q : Nat) : List Byte := wireFrame (beBytes 0x0180C2000001 6 ++ beBytes 0 6 ++ beBytes 0x8808 2 ++ beBytes 1 2 ++ beBytes q 2)

/-- That frame stands in flume 387, its two items in the output stages. -/
  def clsIn : State :=
    let s := modPort portIn 3 fun p => { p with rxq := [⟨udpFrame 5004, 0, 0⟩] }
    setFlume s 387 { Flume.reset with head := (nums 2).zip (frameItems (udpFrame 5004)), wptr := gray 2, wSeen := gray 2, rptr := gray 2 }

/-- The frame as stored. -/
  def stIn (l : List Byte) : Stored_ := ⟨0, ⟨l, 0, 0⟩, 1, [0], [], 0, false, false, false⟩

/-- A flow entry for it. -/
  def flowIn (a : FlowAct) : State :=
    let key := flowKey 0 3 0x1000 4 0x0A000002 5004 0 0
    setFlow portIn 65535 (some ⟨key, a, 9, 3, flowCand key 3, false⟩)

/-- As clsIn, a message for the Timebase still held from flume 395. -/
  def heldCls : State := setFlume clsIn 395 { Flume.reset with held := [item 4] }

set_option maxRecDepth 20000 in
theorem wit_QuayReceive :
    (portRuns portIn 3 = true ∧ (portOf portIn 3).cfg.rxEn = true ∧ (portOf portIn 3).cfg.link = true ∧ fcsOk (udpFrame 5004) = true ∧
  (udpFrame 5004).length = 64 ∧ 64 ≤ (portOf portIn 3).cfg.maxFrame ∧ be (udpFrame 5004) 12 2 ≠ 0x8808 ∧ rxAccept (portOf portIn 3).cfg (udpFrame 5004) = true ∧
  fcsOk ((udpFrame 5004).take 63) = false) ∧
    ((let l := List.replicate 56 (0 : Byte); fcsOk (l ++ leBytes (crc32 l).toNat 4) = true ∧ (l ++ leBytes (crc32 l).toNat 4).length < 64)) ∧
    (fcsOk (pauseL 65535) = true ∧ be (pauseL 65535) 12 2 = 0x8808 ∧ be (pauseL 65535) 14 2 = 1 ∧ be (pauseL 65535) 16 2 = 65535 ∧ (portOf portIn 3).cfg.pauseRx = true) ∧
    ((let l := wireFrame (beBytes 0x0180C2000001 6 ++ beBytes 0 6 ++ beBytes 0x8808 2 ++ beBytes 0x0101 2); fcsOk l = true ∧ be l 12 2 = 0x8808 ∧ be l 14 2 = 0x0101)) ∧
    (rxAccept { (portOf portIn 3).cfg with promisc := false } (udpFrame 5004) = false) ∧
    ((flumeOf portIn 387).wrOcc (flumeB 387) + (frameItems (udpFrame 5004)).length ≤ flumeB 387 ∧
  flumeB 387 < (flumeOf (setFlume portIn 387 { Flume.reset with wptr := gray 512 }) 387).wrOcc (flumeB 387) + (frameItems (udpFrame 5004)).length) ∧
    ((portOf clsIn 3).rxq = ⟨udpFrame 5004, 0, 0⟩ :: [] ∧ rxUsed (portOf clsIn 3) + (64 + 32 + 255) / 256 ≤ rxCells clsIn ∧ postHeld clsIn 3 = false ∧
  (popItems clsIn 387 (fun k => [].getD k []) (frameItems (udpFrame 5004)).length).isSome = true) ∧
    ((parseFrame ((udpFrame 319).take 60)).ptp.isSome = true ∧ (parseFrame ((udpFrame 5004).take 60)).ptp = none ∧
  flowLookup portIn 3 (parseFrame ((udpFrame 5004).take 60)) none = .miss) ∧
    ((match flowLookup (flowIn .drop) 3 (parseFrame ((udpFrame 5004).take 60)) none with | .hit k e => (k, e.act) | _ => (0, .weir 0)) = (65535, .drop)) ∧
    ((match flowLookup (flowIn .drop) 3 (parseFrame ((udpFrame 5004).take 60)) (some (0, 2)) with | .bad b _ => b | _ => 9) = 2) ∧
    (postHeld heldCls 3 = true) ∧
    ((let s := modPort portIn 3 fun p => { p with store := [{ stIn [] with takers := [4, 6] }] }
  (storedOf s 3 0).isSome = true ∧ takerDone s 3 0 4 = true)) ∧
    ((let s := setFlow portIn 65535 (some ⟨[], .drop, 0, 0, 0, true⟩); (flowOf s 65535).map (·.poison) = some true ∧ s.dev.iceRuns = true)) :=
  ⟨by decide, by decide, by decide, by decide, by decide, by decide, by decide, by decide, by rfl, by rfl, by decide, by decide, by decide⟩

/-- Receive ring 127 of port 3 with 64 descriptors at 0x8000, 63 of them available, serving a stored frame. -/
  def dmaIn (tail : Nat) : State :=
    let s := modDma portIn 96 fun r => { r with base := 0x8000, en := true, tail := tail }
    modPort s 3 fun p => { p with store := [{ stIn (udpFrame 5004) with takers := [4] }], dma := [⟨96, some 0, []⟩] }

/-- Transmit ring 112 of port 3, class 7. -/
  def txIn (tail : Nat) : State := modDma portIn 112 fun r => { r with base := 0x8000, en := true, tail := tail, cls := 7 }

/-- A descriptor of 60 bytes for a whole frame. -/
  def txd : TxDesc := ⟨true, 60, 0, 3, List.replicate 60 0x11⟩

set_option maxRecDepth 20000 in
theorem wit_FlowTable :
    ((parseFrame ((udpFrame 5004).take 60)).udp.isSome = true ∧
  flowKeys (flowIn .drop) 3 (parseFrame ((udpFrame 5004).take 60)) = flowKey 0 3 0x1000 4 0x0A000002 5004 0 0 :: []) ∧
    ((flowInsert portIn (flowKey 3 3 4096 6 1 65535 2 3) .drop 65535).isOk = true) ∧
    ((flowFind (flowIn .drop) (flowKey 0 3 0x1000 4 0x0A000002 5004 0 0)).isSome = true) ∧
    (nxDirect spNxFlowAdd 0 plain (cmd portIn 0x0704 0x09000003) = true ∧ hostAct (.host 15) = true ∧ keyValid 3 3 4096 6 (2 ^ 128 - 1) 65535 2 3 = true ∧
  nxDirect spNxFlowDel 0 plain (cmd (flowIn .drop) 0x0705 0x0C00FFFF) = true) :=
  ⟨by decide, by rfl, by decide, by decide⟩

/-- A frame of class 7 waits in its lane. -/
  def laneTx : State := modPort portIn 3 fun p => { p with lanes := [(7, [mkTx 7 []])] }

set_option maxRecDepth 20000 in
theorem wit_HostRings :
    (portRuns (dmaIn 63) 3 = true ∧ hostOk (dmaIn 63) = true ∧ (portOf (dmaIn 63) 3).dma = ⟨96, some 0, []⟩ :: [] ∧ (storedOf (dmaIn 63) 3 0).isSome = true ∧
  wireRing (dmaIn 63) 96 = true ∧
  (frameRead (modPort (dmaIn 63) 3 fun p => { p with dma := [] }) 3 { stIn (udpFrame 5004) with takers := [4] } []).1 = false ∧ 1 ≤ (dmaOf (dmaIn 63) 96).avail ∧ (dmaOf (dmaIn 0) 96).avail < 1 ∧ (dmaOf (dmaIn 63) 96).desc 0 + 32 ≤ 0x10000) ∧
    (portRuns (txIn 1) (112 / 32) = true ∧ 112 / 16 % 2 = 1 ∧ (dmaOf (txIn 1) 112).en = true ∧ 1 ≤ (dmaOf (txIn 1) 112).avail ∧ txd.own = true ∧ txd.last = true ∧
  txd.first = true ∧ 60 + 4 ≤ (portOf (txIn 1) 3).cfg.maxFrame ∧ txRoom (txIn 1) 3 7 1 = true ∧ (portOf (txIn 1) 3).txHeld = [] ∧ ({ txd with flags := 2 } : TxDesc).first = false) ∧
    (127 < 128 ∧ barLive svc .host = true ∧ (63 : Nat) % 32768 < (dmaOf svc 127).size ∧ (dmaOf svc 127).en = false ∧ ringIdle svc 127 = true ∧ (0x80000006 : Word).getLsbD 31 = true) :=
  ⟨by decide, by decide, by decide⟩

/-- Transmit stream 16383 of two channels with one packet time begun. -/
  def asmIn : State :=
    modTxs { portIn with tb := { portIn.tb with sel := 2 * 65536000000000 } } 16383 fun x =>
      { x with st := .enabled, p := { x.p with port := 3, nch := 2, map := [5, 6] }, asm := [(0, [(5, [1])])], asmNext := some 0 }

set_option maxRecDepth 20000 in
theorem wit_QuayTransmit :
    (startPick laneTx (portOf laneTx 3) laneTx.tb.sel (nums 8).reverse = (some 7, []) ∧ tabGet [] (portOf laneTx 3).lanes 7 = mkTx 7 [] :: [] ∧
  (portOf laneTx 3).sending = none ∧ (portOf laneTx 3).paused = none ∧ (mkTx 7 []).inst = none ∧ (mkTx 7 []).tsReq = false) ∧
    ((portOf (modPort portIn 3 fun p => { p with sending := some (mkTx 7 []) }) 3).sending = some (mkTx 7 [])) ∧
    ((let s := modPort portIn 3 fun p => { p with txq := [(7, [mkTx 7 []])] }
  tabGet [] (portOf s 3).txq 7 = mkTx 7 [] :: [] ∧ (tabGet [] (portOf s 3).lanes 7).length < 2 ∧ (portOf s 3).txHeld = [])) ∧
    ((let g : Gate := ⟨[(0xFF, 1000), (0x80, 1000000)], 1001000, 0⟩
  g.at_ 65536000 = some (1, 0x80, 1000000 * 65536) ∧ g.base ≤ portIn.tb.sel + 65536000000 ∧ 0 < g.cycle)) ∧
    ((let g : Gate := ⟨[(0xFF, 1000)], 1000, 0⟩
  let s := modPort portIn 3 fun p => { p with gatePend := some (g, portIn.tb.sel), cfg := { p.cfg with gateEn := true }, gate := some g, paused := some portIn.tb.sel }
  (portOf s 3).gatePend = some (g, portIn.tb.sel) ∧ portIn.tb.sel ≤ s.tb.sel + 0 ∧ (portOf s 3).cfg.gateEn = true ∧ (portOf s 3).paused = some portIn.tb.sel)) ∧
    ((txsOf asmIn 16383).st = .enabled ∧ (txsOf asmIn 16383).asmNext = some 0 ∧ 0 + 2 * asmTicks asmIn (txsOf asmIn 16383) ≤ ticksOf 48000 asmIn.tb.sel ∧
  ((txsOf asmIn 16383).asm.all fun a => a.1 == 0) = true) :=
  ⟨by decide, by decide, by decide, by decide, by decide, by decide⟩

/-- Receive stream 16383 of port 3 and its transmit twin, defined. -/
  def strIn : State :=
    let s := modRxs svc 16383 fun x => { x with st := .defined, p := { x.p with port := 3, dstIp := 0x0A000002, dstUdp := 5004 } }
    modTxs s 16383 fun x => { x with st := .defined, p := { x.p with port := 3 } }

/-- Both enabled. -/
  def strOn : State :=
    modTxs (modRxs strIn 16383 fun x => { x with st := .enabled, flows := [7] }) 16383 fun x => { x with st := .enabled, late := 4 }

set_option maxRecDepth 20000 in
theorem wit_PortsAndStreams :
    (portRuns svc 3 = true ∧ (portOf svc 3).cfg.link = false ∧ fecOk 4 2 = true ∧ 4 ∈ (portOf svc 3).cfg.neg.speeds ∧ 4 ∉ (portOf svc 3).cfg.given) ∧
    ((portOf portIn 3).cfg.link = true) ∧
    ((let s := negBegin svc 5; (negOf s 5).st = .pending ∧ speedsLeft (portOf s 3).cfg = 4 :: 3 :: [2, 1])) ∧
    ((let s := negBegin (modCfg svc 3 fun c => { c with given := [4, 3, 2] }) 5; (negOf s 5).st = .pending ∧ speedsLeft (portOf s 3).cfg = [1])) ∧
    ((negOf (negSet svc 5 .failed 0x0812 0) 5).st = .failed) ∧
    (barLive svc .host = true ∧ 3 < 4 ∧ 23 < 24) ∧
    ((let u := { portIn with dev := rdy.dev }
  nxDirect spNxQuaySet 0 plain (cmd u 0x0701 0x09000003) = true ∧ framesFit u 3 9600 = true ∧ gatesOk (portOf u 3) 9600 = none ∧ negRules (portOf u 3).cfg.neg = none ∧ u.dev.devState = .ready)) ∧
    (nxDirect spNxQuayFilter 0 plain (cmd portIn 0x0702 0x09000003) = true ∧ [FilterSet.uc 15 (some (2 ^ 48 - 1)), .bins [4095]].all FilterSet.inRange = true ∧
  nxDirect spNxQuayGate 0 plain (cmd portIn 0x0703 0x09000003) = true ∧ gateRules ⟨[(0xFF, 1000)], 1000, 0⟩ 1522 4 = none ∧
  nxInBerth spNxQuayStats 0 plain (cmd portIn 0x0706 0x09000003 2) 200 = true) ∧
    (nxDirect (spNxRxsDefine [.port 3]) 0 plain (cmd svc 0x0801 0x0A003FFF) = true ∧ [RxSet.port 3, .nch 64, .pt 127].all RxSet.inRange = true) ∧
    (nxDirect (spNxRxsSet [.pt 127]) 0 plain (cmd strIn 0x0802 0x0A003FFF) = true ∧ nxDirect spNxRxsEnable 0 plain (cmd strIn 0x0803 0x0A003FFF) = true ∧
  (rxsOf strIn 16383).p.weir = false ∧ (rxsOf strIn 16383).p.nch = 1 ∧ keyValid 0 3 0x1000 4 0x0A000002 5004 0 0 = true ∧
  nxDirect spNxRxsFree 0 plain (cmd strIn 0x0805 0x0A003FFF) = true) ∧
    ((flowInsert (nxAt (cmd strIn 0x0803 0x0A003FFF) 0) (rxKeyOn (rxsOf strIn 16383).p 3) (.stream 16383) 0).isOk = true) ∧
    (nxDirect spNxRxsDisable 0 plain (cmd strOn 0x0804 0x0A003FFF) = true ∧ rxNamed strOn 16383 = none ∧ nxInBerth spNxRxsStats 0 plain (cmd strOn 0x0806 0x0A003FFF) 12 = true ∧
  (rxsOf strOn 16383).flows = [7]) ∧
    (nxDirect (spNxTxsDefine [.cls 7]) 0 plain (cmd svc 0x0811 0x0B003FFF) = true ∧ [TxSet.cls 7, .ttl 255].all TxSet.inRange = true ∧
  nxDirect (spNxTxsSet [.cls 7]) 0 plain (cmd strIn 0x0812 0x0B003FFF) = true ∧ nxDirect spNxTxsEnable 0 plain (cmd strIn 0x0813 0x0B003FFF) = true ∧
  frameFits strIn 16383 = true ∧ nxDirect spNxTxsDisable 0 plain (cmd strOn 0x0814 0x0B003FFF) = true ∧ txNamed strOn 16383 = none ∧
  nxDirect spNxTxsFree 0 plain (cmd strIn 0x0815 0x0B003FFF) = true ∧ nxInBerth spNxTxsStats 0 plain (cmd strOn 0x0816 0x0B003FFF 2) 104 = true) :=
  ⟨by decide, by decide, by decide, by decide, by decide, by decide, by decide, by decide, by decide, by decide, by rfl, by decide, by decide⟩

/-- A window of 20 numbers at H = 5 with its newest passed on leg A. -/
  def wctx : WeirCtx := { WeirCtx.reset with valid := true, h := 5, seenA := 1, passed := 1 }

/-- Receive stream 16383, protected, enabled, with a window. -/
  def weirIn : State :=
    modRxs svc 16383 fun x => { x with st := .enabled, ctx := wctx, p := { x.p with weir := true, port := 2 } }

/-- Channel 5 of manager 3 takes the stream, and the manager's input is full. -/
  def weirFull : State :=
    let s := modChan weirIn 5 fun _ => { chIn .running with floe := some 95, core := { (chIn .running).core with rxSrc := .stream 16383 } }
    let s := modMedia s fun m => { m with arr := List.replicate 36 (3, [(5, pk 6)]) }
    { s with net := { s.net with weirIn := [(2, [⟨16383, pk 6⟩])] } }

set_option maxRecDepth 20000 in
theorem wit_WeirMerging :
    (wctx.valid = true ∧ seqSub 32772 5 = 32767 ∧ seqSub 32773 5 = 32768 ∧ seqSub 5 5 = 0 ∧ seqSub 5 65522 = 19 ∧ seqSub 5 65521 = 20) ∧
    (WeirCtx.reset.valid = false ∧ ({ wctx with outRun := 7 } : WeirCtx).outRun = 7) ∧
    ((let s := { weirIn with net := { weirIn.net with weirIn := [(2, [⟨16383, pk 6⟩])] } }
  tabGet [] s.net.weirIn 2 = ⟨16383, pk 6⟩ :: [] ∧ (rxsOf s 16383).st = .enabled ∧ pktRead weirIn (pk 6) [] = (false, weirIn) ∧ (takersOf s 16383).any (mgrFull s) = false ∧ (rxsOf s 16383).ctx.faulted = false)) ∧
    ((pktRead weirIn { pk 6 with poison := true } []).1 = true ∧ (rxsOf svc 16383).st ≠ .enabled) ∧
    ((takersOf weirFull 16383).any (mgrFull weirFull) = true) :=
  ⟨by decide, by decide, by decide, by decide, by decide⟩

/-- A protected packet of transmit stream 16383 waits at Weir unit 2. -/
  def dupIn : State :=
    let s := modTxs svc 16383 fun x => { x with st := .enabled, p := { x.p with port := 2, weir := true } }
    { s with net := { s.net with weirOut := [(2, [⟨16383, 5, List.replicate 12 0, [1]⟩])] } }

/-- As dupIn, both links up. -/
  def dupUp : State :=
    [2, 3].foldl (fun s n => modPort s n fun p => { p with cfg := { p.cfg with txEn := true, link := true, speed := 4, fec := 2 } }) dupIn

/-- A device of a pair in SERVICE, in a Tandem state. -/
  def tdmIn (x : TdmSt) : State :=
    { svc with dev := { svc.dev with tandemEn := true }, tdm := { svc.tdm with st := x, ident := 2, aliveIn := true, lane0 := true } }

/-- The peer's hello record, as STANDBY. -/
  def hi : Hello := ⟨3, false, [], 3, 3, 1, 3, 1⟩

set_option maxRecDepth 20000 in
theorem wit_WeirEvents :
    ((let s := { weirIn with tb := { weirIn.tb with sel := 0 } }
  (rxsOf s 16383).ctx.silentA = false ∧ (rxsOf s 16383).ctx.lastA + 6553600000000 ≤ s.tb.sel + 6553600000000 ∧ s.tb.sel + 6553600000000 ≤ (rxsOf s 16383).ctx.lastB + 6553600000000)) ∧
    ((let s := { weirIn with net := { weirIn.net with weirBad := [(2, [(16383, 5, false)])] } }
  tabGet [] s.net.weirBad 2 = (16383, 5, false) :: [] ∧ (rxsOf s 16383).ctx.valid = true ∧ seqSub (rxsOf s 16383).ctx.h 5 < (rxsOf s 16383).p.window)) ∧
    (txWaits dupUp 166 = false ∧ legKey dupUp 5 false = none ∧ legKey dupUp 5 true = none ∧ (portOf dupUp 2).cfg.link = true ∧ (portOf dupUp 3).cfg.link = true ∧
  (portOf dupUp 2).txHeld = [] ∧ (portOf dupUp 3).txHeld = [] ∧ txRoom dupUp 3 0 1 = true) ∧
    ((let s := modPort dupUp 2 fun p => { p with txHeld := [{ mkTx 0 [] with prod := some 166 }] }
  txWaits s 166 = true)) ∧
    (txWaits dupIn 166 = false ∧ tabGet [] dupIn.net.weirOut 2 = ⟨16383, 5, List.replicate 12 0, [1]⟩ :: [] ∧ dupIn.tdm.st = .off ∧ (portOf dupIn 2).cfg.link = false ∧ (portOf dupIn 3).cfg.link = false) ∧
    ((let s := { dupIn with tdm := { dupIn.tdm with st := .lifting } }; s.tdm.st = .lifting)) ∧
    ((rxsOf (modRxs weirIn 16383 fun x => { x with ctx := { x.ctx with faulted := true } }) 16383).ctx.faulted = true ∧ weirIn.dev.iceRuns = true) :=
  ⟨by decide, by decide, by decide, by decide, by decide, by decide, by decide⟩

/-- STANDBY with channel 5 sending leg A of a protected stream under key slot 16383, whose mark the primary reported. -/
  def standIn : State :=
    let s := modTxs (tdmIn .standby) 0 fun x => { x with p := { x.p with weir := true } }
    let s := modChan s 5 fun _ => { chIn .running with core := { (chIn .running).core with txSink := .stream 0, keyTx := some 16383 } }
    let s := modSlot s 16383 fun k => { k with st := .loaded }
    { s with tdm := { s.tdm with report := [(16383, some 70000)] } }

set_option maxRecDepth 20000 in
theorem wit_TandemPair :
    ((tdmIn .solo).dev.tandemEn = true ∧ (tdmIn .solo).dev.inReset = false ∧ tdmRuns (tdmIn .solo) = true ∧ (hi.tdm = 1 → (2 : Nat) ≤ hi.ident) ∧ (tdmIn .solo).tdm.lane0 = true) ∧
    (standIn.tdm.aliveIn = true ∧ standIn.tdm.st = .standby ∧ legSlots standIn (protTx standIn) false = [16383] ∧ tabGet none standIn.tdm.report 16383 = some 70000) ∧
    ((tdmIn .primary).tdm.st = .primary ∧ ({ tdmIn .primary with mirrorOut := [(0, hdrOf svc 0, .towpathTick)] } : State).mirrorOut ≠ []) ∧
    ((txsOf standIn 0).p.weir = true ∧ linkUp standIn = true ∧ linkUp svc = false ∧ tdmRuns { standIn with tdm := { standIn.tdm with lane0 := false } } = true ∧ standIn.tdm.drill = none) ∧
    ((let s := { tdmIn .primary with tdm := { (tdmIn .primary).tdm with drill := some (.swap 0) } }; s.tdm.drill = some (.swap 0) ∧ 0 ≤ tick48 s ∧ tdmRuns s = true)) ∧
    ((tdmIn .lifting).tdm.st = .lifting ∧ linkUp (tdmIn .lifting) = true ∧ 8191 < 8192 ∧ (tdmIn .lifting).tdm.lifted.contains 8191 = false ∧ (tdmIn .lifting).tdm.aliveIn = true) ∧
    (({ svc with tdm := { svc.tdm with drill := some (.mute 0) } } : State).tdm.drill = some (.mute 0)) ∧
    (blockDue svc = false ∧ ({ svc with mirror := [(0, hdrOf svc 0, .towpathTick)] } : State).mirror = [(0, hdrOf svc 0, .towpathTick)] ∧ 0 ≤ tick48 svc) ∧
    (nxDirect spNxTdmSet 0 plain (cmd rdy 0x0901 0x0D000000) = true) ∧
    ((let s := { svc with tdm := { svc.tdm with st := .primary, peer := some hi } }
  nxDirect spNxTdmDrill 0 plain (cmd s 0x0902 0x0D000000) = true ∧ (s.tdm.peer.any fun p => p.tdm == 3) = true)) ∧
    (nxInBerth spNxTdmStats 0 plain (cmd svc 0x0903 0x0D000000 2) 48 = true) :=
  ⟨by decide, by decide, by decide, by decide, by decide, by decide, by decide, by decide, by decide, by decide, by decide⟩

/-- A one-step Sync of domain 127 in an Ethernet frame, its interval 1/8 s, its sender 7, its origin time 1 s. -/
  def syncFrame : List Byte :=
    wireFrame (beBytes 0x011B19000000 6 ++ beBytes 0 6 ++ beBytes 0x88F7 2 ++ [0x00, 0x02] ++ beBytes 44 2 ++ [127, 0] ++ beBytes 0 2 ++
      beBytes 0 8 ++ beBytes 0 4 ++ beBytes 7 10 ++ beBytes 3 2 ++ [0, 0xFD] ++ beBytes 1 6 ++ beBytes 0 4)

/-- Its message. -/
  def syncMsg : List Byte := (syncFrame.take 60).drop 14

/-- Its sender as the chosen master, and instance A LOCKED to it over Ethernet. -/
  def master : PtpSrc := ⟨0, 7, 9, -2⟩
  def lockedClk : Clk :=
    { Clk.reset 0 with en := true, servo := .locked, cand := some master, gm := some 9, p := { InstParams.reset 0 with transport := 0 } }
  def ptpIn (stamp : Nat) (poison : Bool) : State :=
    let s := modClk portIn 0 fun _ => lockedClk
    let s := modPort s 0 fun p => { p with ptpq := [0], store := [⟨0, ⟨syncFrame, stamp, 0⟩, 1, [0], [4], 0, false, true, poison⟩] }
    setFlume s 392 { Flume.reset with head := (nums 2).zip (frameItems syncMsg), wptr := gray 2, wSeen := gray 2, rptr := gray 2 }

/-- Instance A with its last Sync n units ago, its sender's Announces heard. -/
  def silentIn (n : Nat) : State :=
    modClk (modTb portIn fun t => { t with elapsed := n }) 0 fun _ => { lockedClk with lastAnn := n, syncLog := -3 }

/-- Instance A LOCKING on a PPS input within ±100 ns for 10 s. -/
  def lockIn : State :=
    modClk (modTb portIn fun t => { t with elapsed := 10 * unitsPerSec }) 0 fun _ =>
      { lockedClk with servo := .locking, cand := none, inBand := some 0, lastUse := 9 * unitsPerSec + 1, p := { InstParams.reset 0 with source := 1 } }

/-- Instance A enabled, no Announce heard for 18 s. -/
  def deafIn : State := modClk (modTb portIn fun t => { t with elapsed := 18 * unitsPerSec }) 0 fun c => { c with en := true }

/-- An Announce of sender src, at 1/4 s, for a grandmaster of priority1 p. -/
  def annMsg (src p gm : Nat) : List Byte :=
    [0x0B] ++ List.replicate 19 0 ++ beBytes src 10 ++ [0, 0, 5, 0xFE] ++ List.replicate 13 0 ++ [BitVec.ofNat 8 p, 6, 0x21, 1, 2, 128] ++
      beBytes gm 8 ++ [0, 0, 0x20]

/-- Instance A just enabled for any grandmaster, or for grandmaster 9 alone. -/
  def freshIn (allow : List Nat) : State := modClk portIn 0 fun c => { c with en := true, p := { c.p with gmAllow := allow } }

set_option maxRecDepth 20000 in
theorem wit_PtpServo :
    ((portOf (ptpIn 65536000000 false) 0).ptpq = 0 :: [] ∧ (storedOf (ptpIn 65536000000 false) 0 0).isSome = true ∧ (ptpIn 0 true).dev.inReset = false ∧
  (parseFrame (syncFrame.take (syncFrame.length - 4))).ptp = some syncMsg ∧
  (popItems (ptpIn 65536000000 false) 392 (fun k => [].getD k []) (ceilDiv syncMsg.length 32)).isSome = true) ∧
    (((popItems (ptpIn 0 false) 392 (fun k => [].getD k []) (ceilDiv syncMsg.length 32)).map fun p => p.1.any fun i => i.words.any (·.poison)) = some false) ∧
    (listens (ptpIn 0 false) 0 0 (parseFrame (syncFrame.take 60)) syncMsg = true ∧ be syncMsg 0 1 % 16 = 0 ∧ lockedClk.cand = some master ∧ master.src = be syncMsg 20 10 ∧
  bitOf (be syncMsg 6 1) 1 = false ∧ within (profRange lockedClk.p.profile).1 (beS syncMsg 33 1) = true ∧ within (profRange lockedClk.p.profile).2.1 master.annLog = true ∧
  lockedClk.gm.isSome = true ∧ lockedClk.servo = .locked ∧ (clkOf (ptpIn 0 false) 0) = lockedClk) ∧
    ((let s := modTb (ptpIn 0 false) fun t => { t with elapsed := unitsPerSec }
  let c := clkOf s 0
  c.en = true ∧ c.p.source = 0 ∧ s.tb.elapsed < c.lastAnn + 3 * log2Time 0 ∧ c.servo.steered = true ∧ c.lastUse + max (4 * log2Time c.syncLog) unitsPerSec ≤ 4 * s.tb.elapsed)) ∧
    ((let s := silentIn unitsPerSec; let c := clkOf s 0
  c.en = true ∧ c.p.source = 0 ∧ s.tb.elapsed < c.lastAnn + 3 * log2Time master.annLog ∧ c.cand = some master ∧ c.lastUse + max (4 * log2Time c.syncLog) unitsPerSec ≤ s.tb.elapsed)) ∧
    ((let c := clkOf lockIn 0
  c.p.source ≠ 2 ∧ c.cand = none ∧ c.servo = .locking ∧ c.inBand = some 0 ∧ 0 + 10 * unitsPerSec ≤ lockIn.tb.elapsed ∧
  lockIn.tb.elapsed < c.lastUse + max (4 * (if c.p.source = 1 then unitsPerSec else log2Time c.syncLog)) unitsPerSec)) ∧
    ((let c := clkOf deafIn 0
  c.p.source = 0 ∧ c.gm = none ∧ c.cand = none ∧ (negOf deafIn 15).st ≠ .failed ∧ c.heard + 9 * log2Time (profRange c.p.profile).2.1.2 ≤ deafIn.tb.elapsed)) ∧
    ((let s := modPort (ptpIn 0 false) 0 fun p => { p with cfg := { p.cfg with txEn := true } }
  (clkOf s 0).cand = some master ∧ (clkOf s 0).p.source = 0 ∧ (clkOf s 0).dreqAt = none ∧ (portOf s master.port).cfg.txEn = true ∧ txWaits s 230 = false)) ∧
    ((clkOf (freshIn [9]) 0).p.gmAllow ≠ [] ∧ (clkOf (freshIn [9]) 0).p.gmAllow.contains (be (annMsg 5 1 8) 53 8) = false) ∧
    ((bestOf 0 [⟨⟨0, 7, 9, -2⟩, [1, 6, 0, 0, 0, 9], 0, [0, 0]⟩]).isSome = true) :=
  ⟨by decide, by decide, by decide, by decide, by decide, by decide, by decide, by decide, by decide, by decide⟩

/-- Automatic selection on A in HOLDOVER for 2 s, B LOCKED and 10 µs away. -/
  def autoIn : State :=
    let s := modTb (upIn .service) fun t => { t with auto := true, elapsed := 20 * 6553600000000, sel := 1 }
    modClk (modClk s 0 fun c => { c with servo := .holdover }) 1 fun c => { c with servo := .locked, time := 655360001 }

/-- Port 3's queue of n entries. -/
  def tsqIn (n : Nat) : State := modTsq svc 3 fun q => { q with entries := (nums n).map fun k => ⟨false, 0, 0, false, k % 4, k, 0⟩, nextSeq := n % 4, lost := 3 }

set_option maxRecDepth 20000 in
theorem wit_SelectedTime :
    ((5 * 65536 * 1000000000 : Int).natAbs ≤ slewMax ∧ 0 < 8000) ∧
    ((let s := upIn .service; s.dev.inReset = false ∧ ([1, 2, 4, 6, 12].all fun j => decide (nextTick s 12 ≤ nextTick s j)) = true)) ∧
    ((let s := modTb (modClk (upIn .service) 1 fun c => { c with time := 65537 }) fun t => { t with pend := some (1, 0) }
  s.tb.pend = some (1, 0) ∧ 0 ≤ s.tb.sel ∧ 65536 < (((clkOf s 1).time : Int) - s.tb.sel).natAbs)) ∧
    ((let s := modTb (modClk (upIn .service) 0 fun c => { c with time := 65536 }) fun t => { t with slewing := true, slewSwitch := true }
  s.tb.slewing = true ∧ (slewDelta s).natAbs ≤ 65536 ∧ s.tb.slewSwitch = true)) ∧
    (autoIn.tb.autoUsed = false ∧ autoIn.tb.pend = none ∧ (clkOf autoIn autoIn.tb.selDom).servo.steered = false ∧
  (clkOf autoIn autoIn.tb.selDom).idle + autoIn.tb.autoWait * 6553600000000 ≤ autoIn.tb.elapsed ∧ (clkOf autoIn (1 - autoIn.tb.selDom)).servo = .locked ∧
  nearSel autoIn (1 - autoIn.tb.selDom) autoIn.tb.switchMax = true) ∧
    (svc.dev.iceRuns = true ∧ svc.dev.devState = .service) :=
  ⟨by decide, by decide, by decide, by decide, by decide, by decide⟩

/-- B steered by PPS with a time of day pending. -/
  def todIn : State := modClk svc 1 fun c => { c with en := true, inEn := true, todPend := some (2 ^ 64 - 1), p := { c.p with source := 1 } }

set_option maxRecDepth 20000 in
theorem wit_TimeStamps :
    ((tsqOf (tsqIn 63) 3).entries.length < tsqSize (tsqIn 63) ∧ 64 ≤ (tsqOf (tsqIn 64) 3).entries.length ∧ (tsqIn 64).dev.compatQ48 = false) ∧
    ((let s := { tsqIn 16 with dev := { svc.dev with compatQ48 := true } }
  s.dev.compatQ48 = true ∧ ((tsqOf s 3).entries.drop 2).length = 14)) ∧
    ((1 : Nat) < 2 ∧ (65535 : Nat) < 65536 ∧ (2 ^ 110 - 1 : Nat) < 2 ^ 110) ∧
    (barLive (tsqIn 1) .host = true ∧ 3 < 4 ∧ (tsqOf (tsqIn 1) 3).entries = ⟨false, 0, 0, false, 0, 0, 0⟩ :: [] ∧ (7 : Word).toNat % 4 ≠ 0 ∧ (4 : Word).toNat % 4 = 0) ∧
    (todOf (modTb svc fun t => { t with sel := 2 ^ 64 * unitsPerSec - 1 }) 2 < 2 ^ 64 * unitsPerSec) ∧
    ((let s := modClk svc 1 fun c => { c with outEn := true, time := unitsPerSec }
  (clkOf s 1).outEn = true ∧ s.dev.devState ≠ .halted ∧ (clkOf s 1).outHigh = false ∧ ppsSec (clkOf s 1) ≠ (clkOf s 1).outSec)) ∧
    ((let s := modClk (modTb svc fun t => { t with elapsed := 6553600000000 }) 1 fun c => { c with outEn := true, outHigh := true }
  (clkOf s 1).outHigh = true ∧ (clkOf s 1).outRise + (clkOf s 1).width * 65536000 ≤ s.tb.elapsed)) ∧
    ((clkOf todIn 1).inEn = true ∧ (clkOf todIn 1).en = true ∧ (clkOf todIn 1).p.source = 1 ∧ (clkOf todIn 1).todPend = some (2 ^ 64 - 1) ∧ todIn.tb.selDom ≠ 1) :=
  ⟨by decide, by decide, by decide, by decide, by decide, by decide, by decide, by decide⟩

/-- B enabled and LOCKED, its source PPS or FREE. -/
  def onIn (d : DevState) (src : Nat) : State := modClk (upIn d) 1 fun c => { c with en := true, servo := .locked, inEn := true, p := { c.p with source := src } }

set_option maxRecDepth 20000 in
theorem wit_TimebaseCommands :
    (nxDirect spNxTbDomainSet 0 plain (cmd svc 0x0A01 0x0E000001) = true ∧ ([TbSet.dnum 127, .transport 2].foldl InstParams.set (clkOf svc 1).p).ok = true ∧
  portsClash ([TbSet.dnum 127, .transport 2].foldl InstParams.set (clkOf svc 1).p) (clkOf svc 0).p = false ∧ (InstParams.reset 1).ports ≠ [] ∧ (InstParams.reset 1).profile ∈ (InstParams.reset 1).accepts) ∧
    (nxDirect spNxTbDomainEnable 0 plain (cmd svc 0x0A02 0x0E000001) = true ∧ (clkOf svc 1).p.source = 0) ∧
    (nxDirect spNxTbDomainDisable 0 plain (cmd (onIn .service 0) 0x0A03 0x0E000001) = true ∧ (onIn .service 0).tb.selDom ≠ 1) ∧
    (nxDirect spNxTbSelect 0 plain (cmd (onIn .service 0) 0x0A04 0x0E000001) = true ∧ (clkOf (onIn .service 0) 1).servo = .locked ∧ nearSel (onIn .service 0) 1 10000000 = true) ∧
    (nxDirect spNxTbPps 0 plain (cmd (onIn .service 1) 0x0A05 0x0E000001) = true ∧ (1 : Nat) ≤ 500000 ∧ (-4000 : Int) ≤ 4000) ∧
    (nxDirect spNxTbSetTod 0 plain (cmd (onIn .ready 1) 0x0A06 0x0E000001) = true ∧ nxDirect spNxTbSetTod 0 plain (cmd (onIn .ready 2) 0x0A06 0x0E000001) = true ∧
  (clkOf (onIn .ready 2) 1).p.source = 2) ∧
    (nxInBerth spNxTbStats 0 plain (cmd (onIn .ready 2) 0x0A07 0 2) 224 = true) :=
  ⟨by decide, by decide, by decide, by decide, by decide, by decide, by decide⟩

/-- An SRTP_ENC request for slot 16383 with 12 header and 8 payload bytes, its index i, completing into LKP. -/
  def encReq (i : Nat) : RimeReq := ⟨1, 0, false, 0, 16383, 8, 12, i, 0, 64, 0, false, 0, 0, 3, 0, 5, false, 2, 95, 0, []⟩

/-- RTP header of a packet of sequence 65535. -/
  def decHead : List Byte := [0x80, 0, 0xFF, 0xFF, 0, 0, 0, 1, 0xCA, 0xFE, 0xBA, 0xBE]

/-- The packet protected under the material of slot 16383 with index 65535. -/
  def decPkt : List Byte := srtpProtect 1 (kdf (List.replicate 32 1) 1 [] 16383 1 240) decHead (List.replicate 8 7) 65535

/-- An SRTP_DEC request of channel 5's Basin for slot 16383, sequence 65535, with its packet. -/
  def decReq (pkt : List Byte) : RimeReq := ⟨2, 1, false, 0, 16383, 8, 12, 0, 0, 64, 0, false, 0, 0, 3, 0, 5, false, 0, 5, 65535, pkt⟩

/-- A device with slot 16383 loaded for SRTP in a direction, homed in reach 3. -/
  def keyIn (st : KeySt) (dir : Nat) : State :=
    modSlot (modStored_ svc fun t => { t with roots := [(0, List.replicate 32 1)] }) 16383 fun k => { k with st := st, mode := 1, dir := dir, home := some 3, gen := 4 }

set_option maxRecDepth 20000 in
theorem wit_KeyIndices :
    ((let h : Hot := ⟨none, false, 7, some 65535, 1⟩
  h.top = some 524287 ∧ h.replayed 524287 = true ∧ 524159 + 128 ≤ 524287 ∧ h.sh = some 65535 ∧ 65535 < 65536 ∧ 0 < h.roc ∧ h.roc < 2 ^ 32 - 1)) ∧
    ((let k := slotOf (modSlot (keyIn .loaded 0) 16383 fun k => { k with hot := { k.hot with hwm := some 70000, warned := true } }) 16383
  k.hot.hwm = some 70000 ∧ 70000 ≤ 70000 ∧ 70000 < 70001 ∧ k.hot.warned = true)) :=
  ⟨by decide, by decide⟩

/-- Reach 3 with one request queued. -/
  def queueIn (st : KeySt) (dir : Nat) (q : RimeReq) : State := modRimeR (keyIn st dir) 3 fun x => { x with queue := [(q, 4)] }

/-- As queueIn, a word of the slot's cold record poisoned. -/
  def coldIn : State :=
    let s := queueIn .loaded 0 (encReq 5)
    { s with fab := { s.fab with ddrPoison := [coldAt s 16383 / 8] } }

/-- As queueIn, the reach's last completion still held at its bank. -/
  def stallIn : State :=
    setFlume (queueIn .loaded 0 (encReq 5)) 639 { Flume.reset with held := [(mkItem 5 false 0 0xFF 0 95 0 0).canalFlit 120] }

/-- Reach 3 with one request deriving or running under key generation 4. -/
  def jobIn (dir : Nat) (wrapped : Bool) (step : RimeStep) (q : RimeReq) : State :=
    modSlot (modRimeR (keyIn .loaded dir) 3 fun x => { x with jobs := [⟨q, 4, step, 65535, 0, []⟩] }) 16383 fun k => { k with wrapped := wrapped }

/-- An SRTP_ENC request from 0x1000 to 0x2000 of LPDDR5X. -/
  def canalReq : RimeReq := { encReq 5 with inPtr := 0x1000, outPtr := 0x2000 }

/-- Reach 3 with it running. -/
  def canalIn : State := modRimeR (bsnIn []) 3 fun x => { x with jobs := [⟨canalReq, 0, .running, 5, 0, []⟩] }

/-- As canalIn, its input poisoned. -/
  def canalBad : State := { canalIn with fab := { canalIn.fab with ddrPoison := [0x1000 / 8] } }

set_option maxRecDepth 20000 in
theorem wit_RimeRequests :
    ((encReq 5).bad = false ∧ { encReq 5 with len := 0 }.bad = true ∧ { encReq 5 with len := 8192 }.bad = false ∧ { encReq (2 ^ 48) with len := 8 }.bad = true ∧ (decReq []).bad = false) ∧
    ((slotOf svc 16383).st = .empty ∧ (slotOf (keyIn .loaded 0) 16383).st ≠ .empty ∧ (slotOf (keyIn .loaded 0) 16383).home ≠ some 2 ∧
  (slotOf (keyIn .loaded 0) 16383).home = some 3 ∧ (slotOf (keyIn .faulted 0) 16383).st = .faulted ∧ (slotOf (keyIn .spent 0) 16383).st = .spent) ∧
    ((decReq []).suits ((slotOf (keyIn .loaded 0) 16383).under 4) = false ∧ (encReq 5).suits ((slotOf (keyIn .loaded 0) 16383).under 4) = true ∧ (encReq 5).op = 1 ∧
  (decReq []).suits ((slotOf (keyIn .loaded 1) 16383).under 4) = true ∧ (decReq []).op = 2) ∧
    ((slotOf (keyIn .loaded 1) 16383).hot.replayed ((slotOf (keyIn .loaded 1) 16383).hot.guess (reqSeq svc (decReq []))) = false) ∧
    (canalIssuer 95 = true ∧ rimeHere svc = true ∧ svc.dev.inReset = false ∧ (List.replicate 64 (0 : Byte)).length = 64) ∧
    (unitStalled (queueIn .loaded 0 (encReq 5)) 120 = false ∧ coldBad (queueIn .loaded 0 (encReq 5)) 16383 = false ∧ (rimeReach (queueIn .loaded 0 (encReq 5)) 3).queue = (encReq 5, 4) :: [] ∧ (rimeReach (queueIn .loaded 0 (encReq 5)) 3).held = [] ∧
  engineFree (rimeReach (queueIn .loaded 0 (encReq 5)) 3) 1 = true ∧ (rimeReach (queueIn .loaded 0 (encReq 5)) 3).jobs = [] ∧
  (rimeCheck (queueIn .loaded 0 (encReq 5)) 3 (encReq 5) 4 .none).1 = 0 ∧ (rimeCheck (queueIn .spent 0 (encReq 5)) 3 (encReq 5) 4 .none).1 = 4 ∧ (encReq 5).done = 0) ∧
    (coldBad coldIn 16383 = true ∧ (rimeReach coldIn 3).cache.contains (16383, 4) = false ∧ (rimeCheck coldIn 3 (encReq 5) 4 .none).1 = 0) ∧
    (unitStalled stallIn 120 = true) ∧
    (unitStalled (jobIn 0 true .deriving_ (encReq 5)) 120 = false ∧ ((rimeReach (jobIn 0 true .deriving_ (encReq 5)) 3).jobs.any fun j => j.step == .deriving_ && j.req.slot == 16383 && j.gen == 4) = true ∧
  (rimeReach (jobIn 0 true .deriving_ (encReq 5)) 3).cache.length < 512 ∧ (slotOf (jobIn 0 true .deriving_ (encReq 5)) 16383).gen = 4 ∧
  materialOf (jobIn 0 true .deriving_ (encReq 5)) 16383 ((slotOf (jobIn 0 true .deriving_ (encReq 5)) 16383).under 4) = none ∧
  (materialOf (jobIn 0 false .deriving_ (encReq 5)) 16383 ((slotOf (jobIn 0 false .deriving_ (encReq 5)) 16383).under 4)).isSome = true) ∧
    ((rimeReach (jobIn 1 false .running (decReq [])) 3).jobs[0]? = some ⟨decReq [], 4, .running, 65535, 0, []⟩ ∧ reqLocal (decReq []) = true ∧ (decReq []).op = 2 ∧ 4 = (slotOf (jobIn 1 false .running (decReq [])) 16383).gen) ∧
    ((let s := canalIn; let q := canalReq
  unitStalled s 120 = false ∧ (rimeReach s 3).jobs[0]? = some ⟨q, 0, .running, 5, 0, []⟩ ∧ reqLocal q = false ∧ q.op ≠ 2 ∧ q.done = 0 ∧ canalWhere s q.outPtr = .ddr 0x2000 ∧ 0x2000 + outLen 1 q ≤ ddrUsable s ∧
  memFlag s q.inPtr = false ∧ memFlag s (q.inPtr + inLenOf 1 q - 1) = false ∧ memPoisoned s q.inPtr (inLenOf 1 q) = false)) ∧
    (([] : List Byte).length ≤ 32 ∧ 16383 < 16384 ∧ 9 < 10 ∧ 1 ≤ 6) ∧
    (memPoisoned canalBad canalReq.inPtr (inLenOf 1 canalReq) = true) :=
  ⟨by decide, by decide, by decide, by decide, by decide, by decide, by decide, by decide, by decide, by decide, by decide, by decide, by decide⟩

/-- READY or SERVICE with roots 3 and 7 present. -/
  def rootsIn (d : DevState) : State :=
    let s := upIn d
    { s with rime := { s.rime with volatileRoots := true }, ice := { s.ice with stored := { s.ice.stored with roots := [(3, List.replicate 32 3)] } } }

/-- The command's berth and slot 16383 after loading it for SRTP, mode 6. -/
  def setIn : State := cmd (rootsIn .service) 0x0B02 0x0F003FFF

/-- Slot 16383 holds the key that DERIVED under root 3 gives it. -/
  def sameKeyIn : State :=
    cmd (modSlot (rootsIn .service) 16383 fun k => { k with st := .loaded, kcv := keyCheck 1 (kdf (List.replicate 32 3) 1 [] 16383 1 240) }) 0x0B02 0x0F003FFF

/-- An XTS slot and its command for one sector of 4096 bytes. -/
  def xtsIn : State := cmdDma (modSlot svc 16383 fun k => { k with st := .loaded, mode := 8 }) 0x0B06 0x0F003FFF 4096 4096

set_option maxRecDepth 20000 in
theorem wit_RimeCommands :
    (nxDirect spNxRimeRootProg 0 plain (cmd (rootsIn .ready) 0x0B01 0) = true ∧ rootHere (nxAt (cmd (rootsIn .ready) 0x0B01 0) 0) 0 = false ∧ rootHere (nxAt (cmd (rootsIn .ready) 0x0B01 0) 0) 3 = true ∧ (List.replicate 32 (7 : Byte)).length = 32) ∧
    ((let u := nxAt setIn 0; let w := keyStored u 16383 6 0 7 (List.replicate 32 1) []
  nxDirect spNxRimeKeySet 0 plain setIn = true ∧ (List.replicate 32 (1 : Byte)).length ≤ 32 ∧ rootHere u 7 = true ∧ rxUsers u 16383 = false ∧ txUsers u 16383 = false ∧
  u.dev.tandemEn = false ∧ (slotOf u 16383).home = none ∧ (slotOf u 16383).st = .empty ∧ (hdrOf setIn 0).dma = false ∧ w.2 = [])) ∧
    (slotMaterial (rootKey (nxAt setIn 0) 7) 16383 6 false (List.replicate 32 1) [] = some (kdf (rootKey (nxAt setIn 0) 7) 1 (List.replicate 32 1) 16383 6 352)) ∧
    (kcvNew (nxAt setIn 0) 16383 1 (keyCheck 6 (kdf (rootKey (nxAt setIn 0) 7) 1 (List.replicate 32 1) 16383 6 352)) = true) ∧
    ((let u := nxAt setIn 0; let x := slotOf u 16383; let y := keyLoaded x 9 2 false 3 [] true [] 9 3; let v := modSlot u 16383 fun _ => y
  rootHere u 3 = true ∧ y.home = some 3 ∧ reachFits v 3 u.rime.strength = true ∧ pinned v 3 ≤ 384 ∧ (homed u 3).length < 4096)) ∧
    (slotMaterial (rootKey (nxAt sameKeyIn 0) 3) 16383 1 false [] (keyStored (nxAt sameKeyIn 0) 16383 1 0 3 [] []).2 = some (kdf (List.replicate 32 3) 1 [] 16383 1 240)) ∧
    ((slotOf (nxAt sameKeyIn 0) 16383).kcv = keyCheck 1 (kdf (List.replicate 32 3) 1 [] 16383 1 240)) ∧
    (nxDirect spNxRimeKeySet 0 plain sameKeyIn = true ∧ (slotOf sameKeyIn 16383).st ≠ .empty) ∧
    (nxDirect spNxRimeKeyClear 0 plain (cmd (keyIn .loaded 0) 0x0B03 0x0F003FFF) = true ∧ slotUsers (keyIn .loaded 0) 16383 = [] ∧ (keyIn .loaded 0).ice.archive ≠ some 16383) ∧
    (nxInBerth spNxRimeKeyGet 0 plain (cmd (keyIn .loaded 0) 0x0B04 0x0F003FFF) 88 = true ∧ nxInBerth spNxRimeKeyGet 0 plain (cmd (keyIn .loaded 1) 0x0B04 0x0F003FFF) 88 = true) ∧
    (nxDirect spNxRimeSet 0 plain (cmd svc 0x0B05 0) = true ∧ reachFits svc 0 3 = true ∧ reachFits svc 3 3 = true) ∧
    (nxAccepted spNxRimeXts 0 plain xtsIn = true ∧ (slotOf xtsIn 16383).mode = 8 ∧ (hdrOf xtsIn 0).inLen = 4096 ∧ (hdrOf xtsIn 0).inLen ≤ (hdrOf xtsIn 0).outLen) ∧
    (nxFits spNxRimeStats 0 plain (cmdDma svc 0x0B07 0 0 348 3) 348 = true ∧ nxDirect spNxRimeStats 0 plain (cmdDma svc 0x0B07 0 0 348 3) = true ∧ (hdrOf (cmdDma svc 0x0B07 0 0 348 3) 0).dma = true ∧ (hdrOf (cmdDma svc 0x0B07 0 0 348 3) 0).clear = true) :=
  ⟨by decide, by decide, by rfl, by decide, by decide, by rfl, by rfl, by decide, by decide, by decide, by decide, by decide, by decide⟩

/-- A job of compressing the 16 bytes at 0x1000 as GZIP into 64 bytes at 0x2000, its record at c, completing into LKP. -/
  def jobQ (c : Nat) : FirnJob := ⟨0, 2, 1, 0, 16, 64, 0x1000, 0x2000, c, 9, false, 0, 3, 0, 5, 7, false⟩

/-- What an engine may make of it. -/
  def jobR : FirnRes := ⟨0, [0x1F, 0x8B, 8, 0, 0, 0, 0, 0, 0, 0xFF, 1, 16, 0, 239, 255] ++ List.replicate 16 0 ++
    [85, 75, 187, 236, 16, 0, 0, 0], 16⟩

/-- Engine 3 running with the job at its head and one write held; LPDDR5X is live. -/
  def firnIn (q : FirnJob) (run : Bool) : State :=
    modFirn (bsnIn []) 3 fun x => { x with run := run, queue := [q], held := [q] }

/-- The job that expands that stream again. -/
  def expQ (c : Nat) : FirnJob := { jobQ c with op := 1, level := 0, inLen := 39 }

/-- What the engine makes of it. -/
  def expR : FirnRes := ⟨0, List.replicate 16 0, 39⟩

/-- Engine 3 with that job, its input at 0x1000. -/
  def expIn : State :=
    let s := firnIn (expQ 64) true
    { s with fab := { s.fab with ddr := writeBytes s.fab.ddr 0x1000 jobR.out } }

set_option maxRecDepth 20000 in
theorem wit_FirnEngines :
    (canalIssuer 95 = true ∧ (bsnIn []).dev.inReset = false ∧ 3 < 4 ∧ (List.replicate 64 (0 : Byte)).length = 64) ∧
    (unitStalled (firnIn (jobQ 64) true) 147 = false ∧ (firnOf (firnIn (jobQ 64) true) 3).queue = jobQ 64 :: [] ∧ (firnOf (firnIn (jobQ 64) true) 3).run = true ∧ (jobQ 64).cplPtr % 32 = 0 ∧
  canalWhere (firnIn (jobQ 64) true) 64 = .ddr 64 ∧ 64 + 32 ≤ ddrUsable (firnIn (jobQ 64) true) ∧ (jobQ 64).bad = false ∧ { jobQ 64 with level := 0 }.bad = true ∧ (jobQ 64).cplPtr < 2 ^ 40 ∧ (jobQ 64).kind < 64) ∧
    ((let s := firnIn (jobQ 64) true; let q := jobQ 64
  canalWhere s q.outPtr = .ddr 0x2000 ∧ 0x2000 + q.outLen ≤ ddrUsable s ∧ 64 + 32 ≤ 0x2000 ∧ memFlag s q.inPtr = false ∧
  memFlag s (q.inPtr + q.inLen - 1) = false ∧ memPoisoned s q.inPtr q.inLen = false ∧ q.op = 0 ∧ s.dev.compatQ48 = false)) ∧
    ((let s := expIn; let q := expQ 64
  firnPossible q (memRead s q.inPtr q.inLen) expR = true ∧ firnPossible q (memRead s q.inPtr q.inLen) ⟨0, [], 39⟩ = false ∧ q.bad = false ∧ q.op = 1)) ∧
    (firnGood false 2 1 (List.replicate 16 0) jobR.out = true ∧ firnGood true 2 1 (List.replicate 16 0) jobR.out = false ∧
  firnGood true 2 1 [1, 200] (firnPlain true 2 1 [1, 200]) = true) ∧
    ((let s := setFlume (firnIn (jobQ 64) true) 639 { Flume.reset with held := [(mkItem 5 false 0 0xFF 0 95 0 0).canalFlit 147] }
  unitStalled s 147 = true)) ∧
    ((firnOf (firnIn (jobQ 64) false) 3).run = false) ∧
    (nxInBerth spNxFirnStats 0 plain (cmd (firnIn (jobQ 64) true) 0x0C01 0x10000003 2) 64 = true) :=
  ⟨by decide, by decide, by decide, by decide, by decide, by decide, by decide, by decide⟩

/-- Local port 7 enabled as a slave of 64 slots at 48 kHz, its format found or not. -/
  def lpIn (found : Option (Nat × Nat × Nat)) : State := modLport svc 7 fun x => { x with en := true, found := found, agree := 63, meas := some (64, 32, 48000000) }

/-- As lpIn, channel 5 sending to slot 3, its sample for tick 9 made. -/
  def sendIn : State :=
    let s := modChan (lpIn (some (2, 64, 48))) 5 fun _ => { chIn .running with core := { (chIn .running).core with rxSink := .tdm 7 3 } }
    modLport s 7 fun x => { x with out := [(3, 9, 0xABC)] }

set_option maxRecDepth 20000 in
theorem wit_LocalPorts :
    ((lportOf (lpIn (some (2, 64, 48))) 7).fmt = some (64, 48) ∧ (lportOf (lpIn (some (2, 64, 48))) 7).en = true) ∧
    (((flumeOf (lpIn (some (2, 64, 48))) 433).pushUnit (flumeB 433) (tdmWords ((List.replicate 64 (0 : Word)).take 64))).isSome = true ∧
  (flumeOf (setFlume (lpIn none) 433 { Flume.reset with wptr := gray 128 }) 433).pushUnit (flumeB 433) (tdmWords (List.replicate 64 0)) = none) ∧
    ((let x := lportOf (lpIn none) 7
  x.fmt = none ∧ iceUp (lpIn none) = true ∧ x.meas = some (64, 32, 48000000) ∧ x.agree = 63 ∧ 64 ≤ 65 + 1 ∧ 65 ≤ 64 + 1 ∧ 32 ≤ 31 + 1 ∧ 31 ≤ 32 + 1 ∧
  detect x 64 32 48000000 = some (0, 2, 48) ∧ detect x 64 32 48048001 = none)) ∧
    (tdmDue sendIn 7 3 9 = 0xABC ∧ tdmDue sendIn 7 3 8 = 0 ∧ tdmDue sendIn 7 2 9 = 0) ∧
    ((lportOf (lpIn none) 7).master = false ∧ (lportOf (lpIn (some (0, 2, 48))) 7).found.isSome = true) ∧
    ((let u := nxAt (cmd rdy 0x1001 0x14000007) 0
  let y := ([.en true, .master true, .format 3, .slots 32, .width 32, .rate 96] : List LpSet).foldl Lport.set (lportOf u 7)
  nxDirect spNxLportSet 0 plain (cmd rdy 0x1001 0x14000007) = true ∧ y.inRange = true ∧ y.clockOk = true ∧ y.master = true ∧ y.rate ≠ 0 ∧ y.slots ≠ 0 ∧ y.width ≠ 0 ∧ y.format = 3)) ∧
    (nxInBerth spNxLportStats 0 plain (cmd (lpIn none) 0x1002 0x14000007 2) 48 = true) :=
  ⟨by decide, by decide, by decide, by decide, by decide, by decide, by decide⟩

/-- VDD_CORE set to 0.75 V. -/
  def voltIn : State := modSense svc fun x => { x with vBase := 7500, holdup := 24000 }

/-- RECOVERY from a condition. -/
  def rcvIn (c : Nat) : State := { voltIn with dev := { svc.dev with devState := .recovery, recovering := some c } }

set_option maxRecDepth 20000 in
theorem wit_SensorsAndFaults :
    (iceUp svc = true ∧ 23 < 24 ∧ (11000 : Int) ≤ 11000 ∧ voltOk svc 15 17459 = false ∧ voltOk svc 15 17460 = true ∧ voltOk svc 8 7726 = false) ∧
    (iceUp voltIn = true ∧ voltOk voltIn 7 6999 = false ∧ 7 < 8 ∧ 6999 + 500 < vSet voltIn ∧ voltIn.dev.devState = .service ∧ ¬ (7000 + 500 < vSet voltIn) ∧ voltOk voltIn 7 7350 = true) ∧
    (iceUp (rcvIn 5) = true ∧ (rcvIn 5).dev.rcvDone = false ∧ (rcvIn 0x4A).dev.recovering = some 0x4A ∧
  ((nums 8).all fun i => voltOk (modSense (rcvIn 5) fun x => { x with volts := (nums 8).map fun k => (k, 7500) }) i 7500) = true) ∧
    (svc.ice.sense.ablWant = none) :=
  ⟨by decide, by decide, by decide, by decide⟩

/-- Ablation at v, its last rise at 5 s, the time now 15 s less n units. -/
  def ablIn (v n : Nat) : State :=
    modSense (modTb voltIn fun t => { t with sel := 15 * unitsPerSec - n, elapsed := unitsPerSec }) fun x =>
      { x with vAbl := v, step := 50, ablAt := some (5 * unitsPerSec), slowSince := [(95, some 0), (211, some 0)] }

set_option maxRecDepth 20000 in
theorem wit_BackgroundAndProbes :
    ((1 : Nat) ≤ 30 ∧ 30 < 31 ∧ bgRuns voltIn = true ∧ 211 < 212 ∧ voltIn.ice.sense.vrMode ≠ 2) ∧
    (slowFor (ablIn 600 0) 95 = true ∧ slowFor (ablIn 580 1) 211 = true ∧ slowFor (ablIn 580 1) 210 = false ∧ 600 ≤ (ablIn 600 0).ice.sense.vAbl ∧ (ablIn 580 0).ice.sense.vAbl < 600 ∧ (ablIn 580 0).ice.sense.step ≠ 0 ∧ 5 * unitsPerSec + 10 * unitsPerSec ≤ (ablIn 580 0).tb.sel ∧
  (ablIn 580 1).tb.sel < 5 * unitsPerSec + 10 * unitsPerSec ∧ (ablIn 580 1).ice.sense.ablAt = some (5 * unitsPerSec)) ∧
    (plExists svc .neve 4194303 = true ∧ plExists svc .neve 4194304 = false ∧ plExists svc (.imem 95) 8191 = true) ∧
    ((({ svc with fab := { svc.fab with live := [(7, 3)] } } : State).fab.live.any fun l => l.1 == 7) = true) ∧
    (63 < 64 ∧ svc.dev.inReset = false ∧ (probeOf (modProbe svc 63 fun q => { q with en := true, cnt := 2 ^ 64 - 1 }) 63).en = true ∧
  (probeOf (modProbe svc 63 fun q => { q with cnt := 2 ^ 64 - 1 }) 63).cnt < 2 ^ 64 ∧ barLive svc .host = true) ∧
    (nxDirect spNxStrProbe 0 plain (cmd svc 0x0E01 0x1200003F) = true ∧ qtyOk 3 685 = true ∧ qtyOk 8 3 = true ∧
  nxDirect spNxStrRead 0 plain (cmdDma svc 0x0E02 0x1200003F 0 288 3) = true ∧ (hdrOf (cmdDma svc 0x0E02 0x1200003F 0 288 3) 0).dma = true) :=
  ⟨by decide, by decide, by decide, by decide, by decide, by decide⟩

/-- A batch of two records waits for region 2. -/
  def flushIn : State := modFlash voltIn fun f => { f with batches := [(2, ⟨[[1, 2], [3]], 5, 6⟩)] }

/-- An operation of region 2's write to sector 11264 at the head of the queue. -/
  def opIn (k : FlashKind) (final retry busy : Bool) : State :=
    modFlash flushIn fun f => { f with queue := [⟨k, .sector 2 11264 2 true none, 1, final, retry⟩], busy := busy, spare := 1023 }

set_option maxRecDepth 20000 in
theorem wit_AlarmsLogsFlash :
    ((let e := { LaneExit.reset with en := true, minSev := 6, pend := [⟨4, 0, 1, 2, 3, 4, 5, 6, false⟩] }
  e.en = true ∧ alarmSev 4 ≤ e.minSev ∧ (e.pend.any fun r => r.code == 4) = true ∧ (e.pend.all fun r => r.code != 3) = true)) ∧
    (iceUp svc = true ∧ 0 < svc.ice.lanes.tokens ∧ svc.ice.lanes.ring.en = true ∧ 6 ≤ svc.ice.lanes.ring.minSev ∧ svc.ice.lanes.ring.logs.length < 32768) ∧
    ((let l := (modLanes svc fun l => { l with tokens := 0, supp := 7, suppFirst := 8, suppLast := 9 }).ice.lanes
  l.tokens = 0 ∧ l.supp ≠ 0 ∧ l.ring.en = true ∧ 5 ≤ l.ring.minSev ∧ l.ring.skipped = 0 ∧ l.ring.logs.length < 32768)) ∧
    (flushIn.dev.devState ≠ .halted ∧ (tabGet Batch.reset flushIn.ice.flash.batches 2).recs ≠ [] ∧ flushIn.ice.flash.queue = [] ∧ flushIn.ice.flash.busy = false ∧ holdupOk flushIn .erase4 = true) ∧
    ((opIn .page true false false).ice.flash.queue ≠ [] ∧ (opIn .page true false true).ice.flash.busy = true ∧ (opIn .page true true true).ice.flash.spare < 1024 ∧ (opIn .page true true true).ice.flash.pwrLow = false) ∧
    ((modFlash (opIn .page true false true) fun f => { f with pwrLow := true }).ice.flash.pwrLow = true) :=
  ⟨by decide, by decide, by decide, by decide, by decide, by decide⟩

/-- An update of slot B, all its blocks written. -/
  def fwIn : State := { voltIn with nx := { voltIn.nx with long := [⟨0, hdrOf (cmd voltIn 0x0D05 0x11000000) 0, .fwUpdate 1 7, 0⟩] } }

/-- Slot B VERIFIED, HOLDUP_SENSE at v. -/
  def actIn (v : Nat) : State := cmd (modStored_ (modSense voltIn fun x => { x with holdup := v }) fun x => { x with verified := [1] }) 0x0D06 0x11000000

set_option maxRecDepth 20000 in
theorem wit_IcehouseCommands :
    (nxDirect spNxIceSensors 0 plain (cmdDma voltIn 0x0D01 0x11000000 0 1060) = true ∧ (hdrOf (cmdDma voltIn 0x0D01 0x11000000 0 1060) 0).dma = true) ∧
    ((let s := cmdDma (modIce voltIn fun i => { i with snaps := [snapNow voltIn] }) 0x0D01 0x11000000 0 4096
  nxDirect spNxIceSensors 0 plain s = true ∧ (replyOf [snapVals (snapNow voltIn)]).length ≤ (hdrOf s 0).outLen)) ∧
    (nxAccepted spNxIceLogRead 0 plain (cmdDma voltIn 0x0D02 0x11000000 0 0) = true ∧ (logRecs voltIn 3 0 5).flatten.length ≤ 0) ∧
    ((let l : List LogSet := [.syslogEn true, .mgmtAddr (some ⟨false, 5, 32, 1⟩), .syslogDest (some (6, some 65535)), .tlmDest (some (6, none)), .drift 60000, .flush 60, .archive (some 16383)]
  nxDirect (spNxIceLogSet l) 0 plain (cmd (modSlot voltIn 16383 fun k => { k with st := .loaded, mode := 8 }) 0x0D03 0x11000000) = true ∧ (l.all fun x => x.inRange) = true)) ∧
    (nxDirect spNxIceHoldup 0 plain (cmd rdy 0x0D04 0x11000000) = true ∧ HoldParams.reset.ok = true) ∧
    (nxAccepted spNxFwUpdate 0 plain (cmdDma voltIn 0x0D05 0x11000000 16777216 0) = true) ∧
    (iceUp fwIn = true ∧ (fwIn.nx.long.find? fun l => l.berth == 0).isSome = true ∧ fwIn.ice.flash.queue = []) ∧
    (nxDirect fwActivateSpec 0 plain (actIn 24000) = true ∧ holdupOk (nxAt (actIn 24000) 0) .page = true ∧ nxDirect fwActivateSpec 0 plain (actIn 6000) = true ∧ holdupOk (nxAt (actIn 6000) 0) .page = false) ∧
    (nxDirect spNxKeyEnroll 0 plain (cmd rdy 0x0D07 0x11000000) = true ∧ rdy.ice.stored.keys.length < 4 ∧ nxDirect spNxKeyEnroll 0 plain (cmd (modStored_ rdy fun x => { x with keys := [⟨0x8000, 0xFFFF, 3, false⟩] }) 0x0D07 0x11000000) = true) :=
  ⟨by decide, by decide, by decide, by decide, by decide, by decide, by decide, by decide, by decide⟩

/-- SERVICE with Nivo powered. -/
  def nivoIn : State := { svc with nivo := { Nivo.reset with powered := true, clock := 5 } }

/-- A table of slots 255 and 0, both of programme 9. -/
  def tapT : TapTable := ⟨[⟨255, 5, true, 9, 0⟩, ⟨0, 5, false, 9, 1⟩], 10, 7⟩

/-- A frame of block 100 whose slot 255 is ACTIVE and VALID; slot 0 as given. -/
  def tapF (a v : Bool) : TapFrame := ⟨100, 12500000, 2, 1, 7, tabSet TapSlot.none [(255, ⟨true, true, false, []⟩)] 0 ⟨a, v, false, []⟩⟩

set_option maxRecDepth 20000 in
theorem wit_AuditNeverFalls :
    exec .towpathTick nivoIn = .next (match exec .towpathTick nivoIn with | .next t => t | _ => nivoIn) :=
  by rfl

set_option maxRecDepth 20000 in
theorem wit_NivoRecords :
    (nivoWrites nivoIn = true ∧ nivoWrites svc = false ∧ nivoIn.nivo.recs.length < nivoRecMax ∧ nivoIn.nivo.audit < 0xFFFFFFFF) ∧
    ((modNivo nivoIn fun n => { n with audit := 0xFFFFFFFF }).nivo.audit = 0xFFFFFFFF) ∧
    ((tabGet TapSlot.none (tapF false false).slots 255).active = true ∧ usageOf nivoIn 255 = none ∧ usageOf (setUsage nivoIn 255 (some ⟨5, true, 3, 8000⟩)) 255 = some ⟨5, true, 3, 8000⟩ ∧
  (tabGet TapSlot.none (tapF false false).slots 0).active = false) ∧
    ((tapT.entries.all fun e => !(tabGet TapSlot.none ([] : Tab TapSlot) e.slot).active) = true ∧ (tabGet TapSlot.none (tapF true false).slots 0).active = true ∧
  (tabGet TapSlot.none (tapF true false).slots 0).valid = false ∧ (tapT.entries.all fun e => !(tabGet TapSlot.none (tapF false false).slots e.slot).active || (tabGet TapSlot.none (tapF false false).slots e.slot).valid) = true) ∧
    (nivoUp nivoIn = true ∧ (600000000000 % (tapT.interval * 60000000000) = 0) ∧ (60000000000 % (tapT.interval * 60000000000) ≠ 0) ∧ nivoIn.nivo.update = false ∧ nivoIn.nivo.holdLow = false) ∧
    ((modNivo nivoIn fun n => { n with table := some tapT }).nivo.table = some tapT) ∧
    (([⟨255, 5, true, 9, 0⟩] : List TapEntry) = [⟨255, 5, true, 9, 0⟩] ∧ (tabGet TapSlot.none (tapF false false).slots 255).valid = true ∧
  (progOf (modNivo nivoIn fun n => { n with progs := [(9, { Prog.reset with meter := { Meter.reset with blocks := 799 } })] }) 9).meter.blocks = 799) ∧
    ((let m : Meter := { Meter.reset with steps := [] }; (m.vals 0 none).gated = 0 ∧ m.steps.length < 4)) :=
  ⟨by decide, by decide, by decide, by decide, by decide, by decide, by decide, by decide⟩

/-- A selection of channel 5, the last generation 2^32 − 1, 1 KiB of tap rings. -/
  def tapIn : State :=
    let s := modChan nivoIn 5 fun _ => chIn .running
    let s := modChan s 5 fun c => { c with core := { c.core with rate := 48 } }
    modNivo { s with fab := { s.fab with parts := [0, 0, 0, 0, 0, 0, 1] } } fun n => { n with genSeen := 2 ^ 32 - 1 }

/-- The table on its way as generation g, its command waiting. -/
  def selIn (g k : Nat) : State :=
    let c : LongCmd := ⟨0, hdrOf (cmdDma svc 0x0F01 0x13000000 64 0) 0, .nivoTap g, 0⟩
    let s := { nivoIn with nx := { nivoIn.nx with long := [c] } }
    { s with tap := { s.tap with sent := some (g, tapT, k), selPath := [(g, tapT)], acks := [(g, 4)] } }

/-- A frame on the link after block b, generation 7 waiting. -/
  def linkIn (b : Nat) : State :=
    let s := { nivoIn with tap := { nivoIn.tap with link := [tapF true true], frame := some (tapF true true) } }
    modNivo s fun n => { n with lastBlock := some b, pend := some (7, tapT), progs := [(9, { Prog.reset with begun := true })] }

set_option maxRecDepth 20000 in
theorem wit_NivoSelection :
    ((let s := cmdDma tapIn 0x0F01 0x13000000 64 0; let u := nxAt s 0
  nxAccepted spNxNivoTap 0 plain s = true ∧ (hdrOf s 0).dma = true ∧ tapT.inRange = true ∧ tapT.entries.length ≤ 256 ∧ (tapT.entries.map (·.slot)).Nodup ∧
  (tapT.entries.map fun e => (e.chan, e.tx)).Nodup ∧ (chanOf u 5).st ≠ .free ∧ (chanOf u 5).core.rate = 48 ∧ tapT.progs = [9] ∧ progRoles (tapT.of 9) = true ∧
  512 * tapT.entries.length ≤ partSize u 6 ∧ u.nivo.update = false ∧ u.nivo.audit ≠ 0xFFFFFFFF ∧ u.nivo.fault = false)) ∧
    ((selIn 1 3).tap.selPath = (1, tapT) :: [] ∧ nivoUp (selIn 1 3) = true ∧ (selIn 0 3).nivo.genSeen = 0 ∧ (selIn 1 3).nivo.genSeen ≠ 1 ∧ nivoWrites (selIn 1 3) = true ∧ (selIn 1 3).nivo.audit < 0xFFFFFFFF) ∧
    ((selIn 1 3).tap.acks = (1, 4) :: [] ∧ (selIn 1 2).tap.sent = some (1, tapT, 2) ∧ (tapCmd (selIn 1 2) 1).isSome = true ∧ ((tapCmd (selIn 1 2) 1).map fun c => c.hdr.dma) = some true) ∧
    (nivoFitted nivoIn = true ∧ nivoIn.dev.inReset = false ∧ nivoIn.dev.nxUp = true ∧ nivoIn.tap.block ≠ some (blockNow nivoIn) ∧ nivoIn.tap.table = none ∧
  ({ nivoIn with tap := { nivoIn.tap with table := some tapT } } : State).tap.table = some tapT) ∧
    ((linkIn 99).tap.link = tapF true true :: [] ∧ (linkIn 99).nivo.lastBlock = some 99 ∧ (tapF true true).block = 99 + 1 ∧ (tapF true true).block ≠ 100 + 1 ∧ (tapF true true).servo = 2 ∧
  (tapF true true).gen = 7 ∧ (linkIn 99).tap.frame = some (tapF true true) ∧ (linkIn 100).nivo.update = false) :=
  ⟨by decide, by decide, by decide, by decide, by decide⟩

/-- Nivo in update mode, with a verified image of version 8 or not. -/
  def updIn (ok : Bool) : State :=
    let s := modNivo nivoIn fun n => { n with updLow := true, update := true }
    modNivoFw s fun f => { f with verified := ok, secVer := [0, 8], floor_ := 7 }

set_option maxRecDepth 20000 in
theorem wit_NivoPinsAndUpdate :
    (nivoFitted nivoIn = true ∧ nivoIn.nivo.sealLow ≠ true ∧ nivoIn.nivo.updLow ≠ true ∧ nivoUp nivoIn = true ∧ nivoIn.nivo.audit < 0xFFFFFFFE ∧ (modNivo nivoIn fun n => { n with sealLow := true, audit := 0xFFFFFFFD }).nivo.sealLow ≠ false) ∧
    (nivoUp (updIn true) = true ∧ nivoIn.nivo.update = false ∧ (updIn true).nivo.update = true ∧ (updIn true).nivo.holdLow = false ∧ (updIn true).nivo.fault = false ∧
  (updIn true).nivo.audit < 0xFFFFFFFF ∧ (updIn true).nivoFw.verified = true ∧ (updIn true).nivoFw.floor_ ≤ 7) ∧
    (nivoIn.dev.iceRuns = true ∧ nivoIn.dev.inReset = false ∧ nivoIn.nivo.powered = true) ∧
    (nxDirect spNxNivoInfo 0 plain (cmdDma nivoIn 0x0F02 0x13000000 0 1120) = true ∧ (hdrOf (cmdDma nivoIn 0x0F02 0x13000000 0 1120) 0).dma = true ∧ 1120 ≤ (hdrOf (cmdDma nivoIn 0x0F02 0x13000000 0 1120) 0).outLen) :=
  ⟨by decide, by decide, by decide, by decide⟩

/-! ## Ill-formed commands -/

set_option maxRecDepth 20000 in
  /-- Berths, channels, Floes and flumes that do not exist. -/
  theorem test_wf_hosts : ([.nxDevInfo 64 plain, .longCommandComplete 64 [] 0 none, .msixUnmask 256, .berthWrite 16384 [0],
      .registerWrite .host (.ringBase 128 false) 0, .registerWrite .host (.msix 256 0) 0, .registerWrite .host (.msix 0 4) 0,
      .registerWrite .host (.lkpWeight 8) 0, .registerWrite .host (.sluCoef 16 0) 0, .registerWrite .host (.sluCoef 0 2048) 0,
      .registerWrite .host (.quayCtrl 4) 0, .registerWrite .host (.quayUc 0 16 false) 0, .registerWrite .host (.quayHash 0 128) 0] : List Instr).all
      (fun c => !c.wf) = true := by decide

set_option maxRecDepth 20000 in
  /-- Parts of the media path that do not exist. -/
  theorem test_wf_parts : ([.processingFrameBoundary 8192, .floeEccRead 96, .flumeFullClear 686, .govQueueTake 8, .packetArrival ⟨4, []⟩,
      .jctSliceCountRead 8 0, .coefRewriteDone 16, .frameSent 4, .flowEntryRewrite 65536, .txDescriptorFetch 128 [], .ringTailWrite 128 0,
      .weirArrival ⟨4, []⟩ false, .weirContextRebuild 16384] : List Instr).all (fun c => !c.wf) = true := by decide

set_option maxRecDepth 20000 in
  /-- Parts of the other units that do not exist, and commands that are well formed. -/
  theorem test_wf_rest : ([.ptpNoGm 2, .firnCtrlWrite 4 0, .tempTrip 24 0, .voltRange 16 0 false, .islandSlow 248, .soundingRetrain 8 true,
      .strCntRead .host 64 false, .logFlush 3 0, .lportNoClock 8, .nivoI2cSeqSelect 4294967296, .tbTodNsRead .host 3] : List Instr).all
      (fun c => !c.wf) = true ∧
      ([.nxDevInfo 63 plain, .govQueueTake 7, .berthWrite 16383 [0], .islandSlow 247] : List Instr).all (fun c => c.wf) = true := by decide

/-- No row of the table gives bits: no word spells a command. -/
  theorem test_no_words : decodeTableWord 32 0 = none ∧ decodeTableWord 0 0 = none := by decide

/-! ## Worked cases of the spec -/

/-- Chapter 01: the site of a corrected bit of Névé address 0x10_00C4_1238. -/
  theorem test_neve_site : neveSite 0xC41238 = siteOf 2 0 1 0 210 8 0xC417 0xFF ∧ siteOf 1 0 1 0 210 8 0xC417 0x2D = 0x00C4172D28D20008 := by decide

/-- Chapter 01: partitions of a gateway, in KiB. -/
  theorem test_partitions : let s := modFab svc fun f => { f with parts := [8192, 4096, 4096, 2048, 8192, 2048, 4096] }
      (nums 5).map (fun k => 0x1000000000 + partBase s (k + 2)) = [0x1000C00000, 0x1001000000, 0x1001200000, 0x1001A00000, 0x1001C00000] := by decide

/-- Chapter 03: units of the hub's channels. -/
  theorem test_units : let c (l : List ParSet) : Nat := (Chan.reset.sets l).fu
      c [.rate 8, .codec .g711u, .ecOn true, .tail 64, .toneDir 1, .vadOn true] = 57 ∧ c [.rate 8, .codec .g729, .ecOn true, .tail 128, .toneDir 1] = 109 ∧
      c [.rate 48, .codec .opus, .complexity 5, .ecOn false, .aecOn true, .toneDir 1, .dtx true] = 226 ∧
      c [.rate 16, .codec .g722, .ecOn true, .tail 128, .toneDir 1, .vadOn true] = 152 ∧ c [.rate 48, .codec .l24, .ecOn false] = 20 := by decide

/-- Chapter 04: the fold of a shortened circular buffer. -/
  theorem test_fold : let r : FloeRegs := (FloeRegs.reset.modAd 2 fun a => { a with p := 0x20400, b := 0x20400, l := 0x0C0 }).modAd 5 fun a => { a with p := 0x20500 }
      let f := fold { r with link := [(5, 2)] } 2 0x180 0x0C0
      (f.1.ad 2).p = 0x20400 ∧ (f.1.ad 5).p = 0x20400 ∧ f.2 = true := by decide

/-- Chapter 05: a sum past the range, pinned against wrapped. -/
  theorem test_pinned : let a : Lane := Lane.of (2 ^ 71 - 2 ^ 62); let p := a.acc false (2 ^ 62); let w := a.acc true (2 ^ 62)
      p = (⟨0x7FFFFFFFFFFFFFFFFF, true⟩, true) ∧ extract p.1.val.toInt 40 2 = 0x7FFFFFFF ∧ p.1.acc false (-2 ^ 62) = (p.1, true) ∧
      w.1.val = 0x800000000000000000 ∧ extract w.1.val.toInt 40 2 = -0x80000000 ∧ (w.1.acc true (-2 ^ 62)).1.val = 0x7FC000000000000000 ∧
      extract (w.1.acc true (-2 ^ 62)).1.val.toInt 40 2 = 0x7FC00000 := by decide

/-- Chapter 05: ties and limits at 16 bits. -/
  theorem test_extract : extract 5 1 0 = 3 ∧ extract (-5) 1 0 = -2 ∧ extract (-3) 1 0 = -1 ∧ extract 6 2 0 = 2 ∧ extract (-6) 2 0 = -1 ∧ extract (-7) 2 0 = -2 ∧
      extract 2147450880 16 0 = 32767 ∧ extract (-2147516416) 16 0 = -32768 ∧ extract (-2147516417) 16 0 = -32768 := by decide

/-- Chapter 05: the estimate of the line canceller and its mirror. -/
  theorem test_estimate : extract (13109 * 2 ^ 30) 31 0 = 0x199B ∧ extract (-13109 * 2 ^ 30) 31 0 = 0xE666 - 65536 := by decide

/-- Chapter 05: NORM on edge values and over one accumulator. -/
  theorem test_norm : ([0, -1, 1, 2 ^ 24, -2 ^ 40, 2 ^ 47 + 5, -3, 2 ^ 30] : List Int).map (fun x => norm (BitVec.ofInt 72 x)) = [71, 71, 70, 46, 31, 23, 69, 40] ∧
      ([-2, 2 ^ 63 - 1, 2 ^ 63, -2 ^ 63, -2 ^ 63 - 1, 2 ^ 71 - 1, -2 ^ 71] : List Int).map (fun x => norm (BitVec.ofInt 72 x)) = [70, 8, 7, 8, 7, 0, 0] := by decide

/-- Chapter 06: flumes and banks of channel 37's Floe, and of bank 7. -/
  theorem test_banks : admitBank 5 = 0 ∧ bankFloes 7 = [84, 85, 86, 87, 88, 89, 90, 91, 92, 93, 94, 95] := by decide

/-- Chapter 07: slots of two Basins. -/
  theorem test_slots : let t := { chIn .running with blk := { (chIn .running).blk with adaptive := true, depth := 320, depthMin := 160, depthMax := 1600, w := 16, rxPtime := 960 } }
      t.dpk = 10 ∧ t.slots = 32 ∧ headBytes 32 = 1024 ∧ headBytes 16384 = 5 * 1024 ∧ headBytes 1024 = 1024 := by decide

set_option maxRecDepth 20000 in
  /-- Chapter 07: the target the third-smallest of 500 margins gives. -/
  theorem test_target : let t := { chIn .running with blk := { (chIn .running).blk with adaptive := true, depth := 320, depthMin := 160, depthMax := 1600 }, live := { (chIn .running).live with adaptQ := 995, adaptWin := 10, guard_ := 16 } }
      let b := { Basin.reset with depth := 320, margins := [(0, -9000000), (0, 7), (0, -3100000), (0, -4000000)] ++ List.replicate 496 (0, 9) }
      targetOf t b 0 = (-3100000, 361) := by decide

/-- Chapter 08: one term, one clipped sum and the mix-minus of two commentators. -/
  theorem test_mix : mixTerm 3 4096 = 2 ∧ (mixOut (0x70000000 + 0x20000000 + 2)).1 = 0x7FFFFFFF ∧ (mixOut (0x20000000 + 2)).1 = 0x20000002 := by decide

/-- Chapter 08: the first steps of two ramps. -/
  theorem test_ramp : rampGain 8192 2048 960 1 = 8186 ∧ rampGain 0 8192 240 1 = 34 ∧ rampGain 8192 2048 960 960 = 2048 := by decide

/-- Chapter 09: a 48 to 4 kHz chain. -/
  theorem test_chain : let p := mkProfile 48000 [⟨.dcb, 13, 1, 0, 0, 0, 0, 0⟩, ⟨.dec, 0, 4, 47, 0, 0, 1776, 0⟩, ⟨.dec, 0, 3, 63, 0, 0, 1823, 0⟩]
      p.u = 13 ∧ p.mac = 864000 ∧ (p.stages.map (·.need)).sum = 108 := by decide

set_option maxRecDepth 20000 in
  /-- Chapter 10: cells and items of frames. -/
  theorem test_cells : cellsOf 1210 = 5 ∧ cellsOf 9600 = 38 ∧ rxCells svc = 8192 ∧ (frameItems (List.replicate 1210 0)).length = 20 := by decide

/-- Chapter 12: the selected instant of a switch asked for at 250 µs. -/
  theorem test_switch : switchAt (modTb svc fun t => { t with sel := 250000 * 65536 }) = 1000000 * 65536 := by decide

/-- Chapter 12: an RTP timestamp. -/
  theorem test_rtp : ticksOf 48000 (1700000000 * unitsPerSec + 500000 * 65536) % 2 ^ 32 = 4211310616 := by decide

set_option maxRecDepth 20000 in
  /-- Chapter 12: a slew of 400 ns lasts 1,265 ms, to a millisecond. -/
  theorem test_slew : slewTime (400 * 65536) 0 / (1000000 * 65536) = 1264 ∨ slewTime (400 * 65536) 0 / (1000000 * 65536) = 1265 := by decide

/-- Chapter 13: rounds one packet takes at STRENGTH 2. -/
  theorem test_rounds : let c := packetCost { KeySlot.reset with mode := 1 } true 160; let d := packetCost { KeySlot.reset with mode := 5, pin := true } true 144
      c.2.1 * 12 + c.1 * 16 = 264 ∧ c.2.2 = 24 ∧ d.2.1 * 12 + d.1 * 16 = 120 := by decide

/-- Chapter 14: the bound of one MiB in three formats. -/
  theorem test_bound : firnBound 1048576 2 = 1048679 ∧ firnBound 1048576 1 = 1048667 ∧ firnBound 1048576 0 = 1048661 := by decide

/-- Chapter 16: seven live channels. -/
  theorem test_ddr : let s := modFab svc fun f => { f with density := 4, live := [(0, 3), (1, 3), (2, 2), (3, 3), (4, 3), (6, 3), (7, 3)] }
      ddrUsable s = 0x620000000 ∧ ddrChan s 0x1234 = 4 := by decide

/-- Chapter 17: the energy check of a sector's erase at 3.25 V and 3.40 V. -/
  theorem test_holdup : let s (v : Nat) := modSense svc fun x => { x with holdup := v }
      holdEnergy (s 6500) .erase4 = false ∧ holdEnergy (s 6800) .erase4 = true ∧ holdSquare (s 10000) / (2 * 10 ^ 17) = 3760 := by decide

set_option maxRecDepth 200000 in
  theorem test_aes : aes (beBytes 0x000102030405060708090A0B0C0D0E0F 16) (beBytes 0x00112233445566778899AABBCCDDEEFF 16) =
    beBytes 0x69C4E0D86A7B0430D8CDB78070B4C55A 16 := by decide

set_option maxRecDepth 200000 in
  theorem test_session : (sessionOf 1 (beBytes 0xE1F97A0D3E018BE0D64FA32C06DE4139 16 ++ beBytes 0x0EC675AD498AFEEBB6960B3AABE6 14)).enc =
    beBytes 0xC61E7A93744F39EE10734AFE3FF7A087 16 := by decide

set_option maxRecDepth 200000 in
  theorem test_kdf : kdf ((nums 32).map (BitVec.ofNat 8)) 1 (beBytes 0x6761746539 5) 5120 9 256 =
    beBytes 0x36a948c7714925eec09c33964d7e445101f0db848bb7832e0c3f4d75fdb7135c 32 := by decide

set_option maxRecDepth 200000 in
  theorem test_expand : (expand 0 100 false (beBytes 0x4b4f2c492d4fac4cc7a000 11)).out = beBytes 0x67617465776179676174657761796761746577617967617465 25 := by decide

end Sys2Proof.Tests
end

section
/-! SUPPORT. The items of a flume: what each operation on its body, head and held push does to them (R48, R55, R60, R61). -/

namespace Sys2Proof.Machine

/-- The items of a flume from the oldest on: those of the head, the body and the held push (R48, R55). -/
def Flume.items (f : Flume) : List FItem := f.head.map (·.2) ++ f.body.map (·.2) ++ f.held

section FlumeItems
variable (f : Flume) (b : Nat)

theorem Flume.items_put (x : FItem) (h : f.held = []) : (f.put b x).items = f.items ++ [x] := by
  simp [Flume.items, Flume.put, h]

/-- An item that moves from the front of the held push into the body keeps its place. -/
theorem Flume.items_put_of_held {x : FItem} {t : List FItem} (h : f.held = x :: t) :
    (({ f with held := t } : Flume).put b x).items = f.items := by
  simp [Flume.items, Flume.put, h]

/-- Items that fall from the body into the head keep their order (R48). -/
theorem Flume.items_fall (n : Nat) : (f.fall b n).items = f.items := by
  induction n generalizing f with
  | zero => rfl
  | succ n ih =>
    unfold Flume.fall
    split
    · split
      next x t hb => rw [ih]; simp [Flume.items, hb]
      next => rfl
    · rfl

theorem Flume.items_pushHeld (n : Nat) : (f.pushHeld b n).items = f.items := by
  induction n generalizing f with
  | zero => rfl
  | succ n ih =>
    unfold Flume.pushHeld
    split
    next => rfl
    next x t hh =>
      split
      · rfl
      · rw [ih, Flume.items_put_of_held f b hh]

theorem Flume.items_push (xs : List FItem) : (f.push b xs).items = f.items ++ xs := by
  rw [Flume.push, Flume.items_pushHeld]
  simp [Flume.items]

theorem Flume.items_pop {x : Nat × FItem} {f' : Flume} (h : f.pop b = some (x, f')) :
    f.items = x.2 :: f'.items := by
  unfold Flume.pop at h
  split at h
  next => cases h
  next y t hh =>
    cases h
    rw [Flume.items_fall]
    simp [Flume.items, hh]

theorem Flume.pop_eq_none_iff : f.pop b = none ↔ f.head = [] := by
  unfold Flume.pop
  split <;> simp_all

theorem Flume.items_emptyClear : (f.emptyClear b).items = f.items := Flume.items_fall ..

theorem Flume.items_fullClear : (f.fullClear b).items = f.items := Flume.items_pushHeld ..

theorem Flume.items_foldl_put (xs : List FItem) (h : f.held = []) :
    (xs.foldl (fun f x => f.put b x) f).items = f.items ++ xs := by
  induction xs generalizing f with
  | nil => simp
  | cons x xs ih => rw [List.foldl_cons, ih (f.put b x) h, Flume.items_put f b x h, List.append_assoc, List.singleton_append]

theorem Flume.items_pushUnit {xs : List FItem} {f' : Flume} (h : f.held = []) (hp : f.pushUnit b xs = some f') :
    f'.items = f.items ++ xs := by
  obtain ⟨-, rfl⟩ := Option.ite_some_none_eq_some.mp hp
  exact Flume.items_foldl_put f b xs h

theorem Flume.pushUnit_eq_none_iff (xs : List FItem) : f.pushUnit b xs = none ↔ b < f.wrOcc b + xs.length := by
  simp [Flume.pushUnit]

end FlumeItems

end Sys2Proof.Machine
end

section
/-! SUPPORT. Gray code and the pointers of a flume (R50). -/

namespace Sys2Proof.Machine

theorem xor_eq_double_add (n m : Nat) : n ^^^ m = 2 * (n / 2 ^^^ m / 2) + (n + m) % 2 := by
  have hdiv : (n ^^^ m) / 2 = n / 2 ^^^ m / 2 := Nat.xor_div_two
  have hmod : (n ^^^ m) % 2 = 1 ↔ ¬(n % 2 = 1 ↔ m % 2 = 1) := Nat.xor_mod_two_eq_one
  omega

/-- The code of a number is the code of its half with one more bit. -/
theorem gray_eq_double_add (n : Nat) : gray n = 2 * gray (n / 2) + (n + n / 2) % 2 := xor_eq_double_add ..

theorem gray_xor_gray (n m : Nat) : gray n ^^^ gray m = gray (n ^^^ m) := by
  unfold gray
  rw [Nat.xor_div_two]
  ac_rfl

theorem gray_two_pow (k : Nat) : gray (2 ^ k) = 2 ^ k + 2 ^ k / 2 := by
  induction k with
  | zero => rfl
  | succ k ih =>
    rw [gray_eq_double_add, Nat.pow_succ, Nat.mul_div_cancel _ (by decide : 0 < 2), ih]
    omega

theorem gray_div_two_pow (n k : Nat) : gray n / 2 ^ k = n / 2 ^ k ^^^ n / 2 ^ (k + 1) := by
  rw [gray, Nat.xor_div_two_pow, Nat.div_div_eq_div_mul, ← Nat.pow_succ']

/-- Folding c shifts of a code telescopes to two shifts of the number. -/
theorem foldl_xor_gray (n a c acc : Nat) :
    (numsFrom a c).foldl (fun x k => x ^^^ gray n / 2 ^ k) acc = acc ^^^ (n / 2 ^ a ^^^ n / 2 ^ (a + c)) := by
  induction c generalizing a acc with
  | zero => simp [numsFrom]
  | succ c ih =>
    rw [numsFrom, List.foldl_cons, ih, gray_div_two_pow, show a + 1 + c = a + (c + 1) by omega]
    calc acc ^^^ (n / 2 ^ a ^^^ n / 2 ^ (a + 1)) ^^^ (n / 2 ^ (a + 1) ^^^ n / 2 ^ (a + (c + 1)))
        = acc ^^^ n / 2 ^ a ^^^ (n / 2 ^ (a + 1) ^^^ n / 2 ^ (a + 1)) ^^^ n / 2 ^ (a + (c + 1)) := by ac_rfl
      _ = acc ^^^ (n / 2 ^ a ^^^ n / 2 ^ (a + (c + 1))) := by rw [Nat.xor_self, Nat.xor_zero, Nat.xor_assoc]

/-- A pointer of at most 12 bits is read back from its Gray code. -/
theorem ungray_gray {n : Nat} (h : n < 2 ^ 12) : ungray (gray n) = n := by
  rw [ungray, nums, foldl_xor_gray, Nat.zero_add, Nat.div_eq_of_lt h]
  simp

theorem gray_eq_iff {n m : Nat} (hn : n < 2 ^ 12) (hm : m < 2 ^ 12) : gray n = gray m ↔ n = m :=
  ⟨fun h => by rw [← ungray_gray hn, h, ungray_gray hm], congrArg gray⟩

/-- The codes of an odd number and of an even one agree in their lowest bit where the halves' parities differ by one step. -/
theorem gray_xor_gray_of_odd {n m : Nat} (hn : n % 2 = 1) (hm : (n / 2 + 1) % 2 = m % 2) :
    gray n ^^^ gray (2 * m) = 2 * (gray (n / 2) ^^^ gray m) := by
  rw [gray_eq_double_add n, gray_eq_double_add (2 * m), xor_eq_double_add, Nat.mul_div_cancel_left m (by decide),
    show (2 * gray (n / 2) + (n + n / 2) % 2) / 2 = gray (n / 2) by omega,
    show (2 * gray m + (2 * m + m) % 2) / 2 = gray m by omega]
  omega

/-- A pointer's step, back to 0 from the last included, changes one bit of its Gray code: the lowest bit from an even number,
and from an odd one a bit of the code of its half. -/
theorem gray_succ_xor {k n : Nat} (h : n < 2 ^ (k + 1)) :
    ∃ j, j ≤ k ∧ gray n ^^^ gray ((n + 1) % 2 ^ (k + 1)) = 2 ^ j := by
  induction k generalizing n with
  | zero =>
    refine ⟨0, Nat.le_refl 0, ?_⟩
    obtain rfl | rfl : n = 0 ∨ n = 1 := by omega
    all_goals rfl
  | succ k ih =>
    rw [Nat.pow_succ] at h ⊢
    obtain hn | hn := Nat.mod_two_eq_zero_or_one n
    · refine ⟨0, by omega, ?_⟩
      rw [Nat.mod_eq_of_lt (by omega), gray_xor_gray, xor_eq_double_add, show (n + 1) / 2 = n / 2 by omega, Nat.xor_self,
        show (n + (n + 1)) % 2 = 1 by omega]
      rfl
    · obtain ⟨j, hj, hx⟩ := ih (n := n / 2) (by omega)
      refine ⟨j + 1, by omega, ?_⟩
      generalize hm : (n / 2 + 1) % 2 ^ (k + 1) = m at hx
      have hstep : (n + 1) % (2 ^ (k + 1) * 2) = 2 * m := by
        rw [← hm, show n + 1 = 2 * (n / 2 + 1) by omega, Nat.mul_comm (2 ^ (k + 1)), Nat.mul_mod_mul_left]
      have hlow : (n / 2 + 1) % 2 = m % 2 := by
        rw [← hm, Nat.mod_mod_of_dvd _ ⟨2 ^ k, Nat.pow_succ'⟩]
      rw [hstep, gray_xor_gray_of_odd hn hlow, hx, Nat.pow_succ']

/-- Two numbers below 2^(k+1) differ in bit k alone where they are 2^k apart. -/
theorem xor_eq_two_pow_iff {k n m : Nat} (hn : n < 2 ^ (k + 1)) (hm : m < 2 ^ (k + 1)) :
    n ^^^ m = 2 ^ k ↔ n = m + 2 ^ k ∨ m = n + 2 ^ k := by
  induction k generalizing n m with
  | zero =>
    obtain rfl | rfl : n = 0 ∨ n = 1 := by omega
    all_goals
      obtain rfl | rfl : m = 0 ∨ m = 1 := by omega
      all_goals decide
  | succ k ih =>
    have half := ih (n := n / 2) (m := m / 2) (by omega) (by omega)
    rw [xor_eq_double_add, Nat.pow_succ]
    omega

/-- The distance from m up to n around a ring of q numbers. -/
theorem ring_distance {q n m : Nat} (hn : n < q) (hm : m < q) :
    (n + q - m) % q = if m ≤ n then n - m else n + q - m := by
  split
  · rw [show n + q - m = n - m + q by omega, Nat.add_mod_right, Nat.mod_eq_of_lt (by omega)]
  · exact Nat.mod_eq_of_lt (by omega)

section Pointers
variable {f : Flume} {k n m : Nat} (hk : k ≤ 11) (hn : n < 2 ^ (k + 1)) (hm : m < 2 ^ (k + 1))
  (hw : f.wptr = gray n) (hr : f.rSeen = gray m)
include hk hn hm hw hr

/-- The body occupancy a writer sees, in the numbers its two pointers stand for (R50, R54). -/
theorem Flume.wrOcc_of_gray : f.wrOcc (2 ^ k) = if m ≤ n then n - m else n + 2 ^ (k + 1) - m := by
  have h12 : 2 ^ (k + 1) ≤ 2 ^ 12 := Nat.pow_le_pow_right (by decide) (by omega)
  rw [Flume.wrOcc, hw, hr, ungray_gray (by omega), ungray_gray (by omega), ← Nat.pow_succ', ring_distance hn hm]

theorem Flume.fullW_iff_wrOcc : f.fullW (2 ^ k) = true ↔ f.wrOcc (2 ^ k) = 2 ^ k := by
  have h12 : 2 ^ (k + 1) ≤ 2 ^ 12 := Nat.pow_le_pow_right (by decide) (by omega)
  have hx : n ^^^ m < 2 ^ (k + 1) := Nat.xor_lt_two_pow hn hm
  have hlt : 2 ^ k < 2 ^ (k + 1) := Nat.pow_lt_pow_right (by decide) (by omega)
  rw [Flume.wrOcc_of_gray hk hn hm hw hr, Flume.fullW, hw, hr, gray_xor_gray, ← gray_two_pow, beq_iff_eq,
    gray_eq_iff (by omega) (by omega), xor_eq_two_pow_iff hn hm]
  rw [Nat.pow_succ] at *
  split <;> omega

theorem Flume.wrOcc_eq_zero_iff : f.wrOcc (2 ^ k) = 0 ↔ f.wptr = f.rSeen := by
  have h12 : 2 ^ (k + 1) ≤ 2 ^ 12 := Nat.pow_le_pow_right (by decide) (by omega)
  rw [Flume.wrOcc_of_gray hk hn hm hw hr, hw, hr, gray_eq_iff (by omega) (by omega)]
  split <;> omega

end Pointers

end Sys2Proof.Machine
end

section
/-! SUPPORT. Alarms, the words of a flume item and the flume registers (R62-R67, R534). -/

namespace Sys2Proof.Machine

/-! ## A pending alarm (R534) -/

theorem AlarmRec.again_code (r : AlarmRec) (obj : Word) (arg site : DWord) (now : Nat) :
    (r.again obj arg site now).code = r.code := by
  unfold AlarmRec.again; split <;> rfl

theorem AlarmRec.again_count_pos (r : AlarmRec) (obj : Word) (arg site : DWord) (now : Nat) :
    0 < (r.again obj arg site now).count := by
  unfold AlarmRec.again
  split
  · exact Nat.one_pos
  · exact Nat.lt_min.mpr ⟨by omega, by decide⟩

/-- An exit that is enabled down to the code's severity has a counted record of it pending after the alarm (R534). -/
theorem LaneExit.alarm_pend {e : LaneExit} {code : Nat} (he : e.en = true) (hs : alarmSev code ≤ e.minSev) (obj : Word)
    (arg site : DWord) (now : Nat) :
    ((e.alarm code obj arg site now).pend.any fun r => r.code == code && decide (0 < r.count)) = true := by
  have hpass : (!e.en || decide (e.minSev < alarmSev code)) = false := by simp [he, hs]
  rw [LaneExit.alarm, hpass, if_neg Bool.false_ne_true]
  split
  next hpend =>
    obtain ⟨r, hr, hc⟩ := List.any_eq_true.mp hpend
    refine List.any_eq_true.mpr ⟨r.again obj arg site now, List.mem_map.mpr ⟨r, hr, if_pos hc⟩, ?_⟩
    rw [AlarmRec.again_code, hc, decide_eq_true (AlarmRec.again_count_pos r obj arg site now)]
    rfl
  next => simp

/-- While the Icehouse runs, an alarm is pending at the completion ring where that exit is enabled down to its severity. -/
theorem alarm_ring_pend {s : State} {code : Nat} (hi : s.dev.iceRuns = true) (he : s.ice.lanes.ring.en = true)
    (hs : alarmSev code ≤ s.ice.lanes.ring.minSev) (obj : Word) (arg site : DWord) :
    ((alarm s code obj arg site).ice.lanes.ring.pend.any fun r => r.code == code && decide (0 < r.count)) = true := by
  rw [alarm, if_pos hi]
  exact LaneExit.alarm_pend he hs ..

/-! ## Words found damaged (R62-R65) -/

@[simp] theorem flumeOf_setFlume_self (s : State) (i : Nat) (f : Flume) : flumeOf (setFlume s i f) i = f :=
  tabGet_tabSet_self ..

theorem hwFault_inside (s : State) (obj : Word) (site : DWord) : (hwFault s obj site).inside = s.inside := logRec_inside ..

/-- Reports change no flume. -/
theorem flumeOf_of_inside {s t : State} (h : s.inside = t.inside) (i : Nat) : flumeOf s i = flumeOf t i := by
  rw [flumeOf, flumeOf, flumes_of_inside h]

section FlumeWord
variable (s : State) (i k n : Nat) (w : FWord)

theorem flumeEcc_singleton (e : Ecc) : flumeEcc s i k n [w] [e] = flumeWord s i k n w e := rfl

theorem flumeOf_flumeWord_corrected (bit : Nat) :
    flumeOf (flumeWord s i k n w (.corrected bit)) i
      = { flumeOf s i with ce := min ((flumeOf s i).ce + 1) 0xFFFF } := by
  rw [flumeWord, flumeOf_of_inside (hwFault_inside ..), flumeOf_setFlume_self]

variable {w}

theorem flumeWord_bad_of_poison (h : w.poison = true) : flumeWord s i k n w .bad = s := if_pos h

/-- The flume of a word found uncorrectable as it stands while FLUME_UE is raised (R64). -/
theorem flumeWord_bad_of_clean (h : w.poison = false) :
    flumeWord s i k n w .bad =
      alarm (setFlume s i { flumeOf s i with ue := min ((flumeOf s i).ue + 1) 0xFFFF, ueSeen := true }) 0x13 0
        (BitVec.ofNat 64 i) (siteStage (flumeDomain i) (0x8000 + i) (flumeStage i k n)) := by
  rw [flumeWord, h]; rfl

theorem flumeOf_flumeWord_bad (h : w.poison = false) :
    flumeOf (flumeWord s i k n w .bad) i
      = { flumeOf s i with ue := min ((flumeOf s i).ue + 1) 0xFFFF, ueSeen := true } := by
  rw [flumeWord_bad_of_clean s i k n h, flumeOf_of_inside (alarm_inside ..), flumeOf_setFlume_self]

variable {s} in
theorem flumeWord_bad_raises (h : w.poison = false) (hi : s.dev.iceRuns = true) (he : s.ice.lanes.ring.en = true)
    (hs : 3 ≤ s.ice.lanes.ring.minSev) :
    ((flumeWord s i k n w .bad).ice.lanes.ring.pend.any fun r => r.code == 0x13 && decide (0 < r.count)) = true := by
  rw [flumeWord_bad_of_clean s i k n h]
  exact alarm_ring_pend (s := setFlume s i _) (code := 0x13) hi he hs ..

end FlumeWord

/-! ## Flume registers (R63, R64, R67; log 152) -/

/-- A settled state is what an outcome gives. -/
theorem gives_fin (u : State) : Gives (fin u) u := settle_inside u

section FlumeRegs
variable {a : Agent} {i : Nat} {s : State} (hl : barLive s a = true) (hi : (flumeShape i).isSome = true)
include hl hi

theorem execFlmCeRead_live :
    execFlmCeRead a i s = fin (returned (setFlume s i { flumeOf s i with ce := 0 }) (flumeOf s i).ce) := by
  simp [execFlmCeRead, hl, Option.ne_none_iff_isSome.mpr hi]

theorem execFlmUeRead_live :
    execFlmUeRead a i s = fin (returned (setFlume s i { flumeOf s i with ue := 0 }) (flumeOf s i).ueWord) := by
  simp [execFlmUeRead, hl, Option.ne_none_iff_isSome.mpr hi]

/-- A write of 1 to bit 31 on the Canal, which is the Icehouse's, clears UE_SEEN; every other write is discarded (log 152). -/
theorem execFlmUeWrite_live (w : Word) :
    execFlmUeWrite a i w s =
      fin (if a = .canal ∧ w.getLsbD 31 = true then setFlume s i { flumeOf s i with ueSeen := false } else s) := by
  simp only [execFlmUeWrite, hl, Option.isNone_eq_false_iff.mpr hi, Bool.not_true, Bool.false_eq_true, if_false,
    Bool.and_eq_true, decide_eq_true_eq]
  split <;> rfl

end FlumeRegs

end Sys2Proof.Machine
end

section
/-! SUPPORT. What entering HALTED leaves behind (R473, R517, R518). -/

namespace Sys2Proof.Machine

theorem mem_numsFrom {k a n : Nat} : k ∈ numsFrom a n ↔ a ≤ k ∧ k < a + n := by
  induction n generalizing a with
  | zero => simp [numsFrom]
  | succ n ih => rw [numsFrom, List.mem_cons, ih]; omega

theorem mem_nums {k n : Nat} : k ∈ nums n ↔ k < n := by
  rw [nums, mem_numsFrom]; omega

/-- The device is HALTED with every Floe stopped (R518). -/
def AtHalt (s : State) : Prop := s.dev.devState = .halted ∧ ∀ k, k < 96 → (floeOf s k).run = false

theorem AtHalt.congr {s t : State} (h : AtHalt s) (hd : t.dev = s.dev) (hf : t.floes = s.floes) : AtHalt t := by
  unfold AtHalt floeOf at *
  rw [hd, hf]; exact h

theorem AtHalt.of_inside {s t : State} (h : AtHalt s) (e : t.inside = s.inside) : AtHalt t :=
  h.congr (dev_of_inside e) (floes_of_inside e)

/-- A change of a Floe that leaves RUN alone. -/
theorem AtHalt.modFloe {s : State} (h : AtHalt s) (n : Nat) {g : Floe → Floe} (hg : ∀ x, (g x).run = x.run) :
    AtHalt (modFloe s n g) := by
  refine ⟨h.1, fun k hk => ?_⟩
  rw [floeOf_modFloe]
  split
  next e => rw [hg, ← e]; exact h.2 k hk
  next => exact h.2 k hk

/-! ## Entering HALTED stops the Floes -/

theorem foldl_modFloe_dev (l : List Nat) (g : Floe → Floe) (s : State) :
    (l.foldl (fun s f => modFloe s f g) s).dev = s.dev :=
  List.foldlRecOn (motive := fun t : State => t.dev = s.dev) l _ rfl fun t h f _ => (modFloe_dev t f g).trans h

/-- A change of Floes one by one that clears RUN stops each Floe named, and every Floe that was stopped. -/
theorem foldl_modFloe_run {g : Floe → Floe} (hg : ∀ x, (g x).run = false) {l : List Nat} {s : State} {k : Nat}
    (h : k ∈ l ∨ (floeOf s k).run = false) : (floeOf (l.foldl (fun s f => modFloe s f g) s) k).run = false := by
  induction l generalizing s with
  | nil => simpa using h
  | cons f l ih =>
    refine ih ?_
    obtain h | h := h
    · obtain rfl | h := List.mem_cons.mp h
      · exact .inr (by rw [floeOf_modFloe_self, hg])
      · exact .inl h
    · refine .inr ?_
      rw [floeOf_modFloe]
      split
      · exact hg _
      · exact h

theorem foldl_modCfg_dev_floes (l : List Nat) (g : PortCfg → PortCfg) (s : State) :
    (l.foldl (fun s n => modCfg s n g) s).dev = s.dev ∧ (l.foldl (fun s n => modCfg s n g) s).floes = s.floes :=
  List.foldlRecOn (motive := fun t : State => t.dev = s.dev ∧ t.floes = s.floes) l _ ⟨rfl, rfl⟩ fun _ h _ _ => h

theorem haltedEntry_atHalt {s : State} (h : s.dev.devState = .halted) : AtHalt (haltedEntry s) := by
  unfold haltedEntry
  refine AtHalt.congr ?_ (modTb_dev ..) (modTb_floes ..)
  obtain ⟨hd, hf⟩ := foldl_modCfg_dev_floes (nums 4) (fun c => { c with rxEn := false, txEn := false })
    ((nums 96).foldl (fun s f => modFloe s f fun x => { x with run := false }) s)
  refine AtHalt.congr ⟨?_, fun _ hk => ?_⟩ hd hf
  · rw [foldl_modFloe_dev]; exact h
  · exact foldl_modFloe_run (fun _ => rfl) (.inl (mem_nums.mpr hk))

/-! ## What follows the entry keeps it -/

theorem endLong_dev_floes (s : State) (l : LongCmd) (st d : Nat) (r : List Byte) :
    (endLong s l st d r).dev = s.dev ∧ (endLong s l st d r).floes = s.floes := by
  unfold endLong
  dsimp only
  rw [dev_of_inside (complete_inside ..), floes_of_inside (complete_inside ..)]
  split
  · exact ⟨rfl, rfl⟩
  · rw [dev_of_inside (audit_inside ..), floes_of_inside (audit_inside ..)]
    exact ⟨rfl, rfl⟩

theorem AtHalt.longTidy {s : State} (h : AtHalt s) (w : LongWork) : AtHalt (longTidy s w) := by
  unfold Machine.longTidy
  split
  · exact h.modFloe _ fun _ => rfl
  · exact h

theorem AtHalt.endIllegal {s : State} (h : AtHalt s) : AtHalt (endIllegal s) := by
  unfold Machine.endIllegal
  refine List.foldlRecOn (motive := AtHalt) s.nx.long _ h fun t ht l _ => ?_
  split
  · exact ht
  · obtain ⟨hd, hf⟩ := endLong_dev_floes (Machine.longTidy t l.work) l 0x0205 l.done []
    exact (ht.longTidy l.work).congr hd hf

theorem AtHalt.fwTidy {s : State} (h : AtHalt s) : AtHalt (fwTidy s) := by
  unfold Machine.fwTidy
  split
  · exact h
  · exact h.congr rfl rfl

theorem selSnap_dev (s : State) : (selSnap s).dev = s.dev := by
  unfold selSnap
  dsimp only
  split
  · rfl
  · unfold tickMove slewDone
    dsimp only
    split <;> rfl

theorem halt_atHalt {s : State} (h : s.dev.devState ≠ .halted) : AtHalt (halt s) := by
  unfold halt setDevState
  rw [if_neg (Ne.symm h)]
  refine AtHalt.fwTidy (AtHalt.endIllegal (AtHalt.of_inside ?_ (logRec_inside ..)))
  refine AtHalt.of_inside (haltedEntry_atHalt ?_) (unitEv_inside ..)
  rw [selSnap_dev]; rfl

/-- A stopped Canal stop halts the device (R517). -/
theorem execCanalStall_atHalt {s : State} (stop : Option Nat) (hr : s.dev.inReset = false) (hi : s.dev.iceRuns = true)
    (h : s.dev.devState ≠ .halted) : Answers (execCanalStall stop s) AtHalt := by
  unfold execCanalStall
  rw [if_neg (by simp [hr, hi, h])]
  refine AtHalt.of_inside (halt_atHalt ?_) (settle_inside _)
  rw [dev_of_inside (alarm_inside ..)]; exact h

/-! ## The meanings of the flume registers and of a Canal stop -/

theorem exec_flmCeRead (a : Agent) (i : Nat) (s : State) : exec (.flmCeRead a i) s = execFlmCeRead a i s := rfl

theorem exec_flmUeRead (a : Agent) (i : Nat) (s : State) : exec (.flmUeRead a i) s = execFlmUeRead a i s := rfl

theorem exec_flmUeWrite (a : Agent) (i : Nat) (w : Word) (s : State) :
    exec (.flmUeWrite a i w) s = execFlmUeWrite a i w s := rfl

theorem exec_canalStall (stop : Option Nat) (s : State) : exec (.canalStall stop) s = execCanalStall stop s := rfl

/-! ## The statement -/

/-- Settles O17: its clauses are the laws of the items, of the Gray pointers, of damaged words, of the registers and of HALTED. -/
theorem flumeWords : Obligations.FlumeWords := by
  refine ⟨fun f b => ?_, fun k n m _ hk hn hm => ?_, fun s i k w hi _ => ?_, fun a i w s hl hs => ?_,
    fun stop s hr hi h => ?_⟩
  · exact ⟨f.items_push b, fun _ _ => f.items_pop b, f.pop_eq_none_iff b, f.items_emptyClear b, f.items_fullClear b,
      fun h _ _ => f.items_pushUnit b h, f.pushUnit_eq_none_iff b⟩
  · have h12 : 2 ^ (k + 1) ≤ 2 ^ 12 := Nat.pow_le_pow_right (by decide) (by omega)
    exact ⟨ungray_gray (by omega), gray_succ_xor hn, fun f hw hr =>
      ⟨Flume.fullW_iff_wrOcc hk hn hm hw hr, Flume.wrOcc_eq_zero_iff hk hn hm hw hr⟩⟩
  · simp only [flumeEcc_singleton]
    refine ⟨rfl, rfl, fun bit => ⟨rfl, ?_⟩, flumeWord_bad_of_poison s i k 0, fun hp => ⟨?_, ?_, ?_⟩⟩
    · rw [flumeOf_flumeWord_corrected]
    · rw [flumeOf_flumeWord_bad s i k 0 hp]
    · rw [flumeOf_flumeWord_bad s i k 0 hp]
    · exact flumeWord_bad_raises i k 0 hp hi
  · rw [exec_flmCeRead, exec_flmUeRead, exec_flmUeWrite, execFlmCeRead_live hl hs, execFlmUeRead_live hl hs,
      execFlmUeWrite_live hl hs]
    exact ⟨gives_fin _, gives_fin _, gives_fin _⟩
  · rw [exec_canalStall]
    exact execCanalStall_atHalt stop hr hi h

end Sys2Proof.Machine
end

section
/-! SUPPORT. A Norux command that replies, with its completion as it is made (R461, R462, R474). -/

namespace Sys2Proof.Machine

/-- A command begins with the media as they stand: its doorbell and its trace record touch none of them. -/
theorem nxAt_media (s : State) (b : Nat) : (nxAt s b).media = s.media :=
  (media_of_inside (nxAt_inside s b)).trans rfl

@[simp] theorem chanOf_nxAt (s : State) (b c : Nat) : chanOf (nxAt s b) c = chanOf s c := by
  unfold chanOf; rw [nxAt_media]

@[simp] theorem payloadMax_nxAt (s : State) (b : Nat) : payloadMax (nxAt s b) = payloadMax s := by
  unfold payloadMax berthSize; rw [dev_of_inside (nxAt_inside s b)]; rfl

@[simp] theorem replyFits_nxAt (s : State) (b : Nat) (h : NxHdr) (n : Nat) :
    replyFits (nxAt s b) h n = replyFits s h n := by
  unfold replyFits; rw [payloadMax_nxAt]

/-- A command done at once, whose reply fits its place: its completion is exactly the one of status 0 with that reply. -/
theorem runNx_completes {sp : NxSpec} {b : Nat} {f : Fmt} {i : Instr} {body : NxHdr → State → NxRes} {s u : State}
    {r : List Byte} (h : nxFits sp b f s r.length = true) (hb : body (hdrOf s b) (nxAt s b) = .done u r 0) :
    Completes (runNx sp b f i body s) sp u b (hdrOf s b) r := by
  simp only [nxFits, nxDirect, Bool.and_eq_true, Bool.not_eq_true'] at h
  obtain ⟨⟨⟨hacc, hout⟩, hprot⟩, hfit⟩ := h
  obtain ⟨hrun, hin⟩ := runNx_carry (i := i) (body := body) hacc
  have hwrite : (if (hdrOf s b).dma && !r.isEmpty then f.outFail else none) = none := by
    rw [Option.isNone_iff_eq_none.mp hout, ite_self]
  rw [← nxAt_tdm s b] at hprot
  rw [hrun, carry, hin, hb]
  simp only [replyFits_nxAt, hfit, hwrite, hprot, Bool.not_true, Bool.false_eq_true, if_false]
  rfl

end Sys2Proof.Machine
end

section
/-! SUPPORT. The events of a channel and the commands that read it (R75, R109-R111; log 63). -/

namespace Sys2Proof.Machine

/-! ## The event queue (R109, R110) -/

@[simp] theorem tabGet_bump_self (t : List (Nat × Nat)) (k n : Nat) :
    tabGet 0 (bump t k n) k = sat64 (tabGet 0 t k + n) := tabGet_tabMod_self ..

section ChanQueue
variable {s : State} {c code : Nat} {tx conc : Bool} {arg : Int}

/-- While the channel's queue is full, its event is counted in EVT_OVERFLOW and as one not delivered. -/
theorem chanEv_of_full (h : 16 ≤ (s.nx.chanQ.filter fun e => e.chan == c).length) :
    chanEv s c code tx conc arg =
      modChan s c fun ch => { ch with ctr := bump ch.ctr 12, evtLost := ch.evtLost + 1 } := by
  rw [chanEv, chanEvAt, if_pos h]

/-- While there is room, the event joins the queue with GAP and LOST, and the count of those not delivered begins anew. -/
theorem chanEv_of_room (h : (s.nx.chanQ.filter fun e => e.chan == c).length < 16) :
    chanEv s c code tx conc arg =
      modNx (modChan s c fun ch => { ch with evtLost := 0 }) fun n => { n with chanQ := n.chanQ ++
        [{ chan := c, code := code, tx := tx, concealed := conc, gap := decide (0 < (chanOf s c).evtLost),
           lost := min (chanOf s c).evtLost 255, arg := BitVec.ofInt 16 arg, time := tick48 s, made := nowNs s }] } := by
  rw [chanEv, chanEvAt, if_neg (Nat.not_le.mpr h)]; rfl

end ChanQueue

@[simp] theorem chanOf_modNx (s : State) (g : Norux → Norux) (c : Nat) : chanOf (modNx s g) c = chanOf s c := rfl

/-! ## The commands that read a channel (R75, R111; log 63) -/

theorem exec_nxChanGet (b : Nat) (f : Fmt) (s : State) : exec (.nxChanGet b f) s = execNxChanGet b f s := rfl

theorem exec_nxChanStats (b : Nat) (f : Fmt) (s : State) : exec (.nxChanStats b f) s = execNxChanStats b f s := rfl

/-- NX_CHAN_GET replies with the channel's parameters and changes nothing. -/
theorem nxChanGet_nxAt (h : NxHdr) (s : State) (b : Nat) :
    nxChanGet h (nxAt s b) = .done (nxAt s b) (replyOf [chanVals (chanOf s h.idx)]) 0 := by
  rw [nxChanGet, chanOf_nxAt]

/-- NX_CHAN_STATS replies with the counters and the smoothed values as they were before CLEAR takes the counters. -/
theorem nxChanStats_nxAt (h : NxHdr) (s : State) (b : Nat) :
    nxChanStats h (nxAt s b) =
      .done (if h.clear then modChan (nxAt s b) h.idx fun x => { x with ctr := [] } else nxAt s b)
        (replyOf [(nums 13).map (fun k => .ctr (tabGet 0 (chanOf s h.idx).ctr k)) ++
          (nums 8).map fun k => .val (tabGet 0 (chanOf s h.idx).smooth k)]) 0 := by
  rw [nxChanStats, chanOf_nxAt]

/-! ## The statement -/

/-- Settles O15: the queue's two cases are those of chanEv, and the commands complete with what their bodies reply. -/
theorem channelEvents : Obligations.ChannelEvents := by
  refine ⟨fun s c code tx conc arg => ⟨fun hfull => ?_, fun hroom => ?_⟩, fun b f s => ⟨?_, ?_⟩⟩
  · rw [chanEv_of_full hfull]
    simp
  · rw [chanEv_of_room hroom]
    simp
  · rintro r rfl hfit
    rw [exec_nxChanGet]
    exact runNx_completes hfit (nxChanGet_nxAt ..)
  · rintro r rfl hfit
    rw [exec_nxChanStats]
    exact runNx_reply hfit (nxChanStats_nxAt ..)

end Sys2Proof.Machine
end

section
/-! SUPPORT. The arithmetic of a Floe: lanes, extraction, NORM, the steps of pointers and the fold of a length
(R130, R132, R155-R158, R162-R165). -/

namespace Sys2Proof.Machine

/-! ## Accumulator lanes (R155-R158, R162) -/

namespace Lane

@[simp] theorem pinned_of (x : Int) : (Lane.of x).pinned = false := rfl

/-- A lane holds every number of 72 bits exactly. -/
theorem toInt_of {x : Int} (hlo : -(2 ^ 71) ≤ x) (hhi : x ≤ 2 ^ 71 - 1) : (Lane.of x).val.toInt = x := by
  rw [Lane.of, BitVec.toInt_ofInt]
  exact Int.bmod_eq_of_le (by omega) (by omega)

/-- Any other number is held modulo 2^72 (R162). -/
theorem toInt_of_sub_emod (x : Int) : ((Lane.of x).val.toInt - x) % 2 ^ 72 = 0 := by
  rw [Lane.of, BitVec.toInt_ofInt]
  exact Int.emod_eq_zero_of_dvd Int.dvd_bmod_sub_self

variable {l : Lane} {p : Int}

theorem acc_of_pinned (h : l.pinned = true) (q48 : Bool) (p : Int) : l.acc q48 p = (l, true) := if_pos h

theorem acc_of_fits (h : l.pinned = false) (hlo : -(2 ^ 71) ≤ l.val.toInt + p) (hhi : l.val.toInt + p ≤ 2 ^ 71 - 1)
    (q48 : Bool) : l.acc q48 p = (Lane.of (l.val.toInt + p), false) := by
  simp only [acc, h, Bool.false_eq_true, if_false]
  rw [if_neg (by omega), if_neg (by omega)]

theorem acc_of_above (h : l.pinned = false) (hr : 2 ^ 71 - 1 < l.val.toInt + p) :
    l.acc false p = ({ val := BitVec.ofInt 72 (2 ^ 71 - 1), pinned := true }, true) := by
  simp only [acc, h, Bool.false_eq_true, if_false]
  rw [if_neg (by omega), if_pos hr]

theorem acc_of_below (h : l.pinned = false) (hr : l.val.toInt + p < -(2 ^ 71)) :
    l.acc false p = ({ val := BitVec.ofInt 72 (-(2 ^ 71)), pinned := true }, true) := by
  simp only [acc, h, Bool.false_eq_true, if_false]
  rw [if_pos hr]

/-- Under COMPAT_Q48 a result out of range wraps and sets GOV. -/
theorem acc_q48_of_overflow (h : l.pinned = false)
    (hr : l.val.toInt + p < -(2 ^ 71) ∨ 2 ^ 71 - 1 < l.val.toInt + p) :
    l.acc true p = (Lane.of (l.val.toInt + p), true) := by
  simp only [acc, h, Bool.false_eq_true, if_false, if_true]
  rcases hr with hr | hr
  · rw [if_pos hr]
  · rw [if_neg (by omega), if_pos hr]

/-- Products of magnitude at most c add up exactly while a bound of the lane and c for each of them stay within range. -/
theorem foldl_acc_exact {c : Int} (ps : List Int) (hps : ∀ p ∈ ps, -c ≤ p ∧ p ≤ c) (l : Lane) (b : Int)
    (hpin : l.pinned = false) (hlo : -b ≤ l.val.toInt) (hhi : l.val.toInt ≤ b) (hc : 0 ≤ c)
    (hroom : b + ps.length * c < 2 ^ 71) :
    (ps.foldl (fun l p => (Lane.acc false l p).1) l).pinned = false ∧
      (ps.foldl (fun l p => (Lane.acc false l p).1) l).val.toInt = l.val.toInt + ps.sum := by
  induction ps generalizing l b with
  | nil => simp [hpin]
  | cons p ps ih =>
    obtain ⟨hplo, hphi⟩ := hps p List.mem_cons_self
    have hrest : (0 : Int) ≤ ps.length * c := Int.mul_nonneg (Int.natCast_nonneg _) hc
    have hlen : ((p :: ps).length : Int) * c = ps.length * c + c := by
      rw [List.length_cons, Int.natCast_succ, Int.add_mul, Int.one_mul]
    rw [hlen] at hroom
    have hval : (Lane.of (l.val.toInt + p)).val.toInt = l.val.toInt + p := toInt_of (by omega) (by omega)
    rw [List.foldl_cons, acc_of_fits hpin (by omega) (by omega)]
    have ⟨hpin', hsum⟩ := ih (fun q hq => hps q (List.mem_cons_of_mem _ hq)) (Lane.of (l.val.toInt + p)) (b + c)
      rfl (by omega) (by omega) (by omega)
    refine ⟨hpin', ?_⟩
    rw [hsum, hval, List.sum_cons, Int.add_assoc]

/-- n products of magnitude 2^P and k more fill no more than the 72-bit range while n + k ≤ 2^(71−P). -/
theorem mul_two_pow_le_of_add_le {P n k : Nat} (hP : P ≤ 71) (h : n + k ≤ 2 ^ (71 - P)) :
    (n : Int) * 2 ^ P + k * 2 ^ P ≤ 2 ^ 71 := by
  have hmul : (n + k) * 2 ^ P ≤ 2 ^ 71 :=
    calc (n + k) * 2 ^ P ≤ 2 ^ (71 - P) * 2 ^ P := Nat.mul_le_mul_right _ h
      _ = 2 ^ 71 := by rw [← Nat.pow_add, Nat.sub_add_cancel hP]
  rw [← Int.add_mul]
  exact_mod_cast hmul

/-- From zero, n products of magnitude at most 2^P add up exactly while n ≤ 2^(71−P) − 1 (R156). -/
theorem foldl_acc_reset {P : Nat} {ps : List Int} (hP : P ≤ 62) (hps : ∀ p ∈ ps, -(2 ^ P) ≤ p ∧ p ≤ 2 ^ P)
    (hn : ps.length ≤ 2 ^ (71 - P) - 1) :
    (ps.foldl (fun l p => (Lane.acc false l p).1) Lane.reset).pinned = false ∧
      (ps.foldl (fun l p => (Lane.acc false l p).1) Lane.reset).val.toInt = ps.sum := by
  have hpos : (0 : Int) < 2 ^ P := Int.pow_pos (by decide)
  have hK := Nat.two_pow_pos (71 - P)
  have hroom := mul_two_pow_le_of_add_le (P := P) (n := ps.length) (k := 1) (by omega) (by omega)
  have hsum := foldl_acc_exact ps hps Lane.reset 0 rfl (Int.le_refl 0) (Int.le_refl 0) (Int.le_of_lt hpos) (by omega)
  rwa [show Lane.reset.val.toInt = 0 from rfl, Int.zero_add] at hsum

/-- From one such product, n more add up exactly while n ≤ 2^(71−P) − 2 (R156). -/
theorem foldl_acc_of {P : Nat} {ps : List Int} {x : Int} (hP : P ≤ 62)
    (hps : ∀ p ∈ ps, -(2 ^ P) ≤ p ∧ p ≤ 2 ^ P) (hlo : -(2 ^ P) ≤ x) (hhi : x ≤ 2 ^ P)
    (hn : ps.length ≤ 2 ^ (71 - P) - 2) :
    (ps.foldl (fun l p => (Lane.acc false l p).1) (Lane.of x)).pinned = false ∧
      (ps.foldl (fun l p => (Lane.acc false l p).1) (Lane.of x)).val.toInt = x + ps.sum := by
  have hpos : (0 : Int) < 2 ^ P := Int.pow_pos (by decide)
  have hK : 2 ^ 9 ≤ 2 ^ (71 - P) := Nat.pow_le_pow_right (by omega) (by omega)
  have hroom := mul_two_pow_le_of_add_le (P := P) (n := ps.length) (k := 2) (by omega) (by omega)
  have hnonneg : (0 : Int) ≤ ps.length * 2 ^ P := Int.mul_nonneg (Int.natCast_nonneg _) (Int.le_of_lt hpos)
  have hx : (Lane.of x).val.toInt = x := toInt_of (by omega) (by omega)
  have hsum := foldl_acc_exact ps hps (Lane.of x) (2 ^ P) rfl (by omega) (by omega) (Int.le_of_lt hpos) (by omega)
  rwa [hx] at hsum

end Lane

/-! ## Extraction (R163) -/

section satS
variable (w : Nat) (x : Int)

theorem satS_le : satS w x ≤ 2 ^ (w - 1) - 1 := by
  have hpos : (0 : Int) < 2 ^ (w - 1) := Int.pow_pos (by decide)
  unfold satS; omega

theorem le_satS : -(2 ^ (w - 1)) ≤ satS w x := by
  unfold satS; omega

/-- Saturation raises a number only to the lower limit. -/
theorem satS_le_self_or : satS w x ≤ x ∨ satS w x = -(2 ^ (w - 1)) := by
  unfold satS; omega

/-- Saturation lowers a number only to the upper limit. -/
theorem self_le_satS_or : x ≤ satS w x ∨ satS w x = 2 ^ (w - 1) - 1 := by
  have hpos : (0 : Int) < 2 ^ (w - 1) := Int.pow_pos (by decide)
  unfold satS; omega

end satS

/-- The quotient of x by 2^s, rounded half up. -/
def roundHalfUp (x : Int) (s : Nat) : Int := if s = 0 then x else (x + 2 ^ (s - 1)) / 2 ^ s

theorem extract_eq (x : Int) (s wid : Nat) : extract x s wid = satS (widBits wid) (roundHalfUp x s) := rfl

/-- The rounded quotient is the one number within half a step of the exact one, a tie going up. -/
theorem roundHalfUp_bounds (x : Int) (s : Nat) :
    roundHalfUp x s * 2 ^ (s + 1) ≤ 2 * x + 2 ^ s ∧ 2 * x + 2 ^ s < (roundHalfUp x s + 1) * 2 ^ (s + 1) := by
  cases s with
  | zero => simp only [roundHalfUp, if_true]; omega
  | succ k =>
    have hpos : (0 : Int) < 2 ^ (k + 1) := Int.pow_pos (by decide)
    have hle := Int.ediv_mul_le (x + 2 ^ k) (Int.ne_of_gt hpos)
    have hlt := Int.lt_ediv_add_one_mul_self (x + 2 ^ k) hpos
    simp only [roundHalfUp, Nat.add_one_ne_zero, if_false, Nat.add_sub_cancel]
    rw [Int.pow_succ' 2 (k + 1), Int.mul_left_comm, Int.mul_left_comm (_ + 1)]
    omega

section extract
variable (x : Int) (s wid : Nat)

/-- What is extracted is at most half a step above the exact quotient, unless the lower limit holds it. -/
theorem extract_mul_le_or :
    extract x s wid * 2 ^ (s + 1) ≤ 2 * x + 2 ^ s ∨ extract x s wid = -(2 ^ (widBits wid - 1)) :=
  (satS_le_self_or (widBits wid) (roundHalfUp x s)).imp_left fun h =>
    Int.le_trans (Int.mul_le_mul_of_nonneg_right h (Int.le_of_lt (Int.pow_pos (by decide)))) (roundHalfUp_bounds x s).1

/-- The exact quotient is less than half a step above what is extracted, unless the upper limit holds it. -/
theorem lt_extract_add_one_mul_or :
    2 * x + 2 ^ s < (extract x s wid + 1) * 2 ^ (s + 1) ∨ extract x s wid = 2 ^ (widBits wid - 1) - 1 :=
  (self_le_satS_or (widBits wid) (roundHalfUp x s)).imp_left fun h =>
    Int.lt_of_lt_of_le (roundHalfUp_bounds x s).2
      (Int.mul_le_mul_of_nonneg_right (Int.add_le_add_right h 1) (Int.le_of_lt (Int.pow_pos (by decide))))

end extract

/-! ## NORM (R165) -/

/-- The first of m numbers from a on that satisfies p, or the one after them, is at least n exactly when p holds for none below n. -/
theorem le_find?_numsFrom {p : Nat → Bool} {n m a : Nat} (h : n ≤ a + m) :
    n ≤ ((numsFrom a m).find? p).getD (a + m) ↔ ∀ i, a ≤ i → i < n → p i = false := by
  induction m generalizing a with
  | zero => exact iff_of_true h fun i _ _ => by omega
  | succ m ih =>
    rw [numsFrom]
    cases hp : p a with
    | true =>
      rw [List.find?_cons_of_pos hp, Option.getD_some]
      refine ⟨fun hn i ha hi => by omega, fun hall => Nat.le_of_not_lt fun hlt => ?_⟩
      exact Bool.noConfusion ((hall a (Nat.le_refl a) hlt).symm.trans hp)
    | false =>
      rw [List.find?_cons_of_neg (ne_true_of_eq_false hp), show a + (m + 1) = a + 1 + m by omega, ih (by omega)]
      refine ⟨fun hall i ha hi => ?_, fun hall i ha hi => hall i (by omega) hi⟩
      rcases Nat.eq_or_lt_of_le ha with rfl | ha
      · exact hp
      · exact hall i ha hi

theorem norm_le (x : BitVec 72) : norm x ≤ 71 := by
  unfold norm
  cases h : (nums 71).find? fun i => x.getLsbD (70 - i) != x.getLsbD 71 with
  | none => exact Nat.le_refl 71
  | some i => exact Nat.le_of_lt (mem_nums.mp (List.mem_of_find?_eq_some h))

/-- NORM is at least n exactly when the n bits below bit 71 equal it. -/
theorem le_norm_iff {x : BitVec 72} {n : Nat} (h : n ≤ 71) :
    n ≤ norm x ↔ ∀ i < n, x.getLsbD (70 - i) = x.getLsbD 71 := by
  have := le_find?_numsFrom (p := fun i => x.getLsbD (70 - i) != x.getLsbD 71) (a := 0) (m := 71) (by omega : n ≤ 0 + 71)
  simpa [norm, nums] using this

/-- Bit i of a signed word is the parity of its value divided by 2^i. -/
theorem getLsbD_eq_toInt_div {w : Nat} (x : BitVec w) {i : Nat} (h : i < w) :
    x.getLsbD i = decide (x.toInt / 2 ^ i % 2 = 1) := by
  have hw : (2 : Int) ^ w = 2 * 2 ^ (w - i - 1) * 2 ^ i := by
    rw [← Int.pow_succ', ← Int.pow_add, show w - i - 1 + 1 + i = w by omega]
  have hnat : x.getLsbD i = decide ((x.toNat : Int) / 2 ^ i % 2 = 1) := by
    rw [← BitVec.testBit_toNat, Nat.testBit_eq_decide_div_mod_eq]
    exact decide_eq_decide.mpr (by norm_cast)
  rw [hnat, BitVec.toInt_eq_msb_cond]
  split
  · rw [Int.natCast_pow, Int.cast_ofNat_Int, hw, Int.sub_eq_add_neg, ← Int.neg_mul,
      Int.add_mul_ediv_right _ _ (Int.ne_of_gt (Int.pow_pos (by decide)))]
    exact decide_eq_decide.mpr (by omega)
  · rfl

/-- Bit 71 of a lane is its sign. -/
theorem getLsbD_71_eq_neg (x : BitVec 72) : x.getLsbD 71 = decide (x.toInt < 0) :=
  (BitVec.msb_eq_getLsbD_last x).symm.trans BitVec.msb_eq_toInt

/-- A number lies within 2^k exactly when it lies within 2^(k+1) and its bit k equals its sign. -/
theorem fits_iff_fits_succ_and_bit (x : Int) (k : Nat) :
    (-(2 ^ k) ≤ x ∧ x < 2 ^ k) ↔
      (-(2 ^ (k + 1)) ≤ x ∧ x < 2 ^ (k + 1)) ∧ (x / 2 ^ k % 2 = 1 ↔ x < 0) := by
  have hc : (0 : Int) < 2 ^ k := Int.pow_pos (by decide)
  have hle (q : Int) : q ≤ x / 2 ^ k ↔ q * 2 ^ k ≤ x := Int.le_ediv_iff_mul_le hc
  have hn2 := hle (-2); have hn1 := hle (-1); have h0 := hle 0; have h1 := hle 1; have h2 := hle 2
  rw [Int.pow_succ 2 k]
  generalize x / 2 ^ k = q at *
  omega

/-- The n bits below bit 71 equal it exactly when the value fits in 72 − n bits. -/
theorem signBits_iff_fits {x : BitVec 72} {n : Nat} (h : n ≤ 71) :
    (∀ i < n, x.getLsbD (70 - i) = x.getLsbD 71) ↔ -(2 ^ (71 - n)) ≤ x.toInt ∧ x.toInt < 2 ^ (71 - n) := by
  induction n with
  | zero => exact iff_of_true (fun i hi => by omega) ⟨BitVec.le_toInt x, BitVec.toInt_lt⟩
  | succ n ih =>
    have hbit : x.getLsbD (70 - n) = x.getLsbD 71 ↔ (x.toInt / 2 ^ (70 - n) % 2 = 1 ↔ x.toInt < 0) := by
      rw [getLsbD_eq_toInt_div x (by omega), getLsbD_71_eq_neg, decide_eq_decide]
    rw [Nat.forall_lt_succ_right, ih (by omega), hbit, show 71 - n = 70 - n + 1 by omega,
      show 71 - (n + 1) = 70 - n by omega]
    exact (fits_iff_fits_succ_and_bit ..).symm

/-! ## The step of a pointer (R130) -/

/-- A pointer stepped linearly wraps modulo 2^18. -/
theorem ofInt_toNat_add (p : BitVec 18) (d : Int) : BitVec.ofInt 18 (p.toNat + d) = p + BitVec.ofInt 18 d := by
  rw [BitVec.ofInt_add, BitVec.ofInt_natCast, BitVec.ofNat_toNat, BitVec.setWidth_eq]

/-- A length other than zero is positive as a number. -/
theorem length_pos {l : BitVec 18} (hl : l ≠ 0) : 0 < (l.toNat : Int) :=
  Int.natCast_pos.mpr (Nat.pos_of_ne_zero (BitVec.toNat_ne.mp hl))

section agStep
variable (r : FloeRegs) (g : Ag)

/-- What an address generator adds to its pointer: the step register of its triple, or the size of the access. -/
def agDelta : Int := if g.useM then (r.ad (r.linkOf g.ptr)).m.toInt else g.size

variable {r g}

theorem agStep_of_noBuffer (h : (r.ad (r.linkOf g.ptr)).l = 0) :
    agStep r g = ((r.ad g.ptr).p + BitVec.ofInt 18 (agDelta r g), false) := by
  rw [← ofInt_toNat_add]
  exact if_pos (by rw [h]; rfl)

theorem agStep_of_outside (hl : (r.ad (r.linkOf g.ptr)).l ≠ 0)
    (h : (r.ad g.ptr).p.toNat < (r.ad (r.linkOf g.ptr)).b.toNat ∨
      (r.ad (r.linkOf g.ptr)).b.toNat + (r.ad (r.linkOf g.ptr)).l.toNat ≤ (r.ad g.ptr).p.toNat) :
    agStep r g = ((r.ad g.ptr).p + BitVec.ofInt 18 (agDelta r g), true) := by
  rw [← ofInt_toNat_add]
  exact (if_neg (Int.ne_of_gt (length_pos hl))).trans (if_pos (by omega))

theorem agStep_of_inside (hl : (r.ad (r.linkOf g.ptr)).l ≠ 0)
    (hb : (r.ad (r.linkOf g.ptr)).b.toNat ≤ (r.ad g.ptr).p.toNat)
    (he : (r.ad g.ptr).p.toNat < (r.ad (r.linkOf g.ptr)).b.toNat + (r.ad (r.linkOf g.ptr)).l.toNat) :
    agStep r g = (BitVec.ofInt 18 ((r.ad (r.linkOf g.ptr)).b.toNat +
      ((r.ad g.ptr).p.toNat - (r.ad (r.linkOf g.ptr)).b.toNat + agDelta r g) %
        (r.ad (r.linkOf g.ptr)).l.toNat), false) := by
  exact (if_neg (Int.ne_of_gt (length_pos hl))).trans (if_neg (by omega))

end agStep

/-- An offset taken modulo the length of a buffer that ends in memory gives a pointer in the buffer, congruent to the sum. -/
theorem wrap_into_buffer {b l : BitVec 18} (hl : l ≠ 0) (hend : b.toNat + l.toNat ≤ 2 ^ 18) (p d : Int) :
    let q := BitVec.ofInt 18 (b.toNat + (p - b.toNat + d) % l.toNat)
    b.toNat ≤ q.toNat ∧ q.toNat < b.toNat + l.toNat ∧ ((q.toNat : Int) - (p + d)) % l.toNat = 0 := by
  have hl' := length_pos hl
  have hlo := Int.emod_nonneg (p - b.toNat + d) (Int.ne_of_gt hl')
  have hhi := Int.emod_lt_of_pos (p - b.toNat + d) hl'
  intro q
  have hq : (q.toNat : Int) = b.toNat + (p - b.toNat + d) % l.toNat := by
    rw [BitVec.toNat_ofInt, Int.toNat_of_nonneg (Int.emod_nonneg _ (by decide))]
    exact Int.emod_eq_of_lt (by omega) (by omega)
  refine ⟨by omega, by omega, Int.emod_eq_zero_of_dvd ?_⟩
  rw [show (q.toNat : Int) - (p + d) = -(p - b.toNat + d - (p - b.toNat + d) % l.toNat) by omega]
  exact Int.dvd_neg.mpr Int.dvd_self_sub_emod

/-! ## The fold of a length (R132) -/

theorem ad_modAd (r : FloeRegs) (i : Nat) (f : AddrRegs → AddrRegs) (j : Nat) :
    (r.modAd i f).ad j = if j = i then f (r.ad i) else r.ad j := tabGet_tabMod ..

/-- Every pointer of a list moved to b. -/
def FloeRegs.moveAll (r : FloeRegs) (b : BitVec 18) (is : List Nat) : FloeRegs :=
  is.foldl (fun r i => r.modAd i fun a => { a with p := b }) r

/-- Moving a list of pointers writes those pointers and nothing else. -/
theorem ad_moveAll (r : FloeRegs) (b : BitVec 18) (is : List Nat) (i : Nat) :
    (r.moveAll b is).ad i = if i ∈ is then { r.ad i with p := b } else r.ad i := by
  induction is generalizing r with
  | nil => rfl
  | cons k is ih =>
    rw [FloeRegs.moveAll, List.foldl_cons, ← FloeRegs.moveAll, ih, ad_modAd]
    by_cases hk : i = k
    · subst hk; simp
    · simp [hk]

/-- Pointer i is linked to triple j and lay within its buffer of the old length, at or beyond the new length. -/
def Folds (r : FloeRegs) (j : Nat) (old new : BitVec 18) (i : Nat) : Prop :=
  old ≠ 0 ∧ new ≠ 0 ∧ r.linkOf i = j ∧ (r.ad j).b.toNat ≤ (r.ad i).p.toNat ∧
    (r.ad i).p.toNat < (r.ad j).b.toNat + old.toNat ∧ (r.ad j).b.toNat + new.toNat ≤ (r.ad i).p.toNat

/-- A length write moves the pointers it folds to the base, and tells whether there are any. -/
theorem fold_eq_moveAll (r : FloeRegs) (j : Nat) (old new : BitVec 18) :
    ∃ is, fold r j old new = (r.moveAll (r.ad j).b is, !is.isEmpty) ∧
      ∀ i, i ∈ is ↔ i < 8 ∧ Folds r j old new i := by
  unfold fold
  split
  · next h =>
    refine ⟨[], rfl, fun i => ⟨fun hin => absurd hin List.not_mem_nil, fun hi => ?_⟩⟩
    obtain ⟨_, hold, hnew, _⟩ := hi
    exact absurd h (not_or.mpr ⟨hold, hnew⟩)
  · next h =>
    refine ⟨_, rfl, fun i => ?_⟩
    obtain ⟨hold, hnew⟩ := not_or.mp h
    simp only [List.mem_filter, mem_nums, Bool.and_eq_true, beq_iff_eq, decide_eq_true_iff, and_assoc]
    refine ⟨fun ⟨hi, hmem⟩ => ⟨hi, hold, hnew, hmem⟩, fun hi => ?_⟩
    obtain ⟨hi, _, _, hmem⟩ := hi
    exact ⟨hi, hmem⟩

section fold
variable {r : FloeRegs} {j i : Nat} {old new : BitVec 18}

theorem fold_of_folds (hi : i < 8) (h : Folds r j old new i) :
    (fold r j old new).1.ad i = { r.ad i with p := (r.ad j).b } ∧ (fold r j old new).2 = true := by
  obtain ⟨is, heq, hmem⟩ := fold_eq_moveAll r j old new
  have hin : i ∈ is := (hmem i).mpr ⟨hi, h⟩
  rw [heq, ad_moveAll, if_pos hin]
  exact ⟨rfl, by simp [List.ne_nil_of_mem hin]⟩

theorem fold_of_not_folds (h : ¬ Folds r j old new i) : (fold r j old new).1.ad i = r.ad i := by
  obtain ⟨is, heq, hmem⟩ := fold_eq_moveAll r j old new
  rw [heq, ad_moveAll, if_neg fun hin => h ((hmem i).mp hin).2]

end fold

/-! ## The statement -/

/-- Settles O19: its clauses are the laws of the lanes, of extraction, of NORM, of the step of a pointer and of the fold. -/
theorem floeArithmetic : Obligations.FloeArithmetic := by
  refine ⟨⟨fun l p q48 h => Lane.acc_of_pinned h q48 p,
      fun l p h => ⟨fun hlo hhi q48 => ?fits, fun hr => ?above, fun hr => ?below, fun hr => ?wraps⟩⟩,
    fun P ps hP hps => ⟨Lane.foldl_acc_reset hP hps, fun x => Lane.foldl_acc_of hP hps⟩,
    ⟨fun x s wid _ _ => ⟨satS_le .., le_satS .., extract_mul_le_or .., lt_extract_add_one_mul_or ..⟩,
      fun x => ⟨norm_le x, fun n hn => (le_norm_iff hn).trans (signBits_iff_fits hn)⟩⟩,
    fun r g => ⟨fun hl hb he hend => ?inside, fun hl hout => ?outside, fun hl => ?noBuffer⟩,
    fun r j i old new hi => ?folds⟩
  case fits =>
    rw [Lane.acc_of_fits h hlo hhi]
    exact ⟨Lane.toInt_of hlo hhi, rfl, rfl⟩
  case above =>
    rw [Lane.acc_of_above h hr]
    exact ⟨Lane.toInt_of (by omega) (Int.le_refl _), rfl, rfl⟩
  case below =>
    rw [Lane.acc_of_below h hr]
    exact ⟨Lane.toInt_of (Int.le_refl _) (by omega), rfl, rfl⟩
  case wraps =>
    rw [Lane.acc_q48_of_overflow h hr]
    exact ⟨rfl, rfl, Lane.toInt_of_sub_emod _⟩
  case inside =>
    rw [agStep_of_inside hl hb he]
    obtain ⟨hlo, hhi, hmod⟩ := wrap_into_buffer hl hend (r.ad g.ptr).p.toNat (agDelta r g)
    exact ⟨hlo, hhi, rfl, hmod⟩
  case outside =>
    rw [agStep_of_outside hl hout]
    exact ⟨rfl, rfl⟩
  case noBuffer =>
    rw [agStep_of_noBuffer hl]
    exact ⟨rfl, rfl⟩
  case folds =>
    by_cases h : Folds r j old new i
    · obtain ⟨had, hfolded⟩ := fold_of_folds hi h
      rw [had]
      exact ⟨fun _ => ⟨rfl, hfolded⟩, fun hno => absurd h hno, rfl, rfl, rfl⟩
    · rw [fold_of_not_folds h]
      exact ⟨fun hit => absurd hit h, fun _ => rfl, rfl, rfl, rfl⟩

end Sys2Proof.Machine
end

section
/-! SUPPORT. A received frame: the receive MAC, the classifier and the release of a stored frame (R305-R319, R330, R331). -/

namespace Sys2Proof.Machine

/-- A completed command or event settles the state it made. -/
theorem settles_of_eq_fin {o : Out} {u : State} {P : State → Prop} (ho : o = fin u) (h : P u) : Settles o P := ⟨u, ho, h⟩

/-! ## Counters of a port (R340) -/

theorem tabGet_bump_ne (t : List (Nat × Nat)) (m : Nat) {k j : Nat} (h : j ≠ k) :
    tabGet 0 (bump t k m) j = tabGet 0 t j := tabGet_tabMod_ne _ _ _ h

section portCount
variable (s : State) (n k m : Nat)

@[simp] theorem portOf_portCount_self :
    portOf (portCount s n k m) n = { portOf s n with ctr := bump (portOf s n).ctr k m } := portOf_modPort_self ..

@[simp] theorem flumeOf_modPort (f : Port → Port) (i : Nat) : flumeOf (modPort s n f) i = flumeOf s i := rfl

@[simp] theorem portCount_tb : (portCount s n k m).tb = s.tb := rfl

@[simp] theorem flumeOf_portCount (i : Nat) : flumeOf (portCount s n k m) i = flumeOf s i := rfl

@[simp] theorem portOf_setFlume (i : Nat) (f : Flume) : portOf (setFlume s i f) n = portOf s n := rfl

@[simp] theorem portOf_setFlow (e : Nat) (x : Option FlowEntry) : portOf (setFlow s e x) n = portOf s n := rfl

@[simp] theorem flowOf_setFlow_self (e : Nat) (x : Option FlowEntry) : flowOf (setFlow s e x) e = x :=
  tabGet_tabSet_self ..

end portCount

/-! ## The address filters (R311, R312) -/

theorem rxAccept_iff (c : PortCfg) (l : List Byte) :
    rxAccept c l = true ↔ c.promisc = true ∨ (be l 0 6 = 2 ^ 48 - 1 ∧ c.bcast = true) ∨
      (∃ e, e ∈ c.uc ∧ e.2 = be l 0 6 + 2 ^ 48) ∨
      (bitOf (be l 0 1) 0 = true ∧ (c.mcAll = true ∨ hashBin (l.take 6) ∈ c.bins)) := by
  simp only [rxAccept, isBcast, isGroup, Bool.or_eq_true, Bool.and_eq_true, beq_iff_eq, List.any_eq_true,
    List.contains_iff_mem, or_assoc]

/-! ## PAUSE and the counts of a good frame (R330, R340) -/

section pauseFrame
variable (s : State) (n q t : Nat)

theorem pauseFrame_count :
    tabGet 0 (portOf (pauseFrame s n q t) n).ctr 10 = sat64 (tabGet 0 (portOf s n).ctr 10 + 1) := by
  unfold pauseFrame
  dsimp only
  repeat' split
  all_goals simp [tabGet_bump_ne]

theorem pauseFrame_rxq : (portOf (pauseFrame s n q t) n).rxq = (portOf s n).rxq := by
  unfold pauseFrame
  dsimp only
  repeat' split
  all_goals simp

/-- A port that obeys PAUSE is free at quanta 0, and otherwise paused for the quanta's bit times. -/
theorem pauseFrame_paused (h : (portOf s n).cfg.pauseRx = true) :
    (portOf (pauseFrame s n q t) n).paused =
      if q = 0 then none else some (t + ceilDiv (q * 512 * 65536) (max 1 (gbps (portOf s n).cfg.speed))) := by
  unfold pauseFrame
  simp only [h, Bool.not_true, Bool.false_eq_true, if_false]
  repeat' split
  all_goals simp

end pauseFrame

section rxCounts
variable (s : State) (n : Nat) (l : List Byte)

theorem rxCounts_rxq : (portOf (rxCounts s n l) n).rxq = (portOf s n).rxq := by
  unfold rxCounts
  dsimp only
  repeat' split
  all_goals simp

theorem flumeOf_rxCounts (i : Nat) : flumeOf (rxCounts s n l) i = flumeOf s i := by
  unfold rxCounts
  dsimp only
  repeat' split
  all_goals rfl

/-- The counts of a good frame are not those of frames dropped for want of room. -/
theorem rxCounts_dropped : tabGet 0 (portOf (rxCounts s n l) n).ctr 7 = tabGet 0 (portOf s n).ctr 7 := by
  unfold rxCounts
  dsimp only
  repeat' split
  all_goals simp [tabGet_bump_ne]

end rxCounts

/-! ## The receive MAC (R305, R306, R311, R330, R331) -/

/-- The FEC code words counted before a frame is judged. -/
def fecCounted (s : State) (n corr uncorr : Nat) : State := portCount (portCount s n 4 corr) n 5 uncorr

section fecCounted
variable (s : State) (n corr uncorr : Nat)

theorem fecCounted_cfg : (portOf (fecCounted s n corr uncorr) n).cfg = (portOf s n).cfg := by simp [fecCounted]

theorem fecCounted_rxq : (portOf (fecCounted s n corr uncorr) n).rxq = (portOf s n).rxq := by simp [fecCounted]

theorem flumeOf_fecCounted (i : Nat) : flumeOf (fecCounted s n corr uncorr) i = flumeOf s i := rfl

end fecCounted

/-- Items written into the body by a no-wait writer stand there in order (R61). -/
theorem Flume.body_foldl_put (f : Flume) (b : Nat) (xs : List FItem) :
    (xs.foldl (fun f x => f.put b x) f).body.map (·.2) = f.body.map (·.2) ++ xs := by
  induction xs generalizing f with
  | nil => simp
  | cons x xs ih => rw [List.foldl_cons, ih]; simp [Flume.put]

section receive
variable {n : Nat} {l : List Byte} {s : State} (raw : Nat) (dom : Bool) (dt corr uncorr : Nat)
  (hruns : portRuns s n = true) (hrx : (portOf s n).cfg.rxEn = true) (hlink : (portOf s n).cfg.link = true)
include hruns hrx hlink

theorem execFrameReceive_of_badFcs (hf : fcsOk l = false) :
    execFrameReceive n l raw dom dt corr uncorr s = fin (portCount (fecCounted s n corr uncorr) n 2 1) := by
  simp [execFrameReceive, fecCounted, hruns, hrx, hlink, hf]

variable (hf : fcsOk l = true)
include hf

theorem execFrameReceive_of_badLength (hl : l.length < 64 ∨ (portOf s n).cfg.maxFrame < l.length) :
    execFrameReceive n l raw dom dt corr uncorr s = fin (portCount (fecCounted s n corr uncorr) n 3 1) := by
  simp [execFrameReceive, fecCounted, hruns, hrx, hlink, hf, hl]

variable (hl : ¬ (l.length < 64 ∨ (portOf s n).cfg.maxFrame < l.length))
include hl

theorem execFrameReceive_of_pause (ht : be l 12 2 = 0x8808) (ho : be l 14 2 = 0x0001) :
    execFrameReceive n l raw dom dt corr uncorr s =
      fin (pauseFrame (fecCounted s n corr uncorr) n (be l 16 2) (s.tb.sel + dt)) := by
  simp [execFrameReceive, fecCounted, hruns, hrx, hlink, hf, hl, ht, ho]

theorem execFrameReceive_of_pfc (ht : be l 12 2 = 0x8808) (ho : be l 14 2 = 0x0101) :
    execFrameReceive n l raw dom dt corr uncorr s = fin (portCount (fecCounted s n corr uncorr) n 11 1) := by
  simp [execFrameReceive, fecCounted, hruns, hrx, hlink, hf, hl, ht, ho]

variable (ht : be l 12 2 ≠ 0x8808)
include ht

theorem execFrameReceive_of_filtered (ha : rxAccept (portOf s n).cfg l = false) :
    execFrameReceive n l raw dom dt corr uncorr s = fin (portCount (fecCounted s n corr uncorr) n 6 1) := by
  simp [execFrameReceive, fecCounted, hruns, hrx, hlink, hf, hl, ht, ha]

variable (ha : rxAccept (portOf s n).cfg l = true)
include ha

theorem execFrameReceive_of_full
    (h : flumeB (384 + n) < (flumeOf s (384 + n)).wrOcc (flumeB (384 + n)) + (frameItems l).length) :
    execFrameReceive n l raw dom dt corr uncorr s =
      fin (portCount (rxCounts (fecCounted s n corr uncorr) n l) n 7 1) := by
  have hpush : (flumeOf (rxCounts (fecCounted s n corr uncorr) n l) (384 + n)).pushUnit (flumeB (384 + n))
      (frameItems l) = none := by
    rw [flumeOf_rxCounts, flumeOf_fecCounted, Flume.pushUnit_eq_none_iff]; exact h
  rw [fecCounted] at hpush ⊢
  simp [execFrameReceive, hruns, hrx, hlink, hf, hl, ht, ha, hpush]

theorem execFrameReceive_of_room
    (h : (flumeOf s (384 + n)).wrOcc (flumeB (384 + n)) + (frameItems l).length ≤ flumeB (384 + n)) :
    execFrameReceive n l raw dom dt corr uncorr s =
      fin (modPort (setFlume (rxCounts (fecCounted s n corr uncorr) n l) (384 + n)
          ((frameItems l).foldl (fun f x => f.put (flumeB (384 + n)) x) (flumeOf s (384 + n)))) n fun p =>
        { p with rxq := p.rxq ++
          [{ bytes := l, stamp := timeAdd raw (-((portOf s n).cfg.corrRx.toNat * 256 : Nat)), dom := b2n dom }] }) := by
  have hpush : (flumeOf (rxCounts (fecCounted s n corr uncorr) n l) (384 + n)).pushUnit (flumeB (384 + n)) (frameItems l)
      = some ((frameItems l).foldl (fun f x => f.put (flumeB (384 + n)) x) (flumeOf s (384 + n))) := by
    rw [flumeOf_rxCounts, flumeOf_fecCounted]; exact if_pos h
  rw [fecCounted] at hpush ⊢
  simp [execFrameReceive, hruns, hrx, hlink, hf, hl, ht, ha, hpush]

end receive

/-! ## The classifier (R306, R308-R310, R313, R318, R319) -/

/-- The stored frame the classifier of port p makes of the frame x whose items it popped (R308, R309). -/
def Port.arrived (p : Port) (x : RxFrame) (items : List FItem) : Stored_ :=
  { id := p.nextId, frame := x, cells := cellsOf x.bytes.length, cellAt := takeCells p (cellsOf x.bytes.length),
    takers := [], tag := 0, hit := false, ptp := false, poison := items.any fun i => i.words.any (·.poison) }

theorem execFrameClassify_of_popped {n : Nat} {ecc : List (List Ecc)} {ue : Option (Nat × Nat)} {s v : State}
    {x : RxFrame} {t : List RxFrame} {items : List FItem} (hr : portRuns s n = true) (hq : (portOf s n).rxq = x :: t)
    (hroom : rxUsed (portOf s n) + cellsOf x.bytes.length ≤ rxCells s) (hpost : postHeld s n = false)
    (hpop : popItems s (384 + n) (fun k => ecc.getD k []) (frameItems x.bytes).length = some (items, v)) :
    execFrameClassify n ecc ue s =
      fin (classify (cleanCells (modPort v n fun p => { p with rxq := t, nextId := p.nextId + 1 }) n
        ((portOf s n).arrived x items)) n ((portOf s n).arrived x items) ue) := by
  have hgo : (!portRuns s n || decide (rxCells s < rxUsed (portOf s n) + cellsOf x.bytes.length) || postHeld s n) = false := by
    simp [hr, hroom, hpost]
  simp only [execFrameClassify, Port.arrived, hq, hgo, hpop, Bool.false_eq_true, if_false]

theorem execFrameClassify_of_postHeld {n : Nat} {s : State} (ecc : List (List Ecc)) (ue : Option (Nat × Nat))
    (h : postHeld s n = true) : execFrameClassify n ecc ue s = .next s := by
  unfold execFrameClassify
  dsimp only
  split
  next => rfl
  next => rw [h, Bool.or_true, if_pos rfl]

/-- A stored frame as its lookup reads it: without its FCS. -/
def Stored_.parsed (f : Stored_) : Parsed := parseFrame (f.frame.bytes.take (f.frame.bytes.length - 4))

section classify
variable {s : State} {n : Nat} {f : Stored_} {ue : Option (Nat × Nat)}

theorem classify_of_ptp {m : List Byte} (h : f.parsed.ptp = some m) : classify s n f ue = toTimebase s n f m := by
  rw [Stored_.parsed] at h
  simp only [classify, h]

variable (h : f.parsed.ptp = none)
include h

theorem classify_of_miss (hk : flowLookup s n f.parsed ue = .miss) :
    classify s n f ue = toHost s n (portOf s n).cfg.defRing f := by
  rw [Stored_.parsed] at h hk
  simp only [classify, h, hk]

theorem classify_of_hit {k : Nat} {e : FlowEntry} (hk : flowLookup s n f.parsed ue = .hit k e) :
    classify s n f ue = flowAct s n f f.parsed e := by
  rw [Stored_.parsed] at h hk ⊢
  simp only [classify, h, hk]

theorem classify_of_bad {b i : Nat} (hk : flowLookup s n f.parsed ue = .bad b i) :
    classify s n f ue = flowUe s n b i := by
  rw [Stored_.parsed] at h hk
  simp only [classify, h, hk]

end classify

theorem flowAct_of_drop {e : FlowEntry} (h : e.act = .drop) (s : State) (n : Nat) (f : Stored_) (p : Parsed) :
    flowAct s n f p e = portCount s n 15 1 := by
  simp only [flowAct, h]

theorem flowAct_of_host {e : FlowEntry} {k : Nat} (h : e.act = .host k) (s : State) (n : Nat) (f : Stored_) (p : Parsed) :
    flowAct s n f p e = toHost (portCount s n 14 1) n k { f with tag := e.tag, hit := true } := by
  simp only [flowAct, h]

/-! ## A flow word read poisoned (R319) -/

section flowUe
variable (s : State) (n b i : Nat)

/-- The frame is counted as dropped and nothing else of its port changes. -/
theorem portOf_flowUe : portOf (flowUe s n b i) n = portOf (portCount s n 18 1) n := by
  unfold flowUe
  dsimp only
  split
  all_goals
    rw [portOf, net_of_inside (alarm_inside ..)]
    rfl

variable {s b i} in
/-- The entry in the place that was read is marked poisoned. -/
theorem flowOf_flowUe {k : Nat} {e : FlowEntry} (h : flowAt s b i = some (k, e)) :
    flowOf (flowUe s n b i) k = some { e with poison := true } := by
  replace h : flowAt (portCount s n 18 1) b i = some (k, e) := h
  simp only [flowUe, h]
  rw [flowOf, net_of_inside (alarm_inside ..)]
  exact flowOf_setFlow_self ..

end flowUe

theorem exec_flowEntryRewrite (e : Nat) (s : State) : exec (.flowEntryRewrite e) s = execFlowEntryRewrite e s := rfl

theorem execFlowEntryRewrite_of_poison {e : Nat} {x : FlowEntry} {s : State} (h : flowOf s e = some x)
    (hp : x.poison = true) (hi : s.dev.iceRuns = true) :
    execFlowEntryRewrite e s = fin (setFlow s e (some { x with poison := false })) := by
  simp [execFlowEntryRewrite, h, hp, hi]

/-! ## Release of a stored frame (R310) -/

section release
variable {s : State} {n id : Nat} {f : Stored_}

theorem storedOf_of_filter :
    storedOf (modPort s n fun p => { p with store := p.store.filter fun x => x.id != id }) n id = none := by
  simp [storedOf]

/-- A change of frame id that keeps its number is what the frame then reads as. -/
theorem storedOf_modStored {g : Stored_ → Stored_} (hg : ∀ x, (g x).id = x.id) (h : storedOf s n id = some f) :
    storedOf (modStored s n id g) n id = some (g f) := by
  have hid : f.id = id := by simpa using List.find?_some h
  have hpred : ((fun x : Stored_ => x.id == id) ∘ fun x => if x.id = id then g x else x) = fun x => x.id == id := by
    funext x
    dsimp only [Function.comp_apply]
    split
    · rw [hg]
    · rfl
  rw [storedOf] at h
  rw [storedOf, modStored, portOf_modPort_self, List.find?_map, hpred, h, Option.map_some, if_pos hid]

variable {t : Nat} (h : storedOf s n id = some f) (hm : t ∈ f.takers) (hd : takerDone s n id t = true)
include h hm hd

theorem execFrameRelease_of_last (he : f.takers.erase t = []) :
    execFrameRelease n id t s = fin (modPort s n fun p => { p with store := p.store.filter fun x => x.id != id }) := by
  simp [execFrameRelease, h, hm, hd, he]

theorem execFrameRelease_of_more (he : f.takers.erase t ≠ []) :
    execFrameRelease n id t s = fin (modStored s n id fun x => { x with takers := f.takers.erase t }) := by
  simp [execFrameRelease, h, hm, hd, he]

theorem execFrameRelease_settles :
    Settles (execFrameRelease n id t s) fun u => (f.takers = [t] → storedOf u n id = none) ∧
      (f.takers.erase t ≠ [] → storedOf u n id = some { f with takers := f.takers.erase t }) := by
  by_cases he : f.takers.erase t = []
  · exact settles_of_eq_fin (execFrameRelease_of_last h hm hd he) ⟨fun _ => storedOf_of_filter, fun hne => absurd he hne⟩
  · refine settles_of_eq_fin (execFrameRelease_of_more h hm hd he)
      ⟨fun hone => absurd ?_ he, fun _ => storedOf_modStored (fun _ => rfl) h⟩
    rw [hone, List.erase_cons_head]

end release

/-! ## The statement -/

/-- Settles O36: each clause is the law of one case of the receive MAC, of the classifier, of a poisoned flow word or of the
release. -/
theorem quayReceive : Obligations.QuayReceive := by
  refine ⟨rxAccept_iff, fun n l raw dt corr uncorr dom s hruns => ?receive,
    fun n ecc ue s v x t items hr => ?classify, fun n ecc ue s => execFrameClassify_of_postHeld ecc ue,
    fun s n f ue => ⟨fun m => classify_of_ptp, classify_of_miss, fun k e h hk => ⟨fun ha => ?drop, fun m ha => ?host⟩,
      fun b i h hk => ?bad⟩,
    fun n id t f s => execFrameRelease_settles, fun n => ⟨rfl, rfl, rfl, rfl, rfl⟩, fun e x s h hp hi => ?rewrite⟩
  case receive =>
    intro c v r hrx hlink
    refine ⟨fun hf => ?_, fun hf hl => ?_, fun hf hlo hhi => ?_⟩
    · exact settles_of_eq_fin (execFrameReceive_of_badFcs raw dom dt corr uncorr hruns hrx hlink hf) rfl
    · exact settles_of_eq_fin (execFrameReceive_of_badLength raw dom dt corr uncorr hruns hrx hlink hf hl) rfl
    · have hl : ¬ (l.length < 64 ∨ c.maxFrame < l.length) := by omega
      refine ⟨fun q ht ho hq hp => ?_, fun ht ho => ?_, fun ht ha => ?_, fun ht ha => ⟨fun hfull => ?_, fun hroom => ?_⟩⟩
      · subst hq
        refine settles_of_eq_fin (execFrameReceive_of_pause raw dom dt corr uncorr hruns hrx hlink hf hl ht ho)
          ⟨pauseFrame_count .., ?_, ?_⟩
        · rw [pauseFrame_rxq, fecCounted_rxq]
        · rw [pauseFrame_paused _ _ _ _ (by rw [fecCounted_cfg]; exact hp), fecCounted_cfg]
          rfl
      · exact settles_of_eq_fin (execFrameReceive_of_pfc raw dom dt corr uncorr hruns hrx hlink hf hl ht ho) rfl
      · exact settles_of_eq_fin (execFrameReceive_of_filtered raw dom dt corr uncorr hruns hrx hlink hf hl ht ha) rfl
      · refine settles_of_eq_fin (execFrameReceive_of_full raw dom dt corr uncorr hruns hrx hlink hf hl ht ha hfull) ⟨?_, ?_, ?_⟩
        · rw [portOf_portCount_self, rxCounts_rxq, fecCounted_rxq]
        · rw [flumeOf_portCount, flumeOf_rxCounts, flumeOf_fecCounted]
        · rw [portOf_portCount_self, tabGet_bump_self, rxCounts_dropped]
          rfl
      · refine settles_of_eq_fin (execFrameReceive_of_room raw dom dt corr uncorr hruns hrx hlink hf hl ht ha hroom) ⟨?_, ?_⟩
        · rw [flumeOf_modPort, flumeOf_setFlume_self, Flume.body_foldl_put]
        · rw [portOf_modPort_self, portOf_setFlume, rxCounts_rxq, fecCounted_rxq]
  case classify =>
    intro p hq hroom hpost hpop f
    exact settles_of_eq_fin (execFrameClassify_of_popped hr hq hroom hpost hpop) rfl
  case drop => rw [classify_of_hit h hk, flowAct_of_drop ha]
  case host => rw [classify_of_hit h hk, flowAct_of_host ha]
  case bad =>
    rw [classify_of_bad h hk, portOf_flowUe, portOf_portCount_self]
    exact ⟨fun k e => flowOf_flowUe n, rfl, tabGet_bump_self ..⟩
  case rewrite =>
    rw [exec_flowEntryRewrite, execFlowEntryRewrite_of_poison h hp hi]
    exact gives_fin _

end Sys2Proof.Machine
end

section
/-! SUPPORT. Two-step queues, the registers of times and pulses per second (R377, R383, R390-R393, R397, R398). -/

namespace Sys2Proof.Machine

/-! ## What settling and reports leave of the Timebase -/

theorem Answers.mono {o : Out} {P Q : State → Prop} (h : Answers o P) (hpq : ∀ t, P t → Q t) : Answers o Q := by
  cases o with
  | next t => exact hpq t h
  | _ => exact h

theorem answers_fin (u : State) (P : State → Prop) : Answers (fin u) P ↔ P (settle u) := Iff.rfl

@[simp] theorem settle_tb (s : State) : (settle s).tb = s.tb := tb_of_inside (settle_inside s)

theorem clkOf_of_tb {s t : State} (h : s.tb = t.tb) (x : Nat) : clkOf s x = clkOf t x := by rw [clkOf, clkOf, h]

theorem tsqOf_of_tb {s t : State} (h : s.tb = t.tb) (n : Nat) : tsqOf s n = tsqOf t n := by rw [tsqOf, tsqOf, h]

theorem todOf_of_tb {s t : State} (h : s.tb = t.tb) (x : Nat) : todOf s x = todOf t x := by
  rw [todOf, todOf, h, clkOf_of_tb h]

@[simp] theorem clkOf_settle (s : State) (x : Nat) : clkOf (settle s) x = clkOf s x := clkOf_of_tb (settle_tb s) x

@[simp] theorem tsqOf_settle (s : State) (n : Nat) : tsqOf (settle s) n = tsqOf s n := tsqOf_of_tb (settle_tb s) n

@[simp] theorem barLive_settle (s : State) (a : Agent) : barLive (settle s) a = barLive s a := by
  rw [barLive, barLive, settle_dev]

@[simp] theorem alarm_tb (s : State) (c : Nat) (o : Word) (a t : DWord) : (alarm s c o a t).tb = s.tb :=
  tb_of_inside (alarm_inside ..)

@[simp] theorem alarm_dev (s : State) (c : Nat) (o : Word) (a t : DWord) : (alarm s c o a t).dev = s.dev :=
  dev_of_inside (alarm_inside ..)

@[simp] theorem raiseVec_tb (s : State) (v : Nat) : (raiseVec s v).tb = s.tb := tb_of_inside (raiseVec_inside ..)

@[simp] theorem returned_rdata (s : State) (n : Nat) : (returned s n).dev.rdata = BitVec.ofNat 64 n := rfl

@[simp] theorem barLive_returned (s : State) (n : Nat) (a : Agent) : barLive (returned s n) a = barLive s a := rfl

@[simp] theorem barLive_modTb (s : State) (g : Timebase → Timebase) (a : Agent) : barLive (modTb s g) a = barLive s a := rfl

/-! ## The queue's operations -/

@[simp] theorem tsqOf_modTsq_self (s : State) (n : Nat) (f : Tsq → Tsq) : tsqOf (modTsq s n f) n = f (tsqOf s n) :=
  tabGet_tabMod_self ..

theorem tsqOf_modTsq_ne (s : State) (f : Tsq → Tsq) {n j : Nat} (h : j ≠ n) : tsqOf (modTsq s n f) j = tsqOf s j :=
  tabGet_tabMod_ne _ _ _ h

@[simp] theorem modTsq_dev (s : State) (n : Nat) (f : Tsq → Tsq) : (modTsq s n f).dev = s.dev := rfl

/-- The entry a queue makes of a stamp (R390, R393). -/
def Tsq.entry (q : Tsq) (dom id stamp : Nat) (ue : Bool) : TsqEntry :=
  { gap := decide (0 < q.lost), lost := min q.lost 255, domain := dom, ue := ue, seq := q.nextSeq, tsId := id,
    time := stamp }

/-- The entries after e has overwritten the oldest: the next one carries GAP and the number lost (R393). -/
def Tsq.overwritten (q : Tsq) (e : TsqEntry) : List TsqEntry :=
  match q.entries.drop 1 ++ [e] with
  | h :: t => { h with gap := true, lost := min 255 ((q.entries.head?.elim 0 (·.lost)) + 1) } :: t
  | [] => []

/-- A poisoned arrival is counted whether or not it is queued (R391). -/
def Tsq.countUe (q : Tsq) (ue : Bool) : Tsq := { q with ue := if ue then sat32 (q.ue + 1) else q.ue }

/-- A queue of a size, of Norux 1 or not, after the arrival of a stamp (R390-R393). -/
def Tsq.put (q : Tsq) (size : Nat) (compat : Bool) (dom id stamp : Nat) (ue : Bool) : Tsq :=
  let u := q.countUe ue
  let e := q.entry dom id stamp ue
  if q.entries.length < size then { u with entries := q.entries ++ [e], nextSeq := (q.nextSeq + 1) % 4, lost := 0 }
  else if compat then
    { u with entries := q.overwritten e, nextSeq := (q.nextSeq + 1) % 4, lost := 0, ovf := sat32 (q.ovf + 1) }
  else { u with lost := q.lost + 1, ovf := sat32 (q.ovf + 1) }

section put
variable {q : Tsq} {size dom id stamp : Nat} {compat ue : Bool}

theorem Tsq.put_of_room (h : q.entries.length < size) :
    q.put size compat dom id stamp ue =
      { q.countUe ue with
        entries := q.entries ++ [q.entry dom id stamp ue], nextSeq := (q.nextSeq + 1) % 4, lost := 0 } := if_pos h

theorem Tsq.put_of_full (h : size ≤ q.entries.length) :
    q.put size false dom id stamp ue = { q.countUe ue with lost := q.lost + 1, ovf := sat32 (q.ovf + 1) } :=
  if_neg (Nat.not_lt.mpr h)

theorem Tsq.put_of_full_compat (h : size ≤ q.entries.length) :
    q.put size true dom id stamp ue =
      { q.countUe ue with
        entries := q.overwritten (q.entry dom id stamp ue), nextSeq := (q.nextSeq + 1) % 4, lost := 0,
        ovf := sat32 (q.ovf + 1) } := if_neg (Nat.not_lt.mpr h)

theorem Tsq.overwritten_of_cons_cons {a c : TsqEntry} {l : List TsqEntry} (h : q.entries = a :: c :: l) (e : TsqEntry) :
    q.overwritten e = { c with gap := true, lost := min 255 (a.lost + 1) } :: (l ++ [e]) := by
  rw [Tsq.overwritten, h]
  rfl

theorem Tsq.put_ue :
    (q.put size compat dom id stamp ue).ue = if ue then sat32 (q.ue + 1) else q.ue := by
  unfold Tsq.put
  dsimp only
  split
  · rfl
  · split <;> rfl

end put

/-- A poisoned arrival is counted and raises its alarm before the queue is looked at for room (R391). -/
def tsqCountUe (s : State) (n : Nat) (ue : Bool) : State :=
  if ue then alarm (modTsq s n fun q => { q with ue := sat32 (q.ue + 1) }) 0x49 0 0
    (siteStage 230 (2 + n) (tsqOf s n).entries.length)
  else s

theorem tsqOf_tsqCountUe (s : State) (n : Nat) (ue : Bool) : tsqOf (tsqCountUe s n ue) n = (tsqOf s n).countUe ue := by
  cases ue with
  | false => rfl
  | true =>
    rw [tsqCountUe, if_pos rfl, tsqOf_of_tb (alarm_tb ..), tsqOf_modTsq_self]
    rfl

theorem tsqCountUe_dev (s : State) (n : Nat) (ue : Bool) : (tsqCountUe s n ue).dev = s.dev := by
  cases ue with
  | false => rfl
  | true => exact alarm_dev ..

theorem tsqOf_tsqPut (s : State) (n dom id stamp : Nat) (ue : Bool) :
    tsqOf (tsqPut s n dom id stamp ue) n = (tsqOf s n).put (tsqSize s) s.dev.compatQ48 dom id stamp ue := by
  have hq := tsqOf_tsqCountUe s n ue
  have hd := tsqCountUe_dev s n ue
  have hsize : tsqSize (tsqCountUe s n ue) = tsqSize s := by rw [tsqSize, tsqSize, hd]
  unfold tsqPut
  dsimp only
  rw [← tsqCountUe, hd, hsize]
  by_cases hroom : (tsqOf s n).entries.length < tsqSize s
  · have hfull : decide (tsqSize s ≤ (tsqOf s n).entries.length) = false := decide_eq_false (Nat.not_le.mpr hroom)
    rw [Tsq.put_of_room hroom, hfull, Bool.false_and, if_neg Bool.false_ne_true, if_neg Bool.false_ne_true]
    split
    all_goals
      simp only [tsqOf_of_tb (raiseVec_tb ..), tsqOf_modTsq_self, hq]
      rfl
  · have hfull : tsqSize s ≤ (tsqOf s n).entries.length := Nat.not_lt.mp hroom
    rw [decide_eq_true hfull, Bool.true_and]
    cases s.dev.compatQ48 with
    | false =>
      rw [Tsq.put_of_full hfull, Bool.not_false, if_pos rfl, tsqOf_modTsq_self, hq]
      rfl
    | true =>
      rw [Tsq.put_of_full_compat hfull, Bool.not_true, if_neg Bool.false_ne_true, if_pos rfl]
      simp only [tsqOf_modTsq_self, hq]
      rfl

/-! ## A stamp on its way through the flume (R61, R390; log 176) -/

/-- The second word of a stamp's item. -/
def stampWord (dom id stamp : Nat) (ue : Bool) : Nat := stamp / 2 ^ 64 % 2 ^ 46 + dom * 2 ^ 46 + id * 2 ^ 47 + b2n ue * 2 ^ 63

section stampWord
variable {dom id stamp : Nat} (ue : Bool) (hd : dom < 2) (hi : id < 65536)

theorem b2n_le_one : b2n ue ≤ 1 := by cases ue <;> decide

include hd hi in
theorem stampWord_toNat : (BitVec.ofNat 64 (stampWord dom id stamp ue)).toNat = stampWord dom id stamp ue := by
  have hu := b2n_le_one ue
  rw [BitVec.toNat_ofNat, stampWord]; omega

theorem stampWord_low (h : stamp < 2 ^ 110) : stampWord dom id stamp ue % 2 ^ 46 = stamp / 2 ^ 64 := by
  rw [stampWord]; omega

include hd in
theorem stampWord_dom : stampWord dom id stamp ue / 2 ^ 46 % 2 = dom := by
  rw [stampWord]; omega

include hd hi in
theorem stampWord_id : stampWord dom id stamp ue / 2 ^ 47 % 2 ^ 16 = id := by
  rw [stampWord]; omega

include hd hi in
theorem stampWord_ue : (stampWord dom id stamp ue).testBit 63 = ue := by
  have hbit : stampWord dom id stamp ue / 2 ^ 63 % 2 = b2n ue := by
    have hu := b2n_le_one ue
    rw [stampWord]; omega
  rw [Nat.testBit_eq_decide_div_mod_eq, hbit]
  cases ue <;> rfl

theorem stamp_toNat_add (stamp : Nat) : (BitVec.ofNat 64 stamp).toNat + stamp / 2 ^ 64 * 2 ^ 64 = stamp := by
  rw [BitVec.toNat_ofNat]; omega

end stampWord

section stampTake
variable {s : State} {n dom id stamp : Nat} {ue : Bool} (hd : dom < 2) (hi : id < 65536) (hs : stamp < 2 ^ 110)
include hd hi hs

theorem stampTake_stampItem_none : stampTake s n (stampItem dom id stamp ue none) = tsqPut s n dom id stamp ue := by
  unfold stampTake stampItem
  dsimp only
  rw [← stampWord, stampWord_toNat ue hd hi, stampWord_low ue hs, stamp_toNat_add, stampWord_dom ue hd,
    stampWord_id ue hd hi, stampWord_ue ue hd hi, Bool.or_false, Bool.or_false]
  rfl

theorem stampTake_stampItem_some {x : Nat} (hx : x < 2) :
    stampTake s n (stampItem dom id stamp ue (some x)) = modClk s x fun c => { c with dreqSent := some stamp } := by
  have hside : (BitVec.ofNat 2 (x + 1)).toNat = x + 1 := (BitVec.toNat_ofNat ..).trans (Nat.mod_eq_of_lt (by omega))
  unfold stampTake stampItem
  dsimp only
  rw [← stampWord, stampWord_toNat ue hd hi, stampWord_low ue hs, stamp_toNat_add, Option.elim_some, hside]
  rfl

end stampTake

/-! ## The meanings of the Timebase's register accesses and edges -/

theorem exec_tbTsqPop (a : Agent) (n : Nat) (w : Word) (s : State) : exec (.tbTsqPop a n w) s = execTbTsqPop a n w s := rfl

theorem exec_tbTsqCountRead (a : Agent) (n k : Nat) (s : State) :
    exec (.tbTsqCountRead a n k) s = execTbTsqCountRead a n k s := rfl

theorem exec_tbTodNsRead (a : Agent) (x : Nat) (s : State) : exec (.tbTodNsRead a x) s = execTbTodNsRead a x s := rfl

theorem exec_tbOffsetAbRead (a : Agent) (hi : Bool) (s : State) :
    exec (.tbOffsetAbRead a hi) s = execTbOffsetAbRead a hi s := rfl

theorem exec_tbPpsInNsRead (a : Agent) (x : Nat) (s : State) : exec (.tbPpsInNsRead a x) s = execTbPpsInNsRead a x s := rfl

theorem exec_tbPpsInCntRead (a : Agent) (x : Nat) (s : State) :
    exec (.tbPpsInCntRead a x) s = execTbPpsInCntRead a x s := rfl

theorem exec_ppsOutEdge (x : Nat) (s : State) : exec (.ppsOutEdge x) s = execPpsOutEdge x s := rfl

theorem exec_ppsInEdge (x dt : Nat) (freq : Int) (s : State) :
    exec (.ppsInEdge x dt freq) s = execPpsInEdge x dt freq s := rfl

/-! ## Registers of a queue (R389, R391, R394) -/

/-- A live access to a register the Timebase has passes its first check. -/
theorem barLive_guard {a : Agent} {n k : Nat} {s : State} (hl : barLive s a = true) (hn : n < k) :
    (!barLive s a || decide (k ≤ n)) = false := by
  rw [hl, decide_eq_false (Nat.not_le.mpr hn)]
  rfl

theorem tb_ite_raiseVec (b : Bool) (s : State) (v : Nat) : (if b then s else raiseVec s v).tb = s.tb := by
  cases b with
  | true => rfl
  | false => exact raiseVec_tb ..

section queueRegs
variable {a : Agent} {n : Nat} {w : Word} {s : State} (hl : barLive s a = true) (hn : n < 4)

theorem execTbTsqPop_of_other {e : TsqEntry} {l : List TsqEntry} (he : (tsqOf s n).entries = e :: l)
    (hw : w.toNat % 4 ≠ e.seq) : execTbTsqPop a n w s = .next s := by
  have hgo : (!barLive s a || decide (4 ≤ n) || e.seq != w.toNat % 4) = true := by
    rw [bne_iff_ne.mpr (Ne.symm hw), Bool.or_true]
  simp only [execTbTsqPop, he, hgo, if_true]

include hl hn

theorem execTbTsqPop_of_head {e : TsqEntry} {l : List TsqEntry} (he : (tsqOf s n).entries = e :: l)
    (hw : w.toNat % 4 = e.seq) :
    execTbTsqPop a n w s =
      fin (if l.isEmpty then modTsq s n fun q => { q with entries := l }
        else raiseVec (modTsq s n fun q => { q with entries := l }) (tsqOf s n).vector) := by
  simp only [execTbTsqPop, he, barLive_guard hl hn, hw, bne_self_eq_false, Bool.or_false, Bool.false_eq_true, if_false]

theorem execTbTsqPop_answers {e : TsqEntry} {l : List TsqEntry} (he : (tsqOf s n).entries = e :: l)
    (hw : w.toNat % 4 = e.seq) :
    Answers (execTbTsqPop a n w s) fun t => tsqOf t n = { tsqOf s n with entries := l } ∧
      ∀ j, j ≠ n → tsqOf t j = tsqOf s j := by
  rw [execTbTsqPop_of_head hl hn he hw, answers_fin]
  simp only [tsqOf_settle, tsqOf_of_tb (tb_ite_raiseVec ..)]
  exact ⟨tsqOf_modTsq_self .., fun j hj => tsqOf_modTsq_ne _ _ hj⟩

/-- Each count is returned and cleared. -/
theorem execTbTsqCountRead_live :
    execTbTsqCountRead a n 0 s = fin (returned (modTsq s n fun q => { q with ovf := 0 }) (tsqOf s n).ovf) ∧
    execTbTsqCountRead a n 1 s = fin (returned (modTsq s n fun q => { q with ue := 0 }) (tsqOf s n).ue) ∧
    execTbTsqCountRead a n 2 s = fin (returned (modTsq s n fun q => { q with flagIgn := 0 }) (tsqOf s n).flagIgn) ∧
    execTbTsqCountRead a n 3 s = fin (returned (modTsq s n fun q => { q with skip := 0 }) (tsqOf s n).skip) := by
  simp only [execTbTsqCountRead, barLive_guard hl hn, Bool.false_eq_true, if_false]
  exact ⟨trivial, trivial, trivial, trivial⟩

end queueRegs

/-! ## Registers of times (R14, R377, R383, R398) -/

/-- The latches after a read of time x's NS while it is t: SEC_HI, SEC_LO and FRAC (R383). -/
def todLatches (m : Tab Word) (x t : Nat) : Tab Word :=
  tabSet 0 (tabSet 0 (tabSet 0 m (3 * x) (BitVec.ofNat 32 (t / unitsPerSec / 2 ^ 32)))
    (3 * x + 1) (BitVec.ofNat 32 (t / unitsPerSec))) (3 * x + 2) (BitVec.ofNat 32 (t % 65536))

section todLatches
variable (m : Tab Word) (x t : Nat)

theorem todLatches_hi : tabGet 0 (todLatches m x t) (3 * x) = BitVec.ofNat 32 (t / unitsPerSec / 2 ^ 32) := by
  rw [todLatches, tabGet_tabSet_ne _ _ _ (by omega), tabGet_tabSet_ne _ _ _ (by omega), tabGet_tabSet_self]

theorem todLatches_lo : tabGet 0 (todLatches m x t) (3 * x + 1) = BitVec.ofNat 32 (t / unitsPerSec) := by
  rw [todLatches, tabGet_tabSet_ne _ _ _ (by omega), tabGet_tabSet_self]

theorem todLatches_frac : tabGet 0 (todLatches m x t) (3 * x + 2) = BitVec.ofNat 32 (t % 65536) := tabGet_tabSet_self ..

variable {t} in
/-- The two words of seconds together are the seconds of every time below 2^64 s. -/
theorem todLatches_sec (h : t < 2 ^ 64 * unitsPerSec) :
    (tabGet 0 (todLatches m x t) (3 * x)).toNat * 2 ^ 32 + (tabGet 0 (todLatches m x t) (3 * x + 1)).toNat =
      t / unitsPerSec := by
  have hsec : t / unitsPerSec < 2 ^ 64 := Nat.div_lt_of_lt_mul (by rwa [Nat.mul_comm])
  rw [todLatches_hi, todLatches_lo, BitVec.toNat_ofNat, BitVec.toNat_ofNat]
  generalize t / unitsPerSec = n at hsec ⊢
  omega

end todLatches

/-- B's time less A's as its register holds it (R377). -/
def offsetAb (s : State) : DWord := BitVec.ofInt 64 ((s.tb.clkB.time : Int) - s.tb.clkA.time)

section timeRegs
variable {a : Agent} {x : Nat} {s : State} (hl : barLive s a = true)
include hl

theorem execTbTodNsRead_live (hx : x < 3) :
    execTbTodNsRead a x s =
      fin (returned (modTb s fun u => { u with latches := todLatches u.latches x (todOf s x) })
        (todOf s x % unitsPerSec / 65536)) := by
  simp only [execTbTodNsRead, barLive_guard hl hx, Bool.false_eq_true, if_false]
  rfl

theorem execTbOffsetAbRead_lo :
    execTbOffsetAbRead a false s =
      fin (returned (modTb s fun t => { t with offHi := some (hiWord (offsetAb s).toNat) }) ((offsetAb s).toNat % 2 ^ 32)) := by
  simp only [execTbOffsetAbRead, hl, offsetAb, Bool.not_true, Bool.false_eq_true, if_false]

theorem execTbOffsetAbRead_hi {h : Word} (hh : s.tb.offHi = some h) :
    execTbOffsetAbRead a true s = fin (returned (modTb s fun t => { t with offHi := none }) h.toNat) := by
  simp only [execTbOffsetAbRead, hl, hh, Bool.not_true, Bool.false_eq_true, if_false, if_true, Option.elim_some]

variable (hx : x < 2)
include hx

theorem execTbPpsInNsRead_live :
    execTbPpsInNsRead a x s =
      fin (returned (modTb s fun t => { t with latches := tabSet 0 t.latches (16 + x) (BitVec.ofNat 32 (clkOf s x).inSec) })
        (clkOf s x).inNs) := by
  simp only [execTbPpsInNsRead, barLive_guard hl hx, Bool.false_eq_true, if_false]

theorem execTbPpsInCntRead_live :
    execTbPpsInCntRead a x s = fin (returned (modClk s x fun c => { c with inCnt := 0 }) (clkOf s x).inCnt) := by
  simp only [execTbPpsInCntRead, barLive_guard hl hx, Bool.false_eq_true, if_false]

end timeRegs

theorem hiWord_toNat (v : DWord) : (hiWord v.toNat).toNat = v.toNat / 2 ^ 32 := by
  have hv := v.isLt
  rw [hiWord, BitVec.toNat_ofNat]
  omega

section timeReads
variable {a : Agent} {x : Nat} {s : State} (hl : barLive s a = true)
include hl

theorem execTbTodNsRead_answers (hx : x < 3) :
    Answers (execTbTodNsRead a x s) fun t =>
      t.dev.rdata = BitVec.ofNat 64 (todOf s x % unitsPerSec / 65536) ∧
        t.tb.latches = todLatches s.tb.latches x (todOf s x) ∧ todOf t x = todOf s x := by
  rw [execTbTodNsRead_live hl hx, answers_fin, settle_dev, settle_tb, todOf_of_tb (settle_tb _)]
  exact ⟨rfl, rfl, rfl⟩

/-- A read of the low half, then one of the high half, return the offset as it was at the first (R14). -/
theorem execTbOffsetAbRead_answers :
    Answers (execTbOffsetAbRead a false s) fun t => t.dev.rdata = BitVec.ofNat 64 ((offsetAb s).toNat % 2 ^ 32) ∧
      Answers (execTbOffsetAbRead a true t) fun t' => t'.dev.rdata = BitVec.ofNat 64 ((offsetAb s).toNat / 2 ^ 32) := by
  rw [execTbOffsetAbRead_lo hl, answers_fin]
  refine ⟨by rw [settle_dev]; rfl, ?_⟩
  rw [execTbOffsetAbRead_hi (h := hiWord (offsetAb s).toNat) (by rw [barLive_settle, barLive_returned, barLive_modTb, hl])
    (by rw [settle_tb]; rfl), answers_fin, settle_dev, returned_rdata, hiWord_toNat]

theorem execTbPpsInNsRead_answers (hx : x < 2) :
    Answers (execTbPpsInNsRead a x s) fun t => t.dev.rdata = BitVec.ofNat 64 (clkOf s x).inNs ∧
      tabGet 0 t.tb.latches (16 + x) = BitVec.ofNat 32 (clkOf s x).inSec ∧ clkOf t x = clkOf s x := by
  rw [execTbPpsInNsRead_live hl hx, answers_fin, settle_dev, settle_tb, clkOf_settle]
  exact ⟨rfl, tabGet_tabSet_self .., rfl⟩

end timeReads

/-! ## Clocks (R371, R375) -/

@[simp] theorem clkOf_modClk_self (s : State) (x : Nat) (f : Clk → Clk) : clkOf (modClk s x f) x = f (clkOf s x) := by
  unfold clkOf modClk
  split <;> rfl

theorem clkOf_slewDone (s : State) (switch : Bool) (x : Nat) : clkOf (slewDone s switch) x = clkOf s x := by
  unfold slewDone
  dsimp only
  split <;> rfl

theorem clkOf_tickMove (s : State) (x : Nat) : clkOf (tickMove s) x = clkOf s x := rfl

/-- A slew moves the selected time alone. -/
theorem clkOf_newDelta (s : State) (switch : Bool) (x : Nat) : clkOf (newDelta s switch) x = clkOf s x := by
  unfold newDelta
  dsimp only
  split
  · rw [clkOf_tickMove, clkOf_slewDone]
  · split
    · exact clkOf_slewDone ..
    · split
      · rw [clkOf_of_tb (alarm_tb ..)]
        rfl
      · rfl

/-- A step sets the time of its own clock, whatever the selected time does. -/
theorem clkOf_domStep_self (s : State) (x t : Nat) :
    clkOf (domStep s x t) x =
      { clkOf s x with time := t, outSec := ((t : Int) + (clkOf s x).comp * 16384) / unitsPerSec } := by
  unfold domStep
  dsimp only
  split
  · rw [clkOf_newDelta, clkOf_modClk_self]
  · rw [clkOf_modClk_self]

/-! ## The stamp of the last PPS edge (R398) -/

/-- What a clock holds of its last input edge: second, nanosecond and count. -/
def Clk.edge (c : Clk) : Nat × Nat × Nat := (c.inSec, c.inNs, c.inCnt)

theorem Clk.edge_eq_iff {c : Clk} {sec ns cnt : Nat} :
    c.edge = (sec, ns, cnt) ↔ c.inSec = sec ∧ c.inNs = ns ∧ c.inCnt = cnt := by
  rw [Clk.edge, Prod.mk.injEq, Prod.mk.injEq]

theorem edge_modClk (s : State) (x : Nat) {f : Clk → Clk} (hf : ∀ c, (f c).edge = c.edge) :
    (clkOf (modClk s x f) x).edge = (clkOf s x).edge := by rw [clkOf_modClk_self, hf]

theorem edge_servoTo (s : State) (x : Nat) (v : Servo) : (clkOf (servoTo s x v) x).edge = (clkOf s x).edge := by
  unfold servoTo
  dsimp only
  split
  · rfl
  · exact edge_modClk s x fun _ => rfl

theorem edge_domStep (s : State) (x t : Nat) : (clkOf (domStep s x t) x).edge = (clkOf s x).edge := by
  rw [clkOf_domStep_self]
  rfl

theorem edge_clkSteer (s : State) (x : Nat) (off freq : Int) : (clkOf (clkSteer s x off freq) x).edge = (clkOf s x).edge := by
  unfold clkSteer
  dsimp only
  split
  · exact edge_modClk s x fun _ => rfl
  · split
    · rw [edge_servoTo]; exact edge_modClk s x fun _ => rfl
    · rw [edge_domStep]; exact edge_modClk s x fun _ => rfl
    · exact edge_modClk s x fun _ => rfl

/-- Domain x after an edge at t is stamped and counted. -/
def ppsStamped (s : State) (x t : Nat) : State :=
  modClk s x fun c => { c with inSec := t / unitsPerSec % 2 ^ 32, inNs := t % unitsPerSec / 65536, inCnt := sat32 (c.inCnt + 1) }

theorem edge_ppsStamped (s : State) (x t : Nat) :
    (clkOf (ppsStamped s x t) x).edge =
      (t / unitsPerSec % 2 ^ 32, t % unitsPerSec / 65536, sat32 ((clkOf s x).inCnt + 1)) := by
  rw [ppsStamped, clkOf_modClk_self]
  rfl

/-- Domain x after an edge at t that its servo takes: one that followed no source enters LOCKING. -/
def ppsTaken (s : State) (x t : Nat) : State :=
  if (clkOf s x).servo.steered then ppsStamped s x t else servoTo (ppsStamped s x t) x .locking

theorem edge_ppsTaken (s : State) (x t : Nat) : (clkOf (ppsTaken s x t) x).edge = (clkOf (ppsStamped s x t) x).edge := by
  unfold ppsTaken
  split
  · rfl
  · exact edge_servoTo ..

/-- The time of day a command gave takes effect at the edge, dt units from now. -/
def ppsTod (s : State) (x dt sec : Nat) : State :=
  domStep (modClk s x fun c => { c with todPend := none, lastUse := s.tb.elapsed }) x (timeAdd (sec * unitsPerSec) (-(dt : Int)))

theorem edge_ppsTod (s : State) (x dt sec : Nat) : (clkOf (ppsTod s x dt sec) x).edge = (clkOf s x).edge := by
  rw [ppsTod, edge_domStep]
  exact edge_modClk s x fun _ => rfl

theorem timeAdd_zero {t : Nat} (h : t < 2 ^ 64 * unitsPerSec) : timeAdd t 0 = t := by
  rw [timeAdd, Int.add_zero, ← Int.natCast_emod, Int.toNat_natCast, Nat.mod_eq_of_lt h]

theorem clkOf_ppsTod_now (s : State) (x : Nat) {sec : Nat} (h : sec < 2 ^ 64) :
    (clkOf (ppsTod s x 0 sec) x).time = sec * unitsPerSec ∧ (clkOf (ppsTod s x 0 sec) x).todPend = none := by
  rw [ppsTod, clkOf_domStep_self, clkOf_modClk_self]
  exact ⟨timeAdd_zero (Nat.mul_lt_mul_of_pos_right h (by decide)), rfl⟩

section ppsInEdge
variable {x dt : Nat} {freq : Int} {s : State} (hx : x < 2) (hr : s.dev.inReset = false) (hin : (clkOf s x).inEn = true)
include hx hr hin

theorem execPpsInEdge_of_unused (h : (clkOf s x).en = true → (clkOf s x).p.source ≠ 1) :
    execPpsInEdge x dt freq s = fin (ppsStamped s x ((clkOf s x).time + dt)) := by
  have hun : (!(clkOf s x).en || (clkOf s x).p.source != 1) = true := by
    cases he : (clkOf s x).en with
    | false => rfl
    | true => exact bne_iff_ne.mpr (h he)
  simp only [execPpsInEdge, hr, hin, hun, decide_eq_false (Nat.not_le.mpr hx), Bool.not_true, Bool.or_false,
    Bool.false_eq_true, if_false, if_true]
  rfl

section followed
variable (he : (clkOf s x).en = true) (hsrc : (clkOf s x).p.source = 1)
include he hsrc

theorem execPpsInEdge_of_tod {sec : Nat} (h : (clkOf s x).todPend = some sec) :
    execPpsInEdge x dt freq s = fin (ppsTod (ppsTaken s x ((clkOf s x).time + dt)) x dt sec) := by
  simp only [execPpsInEdge, hr, hin, he, hsrc, h, decide_eq_false (Nat.not_le.mpr hx), bne_self_eq_false, Bool.not_true,
    Bool.or_false, Bool.false_eq_true, if_false]
  rfl

theorem execPpsInEdge_of_steer (h : (clkOf s x).todPend = none) :
    ∃ off, execPpsInEdge x dt freq s = fin (clkSteer (ppsTaken s x ((clkOf s x).time + dt)) x off freq) := by
  simp only [execPpsInEdge, hr, hin, he, hsrc, h, decide_eq_false (Nat.not_le.mpr hx), bne_self_eq_false, Bool.not_true,
    Bool.or_false, Bool.false_eq_true, if_false]
  exact ⟨_, rfl⟩

end followed

/-- Whatever the servo makes of it, an edge is stamped and counted. -/
theorem execPpsInEdge_edge :
    Answers (execPpsInEdge x dt freq s) fun v =>
      (clkOf v x).edge = (clkOf (ppsStamped s x ((clkOf s x).time + dt)) x).edge := by
  by_cases huse : (clkOf s x).en = true ∧ (clkOf s x).p.source = 1
  · obtain ⟨he, hsrc⟩ := huse
    cases htod : (clkOf s x).todPend with
    | some sec =>
      rw [execPpsInEdge_of_tod hx hr hin he hsrc htod, answers_fin, clkOf_settle, edge_ppsTod, edge_ppsTaken]
    | none =>
      obtain ⟨off, hsteer⟩ := execPpsInEdge_of_steer (dt := dt) (freq := freq) hx hr hin he hsrc htod
      rw [hsteer, answers_fin, clkOf_settle, edge_clkSteer, edge_ppsTaken]
  · rw [execPpsInEdge_of_unused hx hr hin fun he hsrc => huse ⟨he, hsrc⟩, answers_fin, clkOf_settle]

end ppsInEdge

/-! ## The PPS output (R397) -/

section ppsOutEdge
variable {x : Nat} {s : State} (hx : x < 2) (hr : s.dev.inReset = false) (hout : (clkOf s x).outEn = true)
  (hh : s.dev.devState ≠ .halted)
include hx hr hout hh

theorem execPpsOutEdge_of_high (hhigh : (clkOf s x).outHigh = true) :
    execPpsOutEdge x s =
      if s.tb.elapsed < (clkOf s x).outRise + (clkOf s x).width * 65536000 then .next s
      else fin (modClk s x fun c => { c with outHigh := false, outSec := ppsSec c }) := by
  simp only [execPpsOutEdge, decide_eq_false (Nat.not_le.mpr hx), hr, hout, beq_eq_false_iff_ne.mpr hh, hhigh, Bool.not_true,
    Bool.or_false, Bool.false_eq_true, if_false, if_true]

theorem execPpsOutEdge_of_low (hlow : (clkOf s x).outHigh = false) :
    execPpsOutEdge x s =
      if ppsSec (clkOf s x) = (clkOf s x).outSec then .next s
      else fin (modClk s x fun c => { c with outHigh := true, outSec := ppsSec c, outRise := s.tb.elapsed }) := by
  simp only [execPpsOutEdge, decide_eq_false (Nat.not_le.mpr hx), hr, hout, beq_eq_false_iff_ne.mpr hh, hlow, Bool.not_true,
    Bool.or_false, Bool.false_eq_true, if_false]

end ppsOutEdge

/-! ## The statement -/

/-- Settles O46: its clauses are the laws of a queue's arrival, of a stamp's item, of the registers of queues and times and of the
PPS edges. -/
theorem timeStamps : Obligations.TimeStamps := by
  refine ⟨fun s n dom id stamp ue => ?arrival, fun s n dom id stamp x ue hd hi hs =>
      ⟨stampTake_stampItem_none hd hi hs, fun hx => stampTake_stampItem_some hx (by decide) hs hx⟩,
    fun a n w s hl hn => ⟨fun e l he => ?pop, ?counts⟩,
    fun a x s hl => ⟨fun hx => ?tod, ?offset, fun hx => ⟨?ppsTime, ?ppsCount⟩⟩,
    fun x dt freq s hx hr => ⟨fun hout hh => ⟨fun hlow hs => ?rise, fun hlow hs => ?hold, fun hhigh hw => ?fall⟩,
      fun hin => ⟨?stamped, fun sec he hsrc htod hdt hsec _ => ?timeOfDay⟩⟩⟩
  case arrival =>
    intro q t e
    have ht : t = q.put (tsqSize s) s.dev.compatQ48 dom id stamp ue := tsqOf_tsqPut ..
    rw [ht]
    refine ⟨fun hroom => ?_, fun hfull hc => ?_, fun a c l hc hq hlen => ?_, Tsq.put_ue⟩
    · rw [Tsq.put_of_room hroom]
      exact ⟨rfl, rfl, rfl, rfl⟩
    · have hsize : tsqSize s = 64 := by rw [tsqSize, hc]; rfl
      rw [hc, hsize, Tsq.put_of_full hfull]
      exact ⟨rfl, rfl, rfl⟩
    · have hsize : tsqSize s = 16 := by rw [tsqSize, hc]; rfl
      have hfull : 16 ≤ q.entries.length := by simp only [hq, List.length_cons, hlen]; omega
      rw [hc, hsize, Tsq.put_of_full_compat hfull, Tsq.overwritten_of_cons_cons hq]
      exact ⟨rfl, rfl⟩
  case pop =>
    rw [exec_tbTsqPop]
    exact ⟨execTbTsqPop_of_other he, execTbTsqPop_answers hl hn he⟩
  case counts =>
    obtain ⟨hovf, hue, hign, hskip⟩ := execTbTsqCountRead_live hl hn
    simp only [exec_tbTsqCountRead, hovf, hue, hign, hskip]
    exact ⟨gives_fin _, gives_fin _, gives_fin _, gives_fin _⟩
  case tod =>
    rw [exec_tbTodNsRead]
    refine (execTbTodNsRead_answers hl hx).mono fun t ⟨hns, hlatch, htod⟩ => ?_
    rw [hlatch]
    exact ⟨hns, todLatches_frac .., todLatches_sec _ _, htod⟩
  case offset =>
    rintro v rfl
    simp only [exec_tbOffsetAbRead]
    exact execTbOffsetAbRead_answers hl
  case ppsTime =>
    rw [exec_tbPpsInNsRead]
    exact execTbPpsInNsRead_answers hl hx
  case ppsCount =>
    rw [exec_tbPpsInCntRead, execTbPpsInCntRead_live hl hx]
    exact gives_fin _
  case rise =>
    rw [exec_ppsOutEdge, execPpsOutEdge_of_low hx hr hout hh hlow, if_neg hs]
    exact gives_fin _
  case hold => rw [exec_ppsOutEdge, execPpsOutEdge_of_low hx hr hout hh hlow, if_pos hs]
  case fall =>
    rw [exec_ppsOutEdge, execPpsOutEdge_of_high hx hr hout hh hhigh, if_neg (Nat.not_lt.mpr hw)]
    exact gives_fin _
  case stamped =>
    rw [exec_ppsInEdge]
    refine (execPpsInEdge_edge hx hr hin).mono fun v hv => ?_
    obtain ⟨hsec, hns, hcnt⟩ := Clk.edge_eq_iff.mp (hv.trans (edge_ppsStamped ..))
    exact ⟨hns, hsec, hcnt⟩
  case timeOfDay =>
    subst hdt
    rw [exec_ppsInEdge, execPpsInEdge_of_tod hx hr hin he hsrc htod, answers_fin, clkOf_settle]
    exact clkOf_ppsTod_now _ x hsec

end Sys2Proof.Machine
end

section
/-! SUPPORT. A Norux command that leaves its effect undone: its berth is not the one to execute, or checks 1 to 5 of R474 turn it
away (R459, R470, R474, R475). -/

namespace Sys2Proof.Machine

/-! ## The codes of checks 1 to 5 (R474) -/

section Checks
variable {s : State} {sp : NxSpec} {f : Fmt} {h : NxHdr} {c : Nat}

/-- The codes of check 1. -/
def fmtCodes : List Nat := [0x0102, 0x0103, 0x0104, 0x0105, 0x0106]

/-- The codes of checks 1 to 5. -/
def judgeCodes : List Nat := fmtCodes ++ [0x0401, 0x0701, 0x0202, 0x0201, 0x0204]

theorem fmtCheck_mem (hc : fmtCheck s sp f h = some c) : c ∈ fmtCodes := by
  unfold fmtCheck at hc
  repeat' split at hc
  all_goals simp_all [fmtCodes]

theorem judge_of_fmtCheck (hc : fmtCheck s sp f h = some c) : judge s sp f h = some c := by
  rw [judge, hc]

theorem judge_mem (hc : judge s sp f h = some c) : c ∈ judgeCodes := by
  cases hf : fmtCheck s sp f h with
  | some d =>
    rw [judge_of_fmtCheck hf] at hc
    obtain rfl := Option.some.inj hc
    exact List.mem_append_left _ (fmtCheck_mem hf)
  | none =>
    rw [judge, hf] at hc
    dsimp only at hc
    refine List.mem_append_right _ ?_
    repeat' split at hc
    all_goals simp_all

/-- A code of checks 1 to 5 is not the status of a command carried out, and fits STATUS. -/
theorem judge_code (hc : judge s sp f h = some c) : c ≠ 0 ∧ c < 65536 :=
  have hall : ∀ d ∈ judgeCodes, d ≠ 0 ∧ d < 65536 := by decide
  hall c (judge_mem hc)

/-- An OBJECT of another class, or an index outside the class's range: only a LEN fault comes before it (R470). -/
theorem judge_of_object (hlen : h.len ≤ payloadMax s) (hdma : h.dma = true → h.len = 24) (hok : f.lenOk = true)
    (hobj : h.cls ≠ sp.cls ∨ idxOk h.opcode h.cls h.idx = false) : judge s sp f h = some 0x0103 := by
  have hnolen : (decide (payloadMax s < h.len) || (h.dma && h.len != 24) || !f.lenOk) = false := by
    cases hd : h.dma <;> simp_all
  have hbad : (h.cls != sp.cls || !idxOk h.opcode h.cls h.idx) = true := by simpa using hobj
  refine judge_of_fmtCheck ?_
  rw [fmtCheck, hnolen, hbad]
  rfl

/-- A state in which the command is not legal, once the format, the variant and the Tandem role are passed (R474). -/
theorem judge_of_illegal (hfmt : fmtCheck s sp f h = none)
    (hme : ¬ ((h.opcode / 256 = 0x0B ∨ sp.rime = true) ∧ s.dev.variant = .me))
    (hnx : ¬ (h.opcode / 256 = 0x0F ∧ s.dev.variant = .nx)) (hrole : s.tdm.st = .standby → sp.prot s h.idx = false)
    (hill : sp.states.contains s.dev.devState = false ∨ sp.legal s h.idx = false) : judge s sp f h = some 0x0201 := by
  have hprot : (decide (s.tdm.st = .standby) && sp.prot s h.idx) = false := by
    by_cases hs : s.tdm.st = .standby
    · rw [hrole hs, Bool.and_false]
    · rw [decide_eq_false hs, Bool.false_and]
  have hbad : (!sp.states.contains s.dev.devState || !sp.legal s h.idx) = true := by
    rw [Bool.or_eq_true, Bool.not_eq_true', Bool.not_eq_true']
    exact hill
  rw [judge, hfmt]
  dsimp only
  rw [if_neg hme, if_neg hnx, hprot, hbad]
  rfl

end Checks

/-! ## Executing a berth whose command has no effect -/

section TurnedAway
variable {i : Instr} {sp : NxSpec} {b c : Nat} {f : Fmt} {s t : State} {body : NxHdr → State → NxRes}

theorem runNx_of_not_ready (h : nxReady s b = false) : runNx sp b f i body s = .next s := by
  simp [runNx, h]

theorem runNx_of_unknown (hr : nxReady s b = true) (hi : inputOk s (hdrOf s b) = true)
    (ho : opcodes.contains (hdrOf s b).opcode = false) : runNx sp b f i body s =
      fin (complete (nxAt s b) b (hdrOf s b) 0x0101 (objState (nxAt s b) (hdrOf s b).cls (hdrOf s b).idx) noObj 0 []) := by
  unfold runNx
  dsimp only
  rw [hr, hi, ho]
  rfl

theorem runNx_of_judge (ht : nxTaken sp b s = true) (hc : judge (nxAt s b) sp f (hdrOf s b) = some c) :
    runNx sp b f i body s = fin (refused (nxAt s b) sp b (hdrOf s b) c noObj 0) := by
  simp only [nxTaken, Bool.and_eq_true, beq_iff_eq] at ht
  obtain ⟨⟨⟨hready, hin⟩, hop⟩, hknown⟩ := ht
  rw [← hop] at hknown
  unfold runNx
  dsimp only
  rw [hready, hin, hknown, hc, bne, beq_iff_eq.mpr hop]
  rfl

theorem nxAccepted_of_not_ready (h : nxReady s b = false) : nxAccepted sp b f s = false := by
  simp [nxAccepted, nxTaken, h]

theorem nxAccepted_of_unknown (ho : opcodes.contains (hdrOf s b).opcode = false) : nxAccepted sp b f s = false := by
  have htaken : nxTaken sp b s = false := by
    rw [Bool.eq_false_iff]
    intro ht
    simp only [nxTaken, Bool.and_eq_true, beq_iff_eq] at ht
    obtain ⟨⟨-, hop⟩, hknown⟩ := ht
    rw [hop, hknown] at ho
    cases ho
  simp [nxAccepted, htaken]

theorem nxAccepted_of_judge (hc : judge (nxAt s b) sp f (hdrOf s b) = some c) : nxAccepted sp b f s = false := by
  simp [nxAccepted, hc]

/-- An import that did not complete keeps its berth's payload (R416). -/
theorem importEnd_keep {clear : Bool} (h : clear = true → berthNum t b 6 2 ≠ 0) :
    importEnd clear b (.next t) = .next t := by
  cases clear with
  | false => rfl
  | true => rw [importEnd, if_pos rfl, importWiped, if_neg (h rfl)]

/-- A Junction command that waits for a due block boundary leaves the state as it is (R263). -/
theorem unlessDue_eq {o : Out} (hdue : blockDue s = true → s = t) (ho : o = .next t) :
    (if blockDue s then .next s else o) = .next t := by
  split
  · next h => rw [hdue h]
  · exact ho

/-- A Norux command that is not accepted has the one outcome its catalogue row gives it, whatever its own rules and operands: nothing
of its effect, no reset of the device, no payload wiped. A Junction command may wait for a due block boundary first. -/
theorem exec_of_not_accepted (hi : nxSpecOf i = some (b, f, sp)) (ha : nxAccepted sp b f s = false)
    (hr : ∀ j body, runNx sp b f j body s = .next t) (hdue : blockDue s = true → sp.opcode / 256 = 5 → s = t)
    (hkeep : nxReady s b = true → (hdrOf s b).dma = false → berthNum t b 6 2 ≠ 0) : exec i s = .next t := by
  cases i with
  | nxRimeKeySet =>
    cases hi
    show importEnd _ _ (runNx ..) = _
    rw [hr]
    refine importEnd_keep fun hclear => ?_
    simp only [Bool.and_eq_true, Bool.not_eq_true'] at hclear
    obtain ⟨⟨⟨hready, -⟩, -⟩, hdma⟩ := hclear
    exact hkeep hready hdma
  | nxDevReset =>
    cases hi
    show execNxDevReset .. = _
    unfold execNxDevReset
    rw [ha]
    exact hr _ _
  | nxFwActivate =>
    cases hi
    show execNxFwActivate .. = _
    unfold execNxFwActivate
    rw [ha]
    exact hr _ _
  | nxJctBusSet => cases hi; exact unlessDue_eq (fun h => hdue h rfl) (hr _ _)
  | nxJctXpSet => cases hi; exact unlessDue_eq (fun h => hdue h rfl) (hr _ _)
  | nxJctXpDelete => cases hi; exact unlessDue_eq (fun h => hdue h rfl) (hr _ _)
  | _ => cases hi <;> exact hr _ _

/-- A berth that is not the one to execute: the command has no effect (R459; log 7). -/
theorem exec_of_not_ready (hi : nxSpecOf i = some (b, f, sp)) (h : nxReady s b = false) : exec i s = .next s :=
  exec_of_not_accepted hi (nxAccepted_of_not_ready h) (fun _ _ => runNx_of_not_ready h) (fun _ _ => rfl)
    fun hready => absurd hready (by simp [h])

/-- A command turned away with a completion of code c leaves nothing behind but its reports, and its berth shows c. -/
theorem exec_turned_away (hi : nxSpecOf i = some (b, f, sp)) (ha : nxAccepted sp b f s = false)
    (hdue : blockDue s = true → sp.opcode / 256 ≠ 5) (hr : ∀ j body, runNx sp b f j body s = fin t)
    (hin : t.inside = (nxAt s b).inside) (hc : c ≠ 0) (hshow : (hdrOf s b).dma = false → berthShows t b c []) :
    Answers (exec i s) fun u => u.inside = (takeBell s).inside ∧ ((hdrOf s b).dma = false → berthShows u b c []) := by
  have hout : exec i s = fin t := by
    refine exec_of_not_accepted hi ha hr (fun h hj => absurd hj (hdue h)) fun _ hd => ?_
    obtain ⟨hstatus, -⟩ := settle_shows (hshow hd)
    rwa [hstatus]
  rw [hout, answers_fin, settle_inside, hin, nxAt_inside]
  exact ⟨rfl, fun hd => settle_shows (hshow hd)⟩

theorem refused_shows {h : NxHdr} {o : Word} {d : Nat} (hd : h.dma = false) (hc : c < 65536) :
    berthShows (refused s sp b h c o d) b c [] :=
  complete_shows _ _ _ _ _ _ _ _ hd hc (by decide)

end TurnedAway

/-! ## The statement -/

/-- Settles O6: a command turned away has the outcome of its row alone, a completion with the code, and the codes follow the order of
the checks. -/
theorem commandChecks : Obligations.CommandChecks := by
  refine ⟨fun i b f sp s c hi hdue ht hc => ?judged, fun i b f sp s hi hdue hr hin ho => ?unknown,
    fun s sp f h => ⟨?object, ?illegal⟩⟩
  case judged =>
    obtain ⟨hc0, hc16⟩ := judge_code hc
    exact exec_turned_away hi (nxAccepted_of_judge hc) hdue (fun _ _ => runNx_of_judge ht hc) (refused_inside ..) hc0
      fun hd => refused_shows hd hc16
  case unknown =>
    exact exec_turned_away hi (nxAccepted_of_unknown ho) hdue (fun _ _ => runNx_of_unknown hr hin ho) (complete_inside ..)
      (by decide) fun hd => complete_shows _ _ _ _ _ _ _ _ hd (by decide) (by decide)
  case object => exact judge_of_object
  case illegal => exact judge_of_illegal

end Sys2Proof.Machine
end

section
/-! SUPPORT. Berths and doorbells: what a host write stores and what a doorbell rings (R456, R458, R459). -/

namespace Sys2Proof.Machine

/-! ## Doorbells (R458, R459) -/

theorem ringBerth_of_busy {s : State} {b : Nat} (h : s.nx.busy.contains b = true) :
    ringBerth s b = modNx s fun x => { x with dbBusy := sat32 (x.dbBusy + 1) } := by rw [ringBerth, if_pos h]

theorem ringBerth_of_idle {s : State} {b : Nat} (h : s.nx.busy.contains b = false) :
    ringBerth s b = modNx s fun x => { x with busy := x.busy ++ [b], rung := x.rung ++ [b] } := by
  rw [ringBerth, h]; rfl

/-- Different berths, none busy, all rung: each becomes busy and joins the queue, in their order. -/
theorem foldl_ringBerth {s : State} {bs : List Nat} (hn : bs.Nodup) (h : ∀ b ∈ bs, s.nx.busy.contains b = false) :
    bs.foldl ringBerth s = modNx s fun x => { x with busy := x.busy ++ bs, rung := x.rung ++ bs } := by
  induction bs generalizing s with
  | nil => simp [modNx]
  | cons b bs ih =>
    obtain ⟨hb, hn'⟩ := List.nodup_cons.mp hn
    have hrest : ∀ k ∈ bs, (ringBerth s b).nx.busy.contains k = false := by
      intro k hk
      have hne : k ≠ b := fun e => hb (e ▸ hk)
      have hidle := h k (List.mem_cons_of_mem _ hk)
      simp only [List.contains_eq_mem, decide_eq_false_iff_not] at hidle
      rw [ringBerth_of_idle (h b List.mem_cons_self)]
      simp [hidle, hne]
    rw [List.foldl_cons, ih hn' hrest, ringBerth_of_idle (h b List.mem_cons_self)]
    simp [modNx]

/-- The berths a doorbell word rings: those of its bits that are 1, from 32 on for the high register. -/
def bellsOf (hi : Bool) (w : Word) : List Nat := ((nums 32).filter fun i => w.getLsbD i).map fun i => if hi then 32 + i else i

theorem bellsOf_nodup (hi : Bool) (w : Word) : (bellsOf hi w).Nodup := by
  have hnums : (nums 32).Nodup := by decide
  refine List.Pairwise.map _ (fun i j hij => ?_) (List.Pairwise.filter _ hnums)
  cases hi
  · exact hij
  · exact fun h => hij (Nat.add_left_cancel h)

theorem mem_bellsOf {hi : Bool} {w : Word} {b : Nat} (hb : b ∈ bellsOf hi w) :
    ∃ i, i < 32 ∧ b = if hi then 32 + i else i := by
  obtain ⟨i, hmem, rfl⟩ := List.mem_map.mp hb
  obtain ⟨hnums, -⟩ := List.mem_filter.mp hmem
  exact ⟨i, mem_nums.mp hnums, rfl⟩

theorem exec_nxDoorbell (hi : Bool) (w : Word) (s : State) : exec (.nxDoorbell hi w) s = execNxDoorbell hi w s := rfl

theorem execNxDoorbell_live {hi : Bool} {w : Word} {s : State} (hr : s.dev.inReset = false)
    (hc : hi = true → s.dev.compatQ48 = false) : execNxDoorbell hi w s = fin ((bellsOf hi w).foldl ringBerth s) := by
  have hlive : (s.dev.inReset || (hi && s.dev.compatQ48)) = false := by cases hi <;> simp_all
  rw [execNxDoorbell, hlive]
  rfl

/-! ## One byte of a berth (R456, R458) -/

/-- The host may store byte o of the berth area: its berth is not busy and exists, and the byte is not of STATUS or RLEN. -/
def hostStores (s : State) (o : Nat) : Bool :=
  !(s.nx.busy.contains (o / berthSize s) || decide (berthCount s ≤ o / berthSize s) ||
    ([6, 7, 14, 15] : List Nat).contains (o % berthSize s))

theorem hostStores_iff {s : State} {o : Nat} : hostStores s o = true ↔
    s.nx.busy.contains (o / berthSize s) = false ∧ o / berthSize s < berthCount s ∧
      ¬ ([6, 7, 14, 15] : List Nat).contains (o % berthSize s) := by
  rw [hostStores, Bool.not_eq_true', Bool.or_eq_false_iff, Bool.or_eq_false_iff, decide_eq_false_iff_not, Nat.not_le,
    and_assoc, Bool.not_eq_true]

theorem berthByte_of_stores {s : State} {o : Nat} (x : Byte) (h : hostStores s o = true) :
    berthByte s o x = modNx s fun n => { n with berthMem := tabSet 0 n.berthMem o x } := by
  rw [hostStores, Bool.not_eq_true'] at h
  unfold berthByte
  dsimp only
  rw [h]
  rfl

theorem berthByte_of_not_stores {s : State} {o : Nat} (x : Byte) (h : ¬ hostStores s o = true) : berthByte s o x = s := by
  rw [hostStores, Bool.not_eq_true', Bool.not_eq_false] at h
  exact if_pos h

section
variable (s : State) (o : Nat) (x : Byte)

/-- Berth writes reach berth memory alone. -/
theorem berthByte_inside : (berthByte s o x).inside = s.inside := by
  by_cases h : hostStores s o = true
  · rw [berthByte_of_stores x h]; rfl
  · rw [berthByte_of_not_stores x h]

theorem berthByte_busy : (berthByte s o x).nx.busy = s.nx.busy := by
  by_cases h : hostStores s o = true
  · rw [berthByte_of_stores x h]; rfl
  · rw [berthByte_of_not_stores x h]

theorem hostStores_berthByte (a : Nat) : hostStores (berthByte s o x) a = hostStores s a := by
  unfold hostStores berthSize berthCount
  rw [berthByte_busy, dev_of_inside (berthByte_inside s o x)]

end

theorem tabGet_berthByte (s : State) (o : Nat) (x : Byte) (a : Nat) :
    tabGet 0 (berthByte s o x).nx.berthMem a = if a = o ∧ hostStores s a = true then x else tabGet 0 s.nx.berthMem a := by
  by_cases h : hostStores s o = true
  · rw [berthByte_of_stores x h, modNx_nx, tabGet_tabSet]
    by_cases hao : a = o
    · rw [if_pos hao, if_pos ⟨hao, hao ▸ h⟩]
    · rw [if_neg hao, if_neg fun ⟨ha, _⟩ => hao ha]
  · rw [berthByte_of_not_stores x h, if_neg fun ⟨ha, hs⟩ => h (ha ▸ hs)]

/-! ## A berth write -/

/-- Bytes stored one after another from offset o on, each where the host may store it. -/
def berthBytes (s : State) (o : Nat) : List Byte → State
  | [] => s
  | x :: l => berthBytes (berthByte s o x) (o + 1) l

theorem foldl_berthByte (s : State) (o k : Nat) (l : List Byte) :
    ((numsFrom k l.length).zip l).foldl (fun s p => berthByte s (o + p.1) p.2) s = berthBytes s (o + k) l := by
  induction l generalizing s k with
  | nil => rfl
  | cons x l ih => exact ih _ _

theorem berthBytes_inside (s : State) (o : Nat) (l : List Byte) : (berthBytes s o l).inside = s.inside := by
  induction l generalizing s o with
  | nil => rfl
  | cons x l ih => rw [berthBytes, ih, berthByte_inside]

/-- After a berth write: the bytes written where the host may store them, and every other byte as before. -/
theorem tabGet_berthBytes (s : State) (o : Nat) (l : List Byte) (a : Nat) :
    tabGet 0 (berthBytes s o l).nx.berthMem a =
      if o ≤ a ∧ a < o + l.length ∧ hostStores s a = true then l.getD (a - o) 0 else tabGet 0 s.nx.berthMem a := by
  induction l generalizing s o with
  | nil => rw [if_neg fun ⟨h1, h2, _⟩ => absurd h2 (Nat.not_lt.mpr h1)]; rfl
  | cons x l ih =>
    rw [berthBytes, ih, tabGet_berthByte]
    simp only [hostStores_berthByte, List.length_cons]
    by_cases hin : o + 1 ≤ a ∧ a < o + 1 + l.length ∧ hostStores s a = true
    · obtain ⟨hlo, hhi, hs⟩ := hin
      obtain ⟨n, hn⟩ : ∃ n, a - o = n + 1 := ⟨a - o - 1, by omega⟩
      rw [if_pos ⟨hlo, hhi, hs⟩, if_pos ⟨by omega, by omega, hs⟩, hn, List.getD_cons_succ, show a - (o + 1) = n by omega]
    · rw [if_neg hin]
      by_cases hao : a = o
      · subst hao
        rw [Nat.sub_self]
        exact ite_congr (propext ⟨fun ⟨_, hs⟩ => ⟨Nat.le_refl _, by omega, hs⟩, fun ⟨_, _, hs⟩ => ⟨rfl, hs⟩⟩)
          (fun _ => rfl) fun _ => rfl
      · rw [if_neg fun ⟨ha, _⟩ => hao ha, if_neg fun ⟨hlo, hhi, hs⟩ => hin ⟨by omega, by omega, hs⟩]

theorem exec_berthWrite (o : Nat) (l : List Byte) (s : State) : exec (.berthWrite o l) s = execBerthWrite o l s := rfl

/-- NX_BERTH_DROP after a write of n bytes at offset o: a write that meets a busy berth counts once (R458). -/
def dropsAfter (s : State) (o n : Nat) : Nat :=
  if touchesBusy s o n then sat32 (s.nx.berthDrop + 1) else s.nx.berthDrop

theorem execBerthWrite_live {o : Nat} {l : List Byte} {s : State} (hr : s.dev.inReset = false)
    (ha : accessOk true (0x10000 + o) l.length = true) : execBerthWrite o l s =
      fin (berthBytes (modNx s fun x => { x with berthDrop := dropsAfter s o l.length }) o l) := by
  have hdrop : (if touchesBusy s o l.length then modNx s fun x => { x with berthDrop := sat32 (x.berthDrop + 1) } else s) =
      modNx s fun x => { x with berthDrop := dropsAfter s o l.length } := by
    unfold dropsAfter
    split <;> rfl
  rw [execBerthWrite, hr, ha, ← hdrop]
  exact congrArg fin (foldl_berthByte ..)

/-! ## The statement -/

/-- Settles O5: a berth out of turn has no effect, and doorbells and berth writes are those of ringBerth and berthByte, berth by
berth and byte by byte. -/
theorem berthDoorbells : Obligations.BerthDoorbells := by
  refine ⟨fun i b f sp s hi h => exec_of_not_ready hi h, fun hi w s hr hc hidle => ?bells, fun o l s hr ha => ?write,
    fun b s h => ringBerth_of_busy h⟩
  case bells =>
    intro bs
    refine settles_of_eq_fin (execNxDoorbell_live hr hc) (foldl_ringBerth (bellsOf_nodup hi w) fun b hb => ?_)
    obtain ⟨i, hlt, rfl⟩ := mem_bellsOf hb
    exact hidle i hlt
  case write =>
    intro n
    rw [exec_berthWrite, execBerthWrite_live hr ha, answers_fin, settle_inside, settle_berthMem, berthBytes_inside]
    exact ⟨rfl, fun a => (tabGet_berthBytes ..).trans
      (ite_congr (propext (and_congr_right' (and_congr_right' hostStores_iff))) (fun _ => rfl) fun _ => rfl)⟩

end Sys2Proof.Machine
end
